-- ==== Sys2Proof/Word.lean ====
section
/-! DEFINITION. The word types of the model: bytes, the index types of the device's numbered resources
(00_scope.md, Table 0.1; 01 Table 1.1, Table 1.5; 05 Table 5.1) and the all-ones value of its counters (R20). -/

namespace Sys2Proof

/-- One byte of a PTC unit, a payload or a register part (R4, R6). -/
abbrev Byte := BitVec 8
/-- Channel index c (R22). -/
abbrev Chan := Fin 64
/-- Host MAC m (R367). -/
abbrev Mac := Fin 256
/-- Host port group p (R367). -/
abbrev PortId := Fin 32
/-- Control endpoint and partition k (R41). -/
abbrev EpId := Fin 8
/-- Queue number q (R170). -/
abbrev QueueId := Fin 10240
/-- Power domain number (R32). -/
abbrev DomainId := Fin 218
/-- Lane number (R383). -/
abbrev LaneId := Fin 512
/-- Time domain: 0 is A, 1 is B (R312). -/
abbrev DomId := Fin 2
/-- Superframe counter value (Table 2.2). -/
abbrev Sfc := BitVec 48

/-- All ones of a 64-bit counter (R20). -/
def ctrMax : Nat := 18446744073709551615

end Sys2Proof
end

