-- ==== Sys2Proof/Syntax.lean ====
section
/-! DEFINITION. The commands of the block: one constructor of `Instr` for each row of spec/opcode_table.json, with the
operands the rule of the row names, and the operand records they carry. A host command of chapter 18 carries its header
(Table 17.8) and its raw payload bytes (R538); a terminal-control message carries its fields (Table 3.6); an event of
the line, of a pin or of a timer carries what the device senses of it. -/

namespace Sys2Proof

/-- Header block of a downstream frame as received (Table 2.2, Table 2.3, Table 2.11). -/
structure FrameHdr where
  sync : BitVec 64
  sfc : BitVec 48
  hflags : BitVec 16
  hcrc : BitVec 16
  mapLen : BitVec 16
  mapStart : BitVec 16
  profEpoch : Byte
  lcrc : Byte
  /-- Bytes 24 to 87. -/
  odc : List Byte
  tribStart : BitVec 16
  tribSlots : BitVec 16
  tribPage : Byte
  /-- Bytes 1,029 to 1,051, reserved but covered by TRIB_CRC. -/
  tribRsv : List Byte
  tribCrc : BitVec 32
  deriving DecidableEq, Repr

/-- A downstream frame as it is received at a frame position of the lock: its header, the instant of its first sync bit
after the model's last shaper tick in units of 20 ps (R116, R314), and its codewords by number, 272 bytes each as they stand on the
line, scrambled and with whatever errors they have (R47, R53); a codeword not listed is the one of 256 zero bytes, received clean. -/
structure DsFrame where
  hdr : FrameHdr
  off20 : Nat
  cws : List (Nat × List Byte)
  deriving DecidableEq, Repr

/-- What every downstream TCM carries beside its body: the FLOW_TAG of its control segment, TID and SEQ (Table 3.4). -/
structure TcmHdr where
  flowTag : BitVec 16
  tid : BitVec 16
  seq : Byte
  deriving DecidableEq, Repr

/-- Body of PROFILE (Table 3.6). -/
structure ProfileBody where
  epoch : Byte
  idx : BitVec 2
  guard : Byte
  preLen : BitVec 16
  prePat : BitVec 3
  delim : BitVec 2
  fec : Bool
  deriving DecidableEq, Repr

/-- Body of ASSIGN.ID (Table 3.6). -/
structure AssignIdBody where
  serial : BitVec 64
  chan : Byte
  newTid : BitVec 16
  defAlloc : BitVec 14
  deriving DecidableEq, Repr

/-- One entry of ALLOC.MAP (Table 3.6). -/
structure AllocMapEntry where
  id : BitVec 14
  slot : BitVec 6
  deriving DecidableEq, Repr

/-- One entry of FLOW.MAP (Table 3.6). -/
structure FlowMapEntry where
  tag : BitVec 16
  fslot : Byte
  up : Bool
  down : Bool
  unicast : Bool
  deriving DecidableEq, Repr

/-- Body of KEY.REQ (Table 3.6). -/
structure KeyReqBody where
  kdir : Byte
  kslot : Byte
  keySeq : Byte
  fragIdx : Byte
  fragCnt : Byte
  frag : List Byte
  deriving DecidableEq, Repr

/-- Body of KEY.SWITCH (Table 3.6). -/
structure KeySwitchBody where
  kdir : Byte
  kslot : Byte
  keySeq : Byte
  swSfc : BitVec 48
  deriving DecidableEq, Repr

/-- Body of TIME.ANNOUNCE (Table 3.6). -/
structure AnnounceBody where
  tSfc : BitVec 48
  tSec : BitVec 48
  tNs : BitVec 32
  tFrac : BitVec 16
  teq : BitVec 32
  asym : BitVec 32
  valid : Bool
  deriving DecidableEq, Repr

/-- What engine 8c + 7 predicts for a frame (R160): the allocations it expects granted, the upstream word of the first
predicted grant, the bytes it expects each allocation to drain, and which of the three actions it asks for. The method is the
engine firmware's. -/
structure Prediction where
  frame : BitVec 48
  allocs : List (BitVec 14)
  firstWord : Nat
  drain : Nat
  wake : Bool
  prefetch : Bool
  reserve : Bool
  deriving DecidableEq, Repr

/-- A frame as a MAC receives it: its bytes from the destination address to the last byte before the FCS, whether its
FCS is good and whether the PCS or FEC reports an error (R372), and the instant of its timestamp point in units of 100 ps
after the last shaper tick (R314). -/
structure HostFrame where
  bytes : List Byte
  fcsGood : Bool
  pcsErr : Bool
  off100 : Nat
  deriving DecidableEq, Repr

/-- An upstream tributary frame as it arrives (Table 10.6): its Ethernet fields, its header and its payload. -/
structure TribFrame where
  vlan : Option (BitVec 16)
  etype : BitVec 16
  ver : Byte
  stream : BitVec 12
  dirUp : Bool
  tseq : BitVec 32
  part : BitVec 16
  parts : BitVec 16
  firstSslot : BitVec 16
  nslot : Byte
  missing : BitVec 56
  payload : List Byte
  deriving DecidableEq, Repr

/-- One 10 µs sample of a rail: voltage in 0.1 mV and current in 10 mA (R493). -/
structure RailReading where
  v : Nat
  i : Nat
  deriving DecidableEq, Repr

/-- The readings of the four strap pins at the last three ACLK edges of the COLD stretch (R464), bits [1:0] BOOT_SRC and
[3:2] CLK_MODE. -/
structure StrapSample where
  r0 : BitVec 4
  r1 : BitVec 4
  r2 : BitVec 4
  deriving DecidableEq, Repr

/-- What a package carries that the device keeps (Table 15.4, Table 15.5): security version, image version, the digest of
header and manifest, the engine image's digest and its interface version. -/
structure PackageInfo where
  svn : Nat
  imgVer : BitVec 64
  digest : BitVec 256
  engDigest : BitVec 256
  cifv : BitVec 16
  recovery : Bool
  deriving DecidableEq, Repr

/-- What an egress take brings (R182, R269, R314): whether a cell of the frame had an uncorrectable error, and its instant in units of
100 ps after the last shaper tick. -/
structure EgressTake where
  cellErr : Bool
  off100 : Nat
  deriving DecidableEq, Repr

/-- What a pass of the patrol scrub meets (R265): link transfers repeated, and reads with an uncorrectable error. -/
structure PatrolPass where
  linkErrs : Fin 9
  uncorr : Nat
  deriving DecidableEq, Repr

/-- A package as Gorse reads it (R472, R474): its header and manifest, its components in the order of the manifest, and what the
verification of its signature comes to. -/
structure PkgImage where
  head : List Byte
  comps : List (List Byte)
  sigOk : Bool
  deriving DecidableEq, Repr

/-- What a visit of the background scrub finds in a word (R269): the frame, if one, whose cell it is, or the memory and
address that name the word. -/
inductive ScrubFinding where
  | clean
  | corrected
  | uncorrectableCell (frame : Option Nat)
  | uncorrectable (mem : Byte) (addr : BitVec 32)
  deriving DecidableEq, Repr

/-- A register space: BAR0 of an endpoint (Table 17.1) or the two-wire sideband (Table 16.5). -/
inductive RegSpace where
  | bar0 (k : EpId)
  | sideband
  deriving DecidableEq, Repr

/-- The header of a host command (Table 17.8) and the endpoint whose ring carries it; PLEN is the length of the payload
that stands beside it. `rsv` holds the reserved bytes 14 to 15 and 20 to 31. -/
structure CmdHdr where
  ep : EpId
  flags : BitVec 16
  tag : BitVec 32
  seq : BitVec 32
  epoch : BitVec 16
  rsv : BitVec 112
  deriving DecidableEq, Repr

/-- A command as it stands in a command ring or in the direct mailbox (R519, R537). -/
structure RawCmd where
  opcode : BitVec 16
  hdr : CmdHdr
  payload : List Byte
  deriving DecidableEq, Repr

/-- The commands: one constructor per row of spec/opcode_table.json, in the table's order. -/
inductive Instr where
  /-- R57: In HUNT, an exact SYNC match at an untracked block position opens a candidate, or counts DS_HUNT_OVERFLOW when 8 are tracked. -/
  | syncMatch (c : Chan) (pos : Nat) (bits : BitVec 64)
  /-- R58: At a candidate's expected position one frame later, SYNC and HCRC are tested and the candidate is confirmed or expires. -/
  | candidateCheck (c : Chan) (pos : Nat) (f : DsFrame)
  /-- R51: A downstream frame received in LOCK has its header fields used by check result and its payload processed or discarded. -/
  | downstreamFrame (c : Chan) (f : DsFrame)
  /-- R68: A decoded grant map that passes its tests hands its addressed entries to the planners, the executor and the rogue guard. -/
  | mapHandOff (c : Chan) (entries : List (BitVec 64)) (crc : BitVec 32)
  /-- R76: A segment of the segment stream is parsed, tested in the order of R84 and delivered or discarded. -/
  | segment (c : Chan) (bytes : List Byte)
  /-- R105: A PROFILE message adds a profile to an epoch and may complete it. -/
  | profile (c : Chan) (h : TcmHdr) (b : ProfileBody)
  /-- R590: ASSIGN.ID naming the channel sets its terminal identifier and default allocation and enters RANGING. -/
  | assignId (c : Chan) (h : TcmHdr) (b : AssignIdBody)
  /-- R119: ASSIGN.EQD sets the equalization delay from its effective frame and answers with an ACK. -/
  | assignEqd (c : Chan) (h : TcmHdr) (eqd : BitVec 24) (effSfc : BitVec 48)
  /-- R106: ALLOC.MAP adds or removes allocation identifiers. -/
  | allocMap (c : Chan) (h : TcmHdr) (op : Byte) (es : List AllocMapEntry)
  /-- R106: FLOW.MAP adds or removes flow tags in flow contexts. -/
  | flowMap (c : Chan) (h : TcmHdr) (op : Byte) (es : List FlowMapEntry)
  /-- R288: KEY.REQ starts a unicast key exchange or delivers a broadcast key fragment. -/
  | keyReq (c : Chan) (h : TcmHdr) (b : KeyReqBody)
  /-- R293: KEY.SWITCH schedules a slot to become current at a multiframe boundary. -/
  | keySwitch (c : Chan) (h : TcmHdr) (b : KeySwitchBody)
  /-- R315: TIME.ANNOUNCE becomes the channel's current announce when valid. -/
  | timeAnnounce (c : Chan) (h : TcmHdr) (b : AnnounceBody)
  /-- R121: SLEEP.GRANT schedules entry to DOZE with period K. -/
  | sleepGrant (c : Chan) (h : TcmHdr) (k : BitVec 16) (startSfc : BitVec 48)
  /-- R123: A WAKE.REQ from the head end ends DOZE and is acknowledged. -/
  | wakeReq (c : Chan) (h : TcmHdr) (reason : Byte)
  /-- R126: DEACTIVATE takes the channel to LISTEN, or in SILENCED clears the head-end latch and arms the guard clear. -/
  | deactivate (c : Chan) (h : TcmHdr) (reason : Byte)
  /-- R127: SILENCE naming the channel sets the head-end latch and silences it. -/
  | silence (c : Chan) (h : TcmHdr) (serial : BitVec 64) (chan : Byte)
  /-- R127: UNSILENCE clears the head-end latch and arms the guard clear. -/
  | unsilence (c : Chan) (h : TcmHdr) (serial : BitVec 64) (chan : Byte)
  /-- R107: GRANT.REVOKE marks allocations to remove from the next frame's map. -/
  | grantRevoke (c : Chan) (h : TcmHdr) (targetSfc : BitVec 48) (ids : List (BitVec 16))
  /-- R112: An ACK from the head end ends an upstream TCM awaiting acknowledgement. -/
  | ack (c : Chan) (h : TcmHdr) (ackType : Byte) (ackSeq : Byte) (result : Byte)
  /-- R93: LOCK_TIMEOUT expiry in LISTEN raises a major alarm. -/
  | lockTimeout (c : Chan)
  /-- R93: ANNOUNCE_TIMEOUT expiry returns the channel to LOCKED. -/
  | announceTimeout (c : Chan)
  /-- R93: RANGE_TIMEOUT expiry returns the channel to LOCKED and clears its context. -/
  | rangeTimeout (c : Chan)
  /-- R93: HOLD_TIMEOUT expiry sends the channel to LISTEN with its context cleared. -/
  | holdTimeout (c : Chan)
  /-- R112: An upstream TCM without ACK by frame N + 8 is queued again, or dropped after the last attempt. -/
  | tcmResend (c : Chan)
  /-- R131: BGATE asserted outside every permitted window forces it low, sets the guard latch and raises a critical alarm. -/
  | guardTrip (c : Chan) (t : Nat)
  /-- R431: DOZE_LEAD before an awake multiframe, the downstream domain is woken in the committed class. -/
  | dozeWake (c : Chan)
  /-- R430: After IDLE_TIME of idleness with AUTO set, the channel queues SLEEP.REQ. -/
  | dozeIdle (c : Chan)
  /-- R160: Engine 8c + 7 predicts the grants of frame N and may request a wake, prefetch and reserve. -/
  | runAheadPrediction (c : Chan) (p : Prediction)
  /-- R156: The plan for a window starts once the map is handed off and the previous window's plan is complete. -/
  | planStart (c : Chan) (w : Fin 8)
  /-- R156: An engine delivers its plan for a burst to the executor. -/
  | enginePlanComplete (c : Chan) (w : Fin 8)
  /-- R166: 5.0 µs before each burst the executor requests the upstream domain in the committed class. -/
  | committedWakeRequest (c : Chan) (b : Nat)
  /-- R157: At 2.0 µs before a burst the executor commits the engine plan or asks the fallback planner. -/
  | planDeadline (c : Chan) (b : Nat)
  /-- R157: The fallback planner delivers its plan within 1.0 µs, and that is the commit instant. -/
  | fallbackPlanDelivery (c : Chan) (b : Nat)
  /-- R139: 0.5 µs before the burst the executor takes the control-field TCM and writes DEP_TS and BCRC. -/
  | assemblyPoint (c : Chan) (b : Nat) (faults : List (Nat × Bool))
  /-- R166: At the end of a burst BGATE falls and the upstream domain powers down unless another wake is near. -/
  | burstEnd (c : Chan) (b : Nat)
  /-- R372: A frame received on a MAC is checked and passed to its classifier slice or handled as MAC control. -/
  | hostFrameReceived (m : Mac) (f : HostFrame)
  /-- R376: A class's received pause time runs out and its service resumes. -/
  | pauseTimeExpiry (m : Mac) (k : Fin 8)
  /-- R377: Every QUANTA × 256 bit times an asserted pause point is refreshed. -/
  | pauseRefresh (m : Mac) (k : Fin 8)
  /-- R182: An idle MAC takes the head frame of the highest eligible class for transmission. -/
  | egressFrameTake (m : Mac) (x : EgressTake)
  /-- R185: Every 6.4 ns every enabled shaper and policer bucket is refilled. -/
  | shaperTick
  /-- R200: At each sampling instant the queue's depth and sojourn update its record and ring. -/
  | queueSample (q : QueueId)
  /-- R243: The oldest held segment reaching REORDER_TO moves NEXT to the lowest held sequence. -/
  | reorderTimeout (g : Fin 32)
  /-- R257: A page write completes and frees the page's tail cells. -/
  | pageWriteDone (q : QueueId) (linkErrs : Fin 9)
  /-- R258: When room allows, the next spilled page of a queue is read. -/
  | pageReadIssue (q : QueueId)
  /-- R258: A page lands in staging, and the tail joins the head when the spill becomes empty. -/
  | pageReadDone (q : QueueId) (linkErrs : Fin 9) (damage : Option Nat)
  /-- R267: A failed link retraining marks the stack failed and its pages lost. -/
  | stackFailed (st : Fin 4)
  /-- R268: A stack with no pages and no request for 50 µs enters self-refresh. -/
  | stackSelfRefresh (st : Fin 4)
  /-- R276: A refused spill-port request is retried after its back-off. -/
  | spillPortRetry (port : Fin 8) (refused : Bool)
  /-- R265: Every allocated page is read and rewritten periodically. -/
  | patrolScrub (st : Fin 4) (x : PatrolPass)
  /-- R292: A broadcast fragment collection incomplete after 64 frames is discarded. -/
  | fragCollectionExpiry (c : Chan)
  /-- R309: An erasure source zeroes every volatile key within 1 µs, sets the erasure latch and takes a SECURITY reset. -/
  | erasureAlarm (src : Fin 5)
  /-- R304: A write of CLAIM with a user number claims the key-wrap lock. -/
  | kweClaim (u : Fin 10) (v : Byte)
  /-- R304: A write of 0xFE to CLAIM by the owner releases the lock. -/
  | kweRelease (u : Fin 10)
  /-- R305: 100 ms of owner inactivity cuts the key-wrap lock. -/
  | kweLockCut
  /-- R306: KWE_OP 1 sets the working key. -/
  | kweLoadk (u : Fin 10)
  /-- R306: KWE_OP 2 wraps the input by KW under the working key. -/
  | kweWrap (u : Fin 10)
  /-- R306: KWE_OP 3 unwraps the input by KW under the working key. -/
  | kweUnwrap (u : Fin 10)
  /-- R306: KWE_OP 4 wraps the input by KWP. -/
  | kweWrapp (u : Fin 10)
  /-- R306: KWE_OP 5 unwraps the input by KWP. -/
  | kweUnwrapp (u : Fin 10)
  /-- R306: KWE_OP 6 seals a secret under the partition's sealing key. -/
  | kweSeal (u : Fin 10)
  /-- R306: KWE_OP 7 loads the partition's provisioning secret from a sealed blob. -/
  | kweLoadPs (u : Fin 10)
  /-- R306: KWE_OP 8 loads KEK_c from a blob wrapped under PS. -/
  | kweLoadKek (u : Fin 10) (handle : BitVec 12)
  /-- R306: KWE_OP 9 zeroes the working key and buffers. -/
  | kweClear (u : Fin 10)
  /-- R306: KWE_OP 10 wraps a line key for the firmware. -/
  | kweLineWrap (u : Fin 10) (c : Chan) (kdir : Byte) (slot : Byte)
  /-- R306: KWE_OP 11 unwraps a broadcast key for the firmware. -/
  | kweBcastUnwrap (u : Fin 10) (c : Chan) (bwk : Bool)
  /-- R307: A key-wrap operation ends, sets DONE and raises the vector. -/
  | kweOpDone
  /-- R323: No current announce for ANN_TIMEOUT makes the domain lose its source. -/
  | annTimeout (d : DomId)
  /-- R324: The preferred domain holding the top rank for REVERT becomes active. -/
  | revertExpiry
  /-- R329: PPS_OUT's leading edge falls at each whole presented second. -/
  | ppsEdge
  /-- R331: 1 ms after each PPS edge the time-of-day message is sent. -/
  | todMessage
  /-- R333: A trigger pin pulses at each instant of its schedule. -/
  | triggerPulse (t : Fin 8)
  /-- R335: A selected capture-pin edge is timestamped and posted as a capture record. -/
  | captureEdge (pin : Fin 4) (rising : Bool) (off : Nat)
  /-- R339: A PTP source instance sends Sync at its interval. -/
  | ptpSyncSend (i : Fin 64)
  /-- R339: A PTP source instance sends Announce at its interval. -/
  | ptpAnnounceSend (i : Fin 64)
  /-- R342: At the switch instant a pending gate list replaces the running one. -/
  | gateSwitch (m : Mac)
  /-- R360: After a multiframe, every part of each downstream stream is enqueued on its egress queue. -/
  | tribPartsEnqueue (c : Chan)
  /-- R361: An upstream tributary frame is checked and its slots stored for its multiframe. -/
  | tributaryFrameRx (m : Mac) (f : TribFrame)
  /-- R363: Every 125 µs an ODC port frame begins, exchanging downstream and upstream ODC bytes. -/
  | odcPortFrame (k : Fin 8) (di : List Byte)
  /-- R379: After 100 µs of quiet notice the group's links go down and its domain is released. -/
  | quietNoticeEnd (p : PortId)
  /-- R380: The detector on HRXpp_0 sees the wake pattern and wakes the group. -/
  | wakeDetected (p : PortId)
  /-- R371: A MAC's link goes up or down and HPORT_LINK is posted. -/
  | linkChange (m : Mac) (up : Bool)
  /-- R388: 256 consecutive valid headers declare block lock and fix receive polarity. -/
  | blockLock (l : LaneId) (inverted : Bool)
  /-- R389: 32 invalid headers in 1,024 blocks, or a detector, ends block lock. -/
  | blockLockLoss (l : LaneId)
  /-- R391: A completed lane marker is tested good or failed. -/
  | laneMarker (l : LaneId) (raw : BitVec 64) (arrival : Nat)
  /-- R399: The loss-of-signal detector changes state after its debounce. -/
  | losDetect (l : LaneId) (on : Bool)
  /-- R399: The loss-of-lock detector changes state after its debounce. -/
  | lolDetect (l : LaneId) (on : Bool)
  /-- R399: FELOScc changes state after FELOS_DEB, sending the receiver to HUNT or allowing hunting. -/
  | felosDetect (c : Chan) (on : Bool)
  /-- R401: 64 error-free symbols declare pattern lock. -/
  | prbsLock (l : LaneId)
  /-- R401: 256 errors in 4,096 symbols lose pattern lock. -/
  | prbsLockLoss (l : LaneId)
  /-- R404: An eye scan finishes and posts LANE_EYE. -/
  | eyeScanDone (l : LaneId) (counts : List Nat)
  /-- R396: The firmware reads the front-end lane-status register and posts LANE_TX_MISMATCH. -/
  | feLanePoll (c : Chan) (code : Byte) (mismatch : Bool) (txFault : Byte)
  /-- R584: SCL held low over 25 ms makes the firmware release the front-end bus. -/
  | feBusStretchTimeout (k : Fin 8)
  /-- R413: Bracken grants a waiting wake once it fits the ledgers and budgets. -/
  | brackenGrant (d : DomainId)
  /-- R414: A domain's ramp ends, and it reports ready once its PLLs lock. -/
  | rampEnd (d : DomainId)
  /-- R417: A service request waiting 1 ms blocks later grants and posts PWR_DEFER. -/
  | serviceWaitLimit (d : DomainId)
  /-- R422: Measured power over budget by 5 % for 1 ms triggers load shedding and PWR_OVER. -/
  | powerOverBudget (measured : Nat)
  /-- R434: Every 10 µs rail energy is divided among the domain counters. -/
  | energyIntegration (nj : List Nat)
  /-- R423: INS_N low for 50 ms seats the card and lets Bracken bring up Gorse. -/
  | cardSeated
  /-- R426: INS_N rising while seated queues ALARM.RPT 0x0006 and starts emergency staging. -/
  | cardWithdrawal
  /-- R409: A rail losing power good starts emergency shutdown, or COLD reset for VAON. -/
  | railPowerGoodLoss (rail : Fin 8)
  /-- R408: A rail becomes good, allowing grants and releasing rail-loss reset. -/
  | railPowerGood (rail : Fin 8)
  /-- R427: Rail current above maximum for 10 µs starts emergency shutdown. -/
  | railOvercurrent (rail : Fin 8)
  /-- R491: A trip comparator at 115 °C starts emergency shutdown and the thermal reset. -/
  | thermalTrip (sensor : Fin 48)
  /-- R427: Each step of the emergency shutdown releases its group of domains at least 0.5 µs after the last. -/
  | emergencyStep
  /-- R442: Tj below 100 °C releases the thermal source when the policy allows. -/
  | thermalRestart
  /-- R492: Every 1 ms thermal sensors are sampled and warning alarms raised. -/
  | sensorSample (temps : List Int)
  /-- R492: A temperature warning clears after 1 s at least 3 °C below threshold. -/
  | tempAlarmClear (major : Bool)
  /-- R493: Every 10 µs rail voltage and current are sampled and rail alarms raised. -/
  | railSample (vs : List RailReading)
  /-- R493: A rail alarm clears after its condition is absent for 100 ms. -/
  | railAlarmClear (rail : Fin 8) (current : Bool)
  /-- R436: VAON or VIO below power good, or XAON stopped, asserts the COLD source. -/
  | powerOn
  /-- R449: An accepted low on RESET_N asserts the WARM source. -/
  | resetNLow
  /-- R449: An accepted high on RESET_N after blanking releases the WARM source. -/
  | resetNHigh
  /-- R450: RESET_N low for 100 ms asserts the COLD source. -/
  | resetNHeld
  /-- R451: The device stops driving RESET_N and starts 50 µs of blanking. -/
  | resetNDriveEnd
  /-- R451: At the end of blanking a low pin is taken as an external assertion. -/
  | blankingEnd (low : Bool)
  /-- R503: Watchdog expiry asserts the MGMT source. -/
  | watchdogExpiry
  /-- R444: A domain's stretch ends and it leaves reset in the order of Table 14.3. -/
  | stretchEnd (d : DomainId) (straps : StrapSample)
  /-- R473: Verification of a boot candidate ends, booting it or trying the next. -/
  | candidateVerified (readOk : Bool) (img : PkgImage)
  /-- R476: The management firmware sets READY and serves the rings. -/
  | ready
  /-- R486: New firmware not READY within 300 ms is rolled back and FW_ACTIVATE_FAILED posted. -/
  | mgmtRestartTimeout
  /-- R487: An activated engine cluster reports ready and resumes planning. -/
  | clusterReady (k : Fin 16) (ok : Bool)
  /-- R478: A failed entropy health test stops the DRBG and raises a major alarm. -/
  | drbgHealthFailure (test : Byte)
  /-- R478: 1,024 passing samples restart the DRBG with a fresh instantiation. -/
  | drbgRestart
  /-- R477: The DRBG reseeds after 2^20 requests or each second. -/
  | drbgReseed
  /-- R500: A major or critical record is copied to the flash log. -/
  | flashLogWrite (ok : Bool)
  /-- R530: An operation that returned PENDING_ASYNC ends and posts its result event. -/
  | asyncOperationDone (op : BitVec 16) (status : BitVec 16) (reason : Byte) (img : PkgImage)
  /-- R519: A doorbell write posts commands, which are fetched and processed in SEQ order. -/
  | mbxDoorbell (k : EpId) (value : BitVec 32) (cmds : List RawCmd)
  /-- R516: Writing RUN = 1 starts the rings, resets indices and releases held completions. -/
  | ringRun (k : EpId)
  /-- R522: Writing RUN = 0 stops fetching and holds the pending commands. -/
  | ringStop (k : EpId)
  /-- R511: FLR of an endpoint stops its rings, orphans commands and resets its registers. -/
  | functionLevelReset (k : EpId)
  /-- R511: Loss of an endpoint's link acts as a function-level reset. -/
  | pcieLinkDown (k : EpId)
  /-- R514: HOLD µs after the first unsignalled record the ring's vector is raised. -/
  | moderationHoldExpiry (k : EpId) (evt : Bool)
  /-- R536: Mailbox PUSH.BEGIN starts a pushed package. -/
  | mbxPushBegin (k : EpId) (req : List Byte)
  /-- R536: Mailbox PUSH.DATA writes package bytes. -/
  | mbxPushData (k : EpId) (req : List Byte)
  /-- R536: Mailbox PUSH.END verifies and boots the pushed package. -/
  | mbxPushEnd (k : EpId) (req : List Byte) (sigOk : Bool)
  /-- R536: Mailbox FLOG.GET returns one flash log record. -/
  | mbxFlogGet (k : EpId) (req : List Byte)
  /-- R536: Mailbox BOOTREC.GET returns the boot record. -/
  | mbxBootrecGet (k : EpId)
  /-- R537: Mailbox CMD runs one command outside the ring. -/
  | mbxCmd (k : EpId) (cmd : RawCmd)
  /-- R425: Writing 0xA5 to SB_RELEASE requests power release from the sideband. -/
  | sbRelease
  /-- R504: Writing 0x5E to SB_RESET requests a WARM reset. -/
  | sbResetWarm
  /-- R504: Writing 0xC0 to SB_RESET requests a COLD reset. -/
  | sbResetCold
  /-- R506: Window PUSH.BEGIN starts a sideband package push. -/
  | sbPushBegin (req : List Byte)
  /-- R506: Window PUSH.DATA writes package bytes. -/
  | sbPushData (req : List Byte)
  /-- R506: Window PUSH.END verifies and boots the pushed package. -/
  | sbPushEnd (req : List Byte) (sigOk : Bool)
  /-- R505: Window FLOG.GET returns one flash log record. -/
  | sbFlogGet (req : List Byte)
  /-- R505: Window BOOTREC.GET returns the boot record. -/
  | sbBootrecGet
  /-- R505: Window ALARM.GET returns one open-list entry. -/
  | sbAlarmGet (req : List Byte)
  /-- R13: A write to a register without behaviour of its own acts under its access code. -/
  | registerWrite (sp : RegSpace) (off : Nat) (v : BitVec 32)
  /-- R532: RESYNC abandons unstarted commands, sets the new epoch and returns SUMMARY. -/
  | resync (hd : CmdHdr) (p : List Byte)
  /-- R533: Returns the SUMMARY record. -/
  | summaryGet (hd : CmdHdr) (p : List Byte)
  /-- R547: Returns device identity, straps and reset cause. -/
  | devInfo (hd : CmdHdr) (p : List Byte)
  /-- R548: Completes, then asserts a WARM or COLD source. -/
  | devReset (hd : CmdHdr) (p : List Byte)
  /-- R466: Clears SEEN bits of RST_CAUSE. -/
  | devCauseClear (hd : CmdHdr) (p : List Byte)
  /-- R442: Sets THERM_RESTART. -/
  | rstPolicySet (hd : CmdHdr) (p : List Byte)
  /-- R45: Moves a resource to another partition at one instant. -/
  | partAssign (hd : CmdHdr) (p : List Byte)
  /-- R507: Sets a partition's quotas. -/
  | partQuotaSet (hd : CmdHdr) (p : List Byte)
  /-- R441: Resets a partition after abandoning its unstarted commands. -/
  | partReset (hd : CmdHdr) (p : List Byte)
  /-- R549: Returns a partition's ownership and quotas. -/
  | partGet (hd : CmdHdr) (p : List Byte)
  /-- R90: Opens a channel with its delays and timers and reserves its power. -/
  | chanOpen (hd : CmdHdr) (p : List Byte)
  /-- R90: Closes a channel after any burst under way. -/
  | chanClose (hd : CmdHdr) (p : List Byte)
  /-- R120: Sets front-end delays, BGATE offsets and FELOS debounce. -/
  | chanFeSet (hd : CmdHdr) (p : List Byte)
  /-- R551: Sets timers, announce enable and HOL_WINDOW. -/
  | chanTimerSet (hd : CmdHdr) (p : List Byte)
  /-- R89: Returns and may clear channel counters. -/
  | chanStatsGet (hd : CmdHdr) (p : List Byte)
  /-- R132: Clears an armed guard latch. -/
  | chanGuardClear (hd : CmdHdr) (p : List Byte)
  /-- R123: Wakes a dozing channel. -/
  | chanWake (hd : CmdHdr) (p : List Byte)
  /-- R160: Enables or disables run-ahead. -/
  | chanPlanSet (hd : CmdHdr) (p : List Byte)
  /-- R430: Sets doze parameters. -/
  | chanDozeSet (hd : CmdHdr) (p : List Byte)
  /-- R439: Asserts, holds or releases a CHANNEL reset. -/
  | chanReset (hd : CmdHdr) (p : List Byte)
  /-- R106: Enables flow contexts of a channel. -/
  | flowCtxSet (hd : CmdHdr) (p : List Byte)
  /-- R396: Configures the front-end lane-status poll. -/
  | feMgmtSet (hd : CmdHdr) (p : List Byte)
  /-- R172: Configures an upstream queue. -/
  | queueSet (hd : CmdHdr) (p : List Byte)
  /-- R188: Configures a queue shaper. -/
  | queueShaperSet (hd : CmdHdr) (p : List Byte)
  /-- R196: Sets drop parameters. -/
  | queueDropSet (hd : CmdHdr) (p : List Byte)
  /-- R200: Sets latency sampling. -/
  | queueSampleSet (hd : CmdHdr) (p : List Byte)
  /-- R253: Sets spill parameters. -/
  | queueSpillSet (hd : CmdHdr) (p : List Byte)
  /-- R377: Sets a queue's pause point. -/
  | queueFcSet (hd : CmdHdr) (p : List Byte)
  /-- R204: Drops every unclaimed frame of a queue. -/
  | queueFlush (hd : CmdHdr) (p : List Byte)
  /-- R552: Returns queue configurations. -/
  | queueGet (hd : CmdHdr) (p : List Byte)
  /-- R205: Returns and may clear queue counters. -/
  | queueStatsGet (hd : CmdHdr) (p : List Byte)
  /-- R202: Returns and may clear the latency record. -/
  | queueLatGet (hd : CmdHdr) (p : List Byte)
  /-- R176: Sets an allocation's service mode. -/
  | allocSet (hd : CmdHdr) (p : List Byte)
  /-- R188: Configures an allocation shaper. -/
  | allocShaperSet (hd : CmdHdr) (p : List Byte)
  /-- R534: Returns an allocation's configuration. -/
  | allocGet (hd : CmdHdr) (p : List Byte)
  /-- R188: Configures a channel peak shaper. -/
  | chanPeakSet (hd : CmdHdr) (p : List Byte)
  /-- R194: Configures a policer. -/
  | policerSet (hd : CmdHdr) (p : List Byte)
  /-- R205: Returns policer counters. -/
  | policerStatsGet (hd : CmdHdr) (p : List Byte)
  /-- R203: Configures or stops the sample ring. -/
  | sampleRingSet (hd : CmdHdr) (p : List Byte)
  /-- R227: Stages a new rule. -/
  | ruleAdd (hd : CmdHdr) (p : List Byte)
  /-- R227: Stages a rule change. -/
  | ruleMod (hd : CmdHdr) (p : List Byte)
  /-- R227: Stages a rule deletion. -/
  | ruleDel (hd : CmdHdr) (p : List Byte)
  /-- R553: Returns a rule entry. -/
  | ruleGet (hd : CmdHdr) (p : List Byte)
  /-- R228: Makes staging the current rule version. -/
  | ruleCommit (hd : CmdHdr) (p : List Byte)
  /-- R230: A draining version with no packets left is freed and RULE_DRAINED posted. -/
  | versionDrained (k : EpId)
  /-- R226: Discards staged edits. -/
  | ruleAbort (hd : CmdHdr) (p : List Byte)
  /-- R213: Stages a key profile. -/
  | clProfileSet (hd : CmdHdr) (p : List Byte)
  /-- R214: Stages a source configuration. -/
  | clSourceSet (hd : CmdHdr) (p : List Byte)
  /-- R221: Returns and may clear a rule counter. -/
  | counterGet (hd : CmdHdr) (p : List Byte)
  /-- R248: Returns slice counters. -/
  | clStatsGet (hd : CmdHdr) (p : List Byte)
  /-- R236: Configures or deletes a bond group. -/
  | bondSet (hd : CmdHdr) (p : List Byte)
  /-- R246: Writes a bond indirection table. -/
  | bondTableSet (hd : CmdHdr) (p : List Byte)
  /-- R248: Returns bond counters. -/
  | bondStatsGet (hd : CmdHdr) (p : List Byte)
  /-- R247: Configures a LAG group. -/
  | lagSet (hd : CmdHdr) (p : List Byte)
  /-- R247: Writes a LAG indirection table. -/
  | lagTableSet (hd : CmdHdr) (p : List Byte)
  /-- R555: Enables or disables line encryption. -/
  | keyChanSet (hd : CmdHdr) (p : List Byte)
  /-- R287: Returns key register states. -/
  | keyStateGet (hd : CmdHdr) (p : List Byte)
  /-- R320: Binds a time domain to a channel. -/
  | timeDomainBind (hd : CmdHdr) (p : List Byte)
  /-- R321: Sets servo parameters. -/
  | timeDomainSet (hd : CmdHdr) (p : List Byte)
  /-- R324: Sets the domain selection. -/
  | timeSelectSet (hd : CmdHdr) (p : List Byte)
  /-- R326: Slews or steps a held OFS. -/
  | timeResolve (hd : CmdHdr) (p : List Byte)
  /-- R327: Writes presented time. -/
  | timeSet (hd : CmdHdr) (p : List Byte)
  /-- R327: Returns the time state. -/
  | timeGet (hd : CmdHdr) (p : List Byte)
  /-- R344: Returns time counters. -/
  | timeStatsGet (hd : CmdHdr) (p : List Byte)
  /-- R329: Configures PPS_OUT. -/
  | ppsSet (hd : CmdHdr) (p : List Byte)
  /-- R331: Configures TOD_OUT. -/
  | todSet (hd : CmdHdr) (p : List Byte)
  /-- R332: Configures a trigger pin. -/
  | trigSet (hd : CmdHdr) (p : List Byte)
  /-- R335: Configures a capture pin. -/
  | captSet (hd : CmdHdr) (p : List Byte)
  /-- R336: Sets a MAC's timestamp mode. -/
  | ptpPortSet (hd : CmdHdr) (p : List Byte)
  /-- R339: Configures a PTP source instance. -/
  | ptpSourceSet (hd : CmdHdr) (p : List Byte)
  /-- R337: Configures the timestamp ring. -/
  | tsRingSet (hd : CmdHdr) (p : List Byte)
  /-- R342: Installs a gate list for the next switch instant. -/
  | gateSet (hd : CmdHdr) (p : List Byte)
  /-- R342: Returns running and pending gate lists. -/
  | gateGet (hd : CmdHdr) (p : List Byte)
  /-- R347: Binds a tributary allocation. -/
  | tribAllocSet (hd : CmdHdr) (p : List Byte)
  /-- R350: Configures a tributary stream. -/
  | tribStreamSet (hd : CmdHdr) (p : List Byte)
  /-- R352: Writes connection entries. -/
  | tribConnSet (hd : CmdHdr) (p : List Byte)
  /-- R351: Reads connection entries. -/
  | tribConnGet (hd : CmdHdr) (p : List Byte)
  /-- R356: Arms a channel for a page switch. -/
  | tribPageArm (hd : CmdHdr) (p : List Byte)
  /-- R356: Disarms a channel. -/
  | tribPageDisarm (hd : CmdHdr) (p : List Byte)
  /-- R366: Returns tributary counters. -/
  | tribStatsGet (hd : CmdHdr) (p : List Byte)
  /-- R362: Enables an ODC port. -/
  | odcPortSet (hd : CmdHdr) (p : List Byte)
  /-- R366: Returns ODC counters. -/
  | odcStatsGet (hd : CmdHdr) (p : List Byte)
  /-- R369: Sets a port group mode. -/
  | hportModeSet (hd : CmdHdr) (p : List Byte)
  /-- R370: Configures a MAC. -/
  | hportSet (hd : CmdHdr) (p : List Byte)
  /-- R381: Sets AUTO_WAKE and WAKE_LEN. -/
  | hportSleepSet (hd : CmdHdr) (p : List Byte)
  /-- R379: Puts a port group to sleep. -/
  | hportSleep (hd : CmdHdr) (p : List Byte)
  /-- R381: Wakes a port group. -/
  | hportWake (hd : CmdHdr) (p : List Byte)
  /-- R558: Returns port group status. -/
  | hportStatusGet (hd : CmdHdr) (p : List Byte)
  /-- R378: Returns and clears MAC counters. -/
  | hportStatsGet (hd : CmdHdr) (p : List Byte)
  /-- R392: Returns lane status. -/
  | laneStatusGet (hd : CmdHdr) (p : List Byte)
  /-- R395: Sets transmit taps, map and TX_LEAD. -/
  | laneTxSet (hd : CmdHdr) (p : List Byte)
  /-- R399: Sets receive adaptation and LOS_DEB. -/
  | laneRxSet (hd : CmdHdr) (p : List Byte)
  /-- R400: Sets a lane test mode. -/
  | laneTestSet (hd : CmdHdr) (p : List Byte)
  /-- R402: Injects errors into a PRBS generator. -/
  | laneInject (hd : CmdHdr) (p : List Byte)
  /-- R404: Starts an eye scan. -/
  | laneEyeGet (hd : CmdHdr) (p : List Byte)
  /-- R405: Returns lane counters. -/
  | laneStatsGet (hd : CmdHdr) (p : List Byte)
  /-- R412: Sets rail, power and slew budgets. -/
  | pwrBudgetSet (hd : CmdHdr) (p : List Byte)
  /-- R425: Ends insertion mode. -/
  | pwrRelease (hd : CmdHdr) (p : List Byte)
  /-- R435: Returns energy counters. -/
  | pwrEnergyGet (hd : CmdHdr) (p : List Byte)
  /-- R435: Returns domain power states. -/
  | pwrStateGet (hd : CmdHdr) (p : List Byte)
  /-- R440: Asserts, holds or releases a DOMAIN reset. -/
  | domainReset (hd : CmdHdr) (p : List Byte)
  /-- R274: Writes shadow base priorities. -/
  | arbPrioSet (hd : CmdHdr) (p : List Byte)
  /-- R275: Copies shadow bases into the active set. -/
  | arbCommit (hd : CmdHdr) (p : List Byte)
  /-- R274: Returns shadow and active bases. -/
  | arbGet (hd : CmdHdr) (p : List Byte)
  /-- R251: Opens and closes buffer banks. -/
  | memBankSet (hd : CmdHdr) (p : List Byte)
  /-- R278: Returns memory counters. -/
  | memStatsGet (hd : CmdHdr) (p : List Byte)
  /-- R494: Returns sensor readings. -/
  | sensorGet (hd : CmdHdr) (p : List Byte)
  /-- R492: Sets temperature warning thresholds. -/
  | alarmThreshSet (hd : CmdHdr) (p : List Byte)
  /-- R496: Acknowledges a cleared critical alarm. -/
  | alarmAck (hd : CmdHdr) (p : List Byte)
  /-- R499: Returns on-chip log records. -/
  | logRead (hd : CmdHdr) (p : List Byte)
  /-- R500: Returns flash log records. -/
  | flogRead (hd : CmdHdr) (p : List Byte)
  /-- R503: Sets the watchdog timeout. -/
  | wdogSet (hd : CmdHdr) (p : List Byte)
  /-- R483: Writes a firmware chunk to the target slot. -/
  | fwStage (hd : CmdHdr) (p : List Byte)
  /-- R484: Verifies the target slot. -/
  | fwVerify (hd : CmdHdr) (p : List Byte)
  /-- R485: Activates the selected components. -/
  | fwActivate (hd : CmdHdr) (p : List Byte)
  /-- R563: Returns firmware status. -/
  | fwStatusGet (hd : CmdHdr) (p : List Byte)
  /-- R475: Burns the anti-rollback counter. -/
  | fuseSvnAdvance (hd : CmdHdr) (p : List Byte)
  /-- R461: Burns fuse pin map entries. -/
  | fusePinmapBurn (hd : CmdHdr) (p : List Byte)
  /-- R481: Starts a signed quote. -/
  | attestQuote (hd : CmdHdr) (p : List Byte)
  /-- R479: Returns the certificate chain. -/
  | attestCertGet (hd : CmdHdr) (p : List Byte)
  /-- R436: XAON resumes its edges while VAON and VIO are good, releasing the power-on source and starting the COLD stretch. -/
  | xaonRunning
  /-- R35: A control endpoint's PCI Express link trains, after which its configuration and BAR0 answer and events can be posted to its rings again. -/
  | pcieLinkUp (k : EpId)
  /-- R265: A spill-store controller completes a successful link retraining and its stack accepts requests again. -/
  | stackLinkRetrained (st : Fin 4)
  /-- R548: 100 µs to 1 ms after the DEV.RESET completion is published, the WARM or COLD source asserts. -/
  | devResetSourceAssert
  /-- R381: After WAKE_LEN of wake pattern, each enabled MAC of a waking group starts its PCS to bring its link up. -/
  | wakePatternEnd (p : PortId)
  /-- R341: A gate-list entry begins at its instant in presented time, opening and closing egress classes by its MASK. -/
  | gateEntryStart (m : Mac)
  /-- R162: An engine cluster faults and the plan deadlines of its channels take the fallback planner. -/
  | engineClusterFault (k : Fin 16)
  /-- R269: Background scrub visits each word of every powered on-chip memory, correcting single-bit errors and raising a major alarm on an uncorrectable one. -/
  | backgroundScrub (e : ScrubFinding)
  deriving DecidableEq, Repr

end Sys2Proof
end

