-- ==== Sys2Proof/Decode.lean ====
section
/-! DEFINITION. The words that spell a command by the bits of spec/opcode_table.json. The block fetches no instruction and no
row of the table gives bits, so no word spells one. -/

namespace Sys2Proof

/-- The command a word of `nbits` bits spells: none, since no row of the table has bits. -/
def decodeTableWord (_nbits _w : Nat) : Option Instr := none

end Sys2Proof
end

