-- ==== Sys2Proof/Config.lean ====
section
/-! DEFINITION. What a part or an implementation fixes and the values the spec leaves open. Every `opaque` constant has no
body: no proof can evaluate it, so a statement that holds of the model holds for every value of it. -/

namespace Sys2Proof.Config

/-! ### Fixed in each part at manufacture (R591) -/

/-- SERIAL as a number, byte 0 most significant (R591, R8). -/
opaque serial : BitVec 64
/-- The base MAC address, its first byte most significant (R591). -/
opaque baseMac : BitVec 48
/-- The VCORE set point n, 0.68 V + n × 5 mV (R407). -/
opaque vcoreN : BitVec 8
/-- True for the LMD-6480-48 (R2). -/
opaque variant48 : Bool
/-- Silicon revision: B0 is 1 (R1, Table 16.5). -/
def siRev : Nat := 1
/-- SHA-256 of the Gorse ROM (Table 15.7). -/
opaque romDigest : BitVec 256
/-- The fused package key hash (Table 15.6). -/
opaque keyHash : BitVec 256
/-- The derived root key DRK (Table 8.3). -/
opaque drk : BitVec 256
/-- The bytes of the identity store's certificates (R479). -/
opaque devCertStore : List Byte
opaque caCertStore : List Byte
/-- The device certificate (R479). DEDUCED: both certificates fit one reply of ATTEST.CERT.GET, at most 65,536 bytes (Table 17.9). -/
def devCert : List Byte := devCertStore.take 32766
/-- The manufacturing CA certificate (R479). -/
def caCert : List Byte := caCertStore.take 32766
/-- Whether a copy of the identity store unwraps (R480). -/
opaque identStoreGood : Bool

/-! ### Draws: free values, one fresh index per draw (R477, R198, R402) -/

/-- The n-th draw of the DRBG (R477). -/
opaque drbg : Nat → BitVec 256
/-- The n-th 16-bit draw of a slice's pseudo-random generator (R198). -/
opaque prng : Nat → BitVec 16

/-! ### What the spec leaves open in named standards -/

/-- The bytes of a field of the KDF's input, by its place and value: 0 the counter, 1 the context, 2 the output length. SP 800-108 and R300
leave their coding open. -/
opaque kdfField : Nat → Nat → List Byte
/-- SHA-256 of an image whose arrangement the spec leaves open, of what the spec puts into it: 0 the fuse cache, 1 the partition's
configuration (Table 15.7). -/
opaque digestOf : Nat → List Byte → BitVec 256
/-- The SLH-DSA-SHA2-128f signature with the device identity key (R481). -/
opaque identSign : List Byte → List Byte

/-! ### Methods and measurements the spec leaves to firmware or analog hardware -/

/-- The natural frequency, in units of 2^-32 rad/s, of the servo loop whose bandwidth is BW mHz (R321 does not say at which level of
its response the bandwidth is measured). -/
opaque servoOmega : Nat → Nat
/-- The activity-weighted estimate of a domain on a rail (R434): interval, rail, domain. -/
opaque energyWeight : Nat → Nat → Nat → Nat
/-- The estimated share of one rail's energy interval given to the base allowance (R434). -/
opaque baseWeight : Nat → Nat → Nat
/-- Above 90 % occupation: whether the hashed table places a new entry (R216): slice, entries held, draw index. -/
opaque exactPlaces : Nat → Nat → Nat → Bool
/-- Which of two bytes with the same syndromes the RS(272,256) decoder corrects: the received word and the lower power (Table 2.6, whose
272 symbols are more than the 255 powers of α). -/
opaque rsHigh : List Byte → Nat → Bool
/-- Value of a field the spec leaves open, by the place it stands in and the state's draw index. -/
opaque open64 : Nat → Nat → BitVec 64

end Sys2Proof.Config
end

