-- ==== Sys2Proof/Machine/Bits.lean ====
section
/-! DEFINITION. Bit-field, byte-order and check-value helpers: PTC line order (R4, R5), little-endian host order (R6), the
checks of Table 2.4, the scrambler of R53 and R54, the preamble generators of Table 4.2 and the delimiter of Table 4.3. -/

namespace Sys2Proof.Machine

/-- The n bytes of a value, least significant first (R6). -/
def leBytes : Nat → Nat → List Byte
  | 0, _ => []
  | n + 1, v => BitVec.ofNat 8 v :: leBytes n (v / 256)

/-- The n bytes of a value, most significant first (R4). -/
def beBytes (n v : Nat) : List Byte := (leBytes n v).reverse

/-- The value of a byte string read most significant byte first (R4). -/
def beVal (bs : List Byte) : Nat := bs.foldl (fun a b => a * 256 + b.toNat) 0

/-- The value of a byte string read least significant byte first (R6). -/
def leVal : List Byte → Nat
  | [] => 0
  | b :: bs => b.toNat + 256 * leVal bs

/-- Bits of a byte, most significant first (R4). -/
def byteBits (b : Byte) : List Bool := (List.range 8).map fun i => b.getLsbD (7 - i)

/-- Bits of a byte string in transmission order (R4). -/
def bitsOf (bs : List Byte) : List Bool := bs.flatMap byteBits

/-- n bytes from an offset; bytes beyond the list read as zero. -/
def slice (bs : List Byte) (off n : Nat) : List Byte :=
  let x := (bs.drop off).take n
  x ++ List.replicate (n - x.length) 0

/-- n zero bytes. -/
def zeros (n : Nat) : List Byte := List.replicate n 0

/-- One bit of a check register of width w (Table 2.4): the bits enter in transmission order. -/
def crcBit (w : Nat) (poly : BitVec w) (r : BitVec w) (b : Bool) : BitVec w :=
  if (r.msb != b) then (r <<< 1) ^^^ poly else r <<< 1

/-- CRC-16 of Table 2.4. -/
def crc16 (bs : List Byte) : BitVec 16 := (bitsOf bs).foldl (crcBit 16 0x1021#16) 0xFFFF#16

/-- CRC-8 of Table 2.4. -/
def crc8 (bs : List Byte) : BitVec 8 := (bitsOf bs).foldl (crcBit 8 0x07#8) 0xFF#8

/-- CRC-32 of Table 2.4. -/
def crc32 (bs : List Byte) : BitVec 32 := (bitsOf bs).foldl (crcBit 32 0x04C11DB7#32) 0xFFFFFFFF#32 ^^^ 0xFFFFFFFF#32

/-- Seed of the frame scrambler (R54). -/
def scramblerSeed (sfc : BitVec 48) : BitVec 31 :=
  let s := (sfc.setWidth 31) ^^^ 0x5A5AA5A5#31
  if s = 0 then 0x7FFFFFFF#31 else s

/-- Seed of the burst scrambler (R147): upstream frame n and the word index w of burst-header word 0. -/
def burstSeed (n : BitVec 48) (w : Nat) : BitVec 31 :=
  let s := (n.setWidth 31) ^^^ 0x5A5AA5A5#31 ^^^ BitVec.ofNat 31 w
  if s = 0 then 0x7FFFFFFF#31 else s

/-- One step of the scrambler of R54: the keystream bit and the next state. -/
def scramblerStep (s : BitVec 31) : Bool × BitVec 31 :=
  let k := s.getLsbD 30 ^^ s.getLsbD 27
  (k, (s <<< 1) ||| (BitVec.ofBool k).setWidth 31)

/-- The scrambler applied to bits in transmission order (R54). -/
def scramble (s : BitVec 31) : List Bool → List Bool
  | [] => []
  | b :: bs => let (k, s') := scramblerStep s; (b ^^ k) :: scramble s' bs

/-- Product in GF(2^8) with the polynomial of Table 2.6. -/
def gfMul (a b : Byte) : Byte :=
  ((List.range 8).foldl (fun (acc : Byte × Byte) i =>
    let (r, x) := acc
    let r := if b.getLsbD i then r ^^^ x else r
    let x := if x.msb then (x <<< 1) ^^^ 0x1D#8 else x <<< 1
    (r, x)) (0#8, a)).1

/-- α^n in GF(2^8), α = 0x02 (Table 2.6). -/
def gfPow (n : Nat) : Byte := n.rec 1#8 fun _ p => gfMul p 0x02#8

/-- Coefficients of the generator of Table 2.6, highest degree first. -/
def rsGenerator : List Byte :=
  (List.range 16).foldl (fun g i =>
    let r := gfPow i
    (List.range (g.length + 1)).map fun j =>
      (g.getD j 0) ^^^ (if j = 0 then 0 else gfMul r (g.getD (j - 1) 0))) [1#8]

/-- The 16 parity bytes of the data of a (possibly shortened) codeword (Table 2.6, R146). -/
def rsParity (data : List Byte) : List Byte :=
  data.foldl (fun (reg : List Byte) d =>
    let f := d ^^^ reg.headD 0
    (List.range 16).map fun i => (reg.getD (i + 1) 0) ^^^ gfMul f (rsGenerator.getD (i + 1) 0))
    (List.replicate 16 0)

/-- n bits of a pseudo-random preamble (Table 4.2): register width w, tap positions counted from 1, all ones at first. -/
def prbsBits (w : Nat) (taps : List Nat) (n : Nat) : List Bool :=
  ((List.range n).foldl (fun (acc : List Bool × List Bool) _ =>
    let (reg, out) := acc
    let k := taps.foldl (fun x t => x ^^ reg.getD (t - 1) false) false
    ((k :: reg).take w, k :: out)) (List.replicate w true, [])).2.reverse

/-- The byte of a list of bits, most significant first. -/
def packBits : List Bool → List Byte
  | a :: b :: c :: d :: e :: f :: g :: h :: rest =>
    BitVec.ofNat 8 ([a, b, c, d, e, f, g, h].foldl (fun v x => 2 * v + x.toNat) 0) :: packBits rest
  | _ => []

/-- The preamble of PRE_LEN words for PRE_PAT (Table 4.2). -/
def preamble (pat : Nat) (words : Nat) : List Byte :=
  let n := 16 * words
  match pat with
  | 0 => List.replicate n 0xAA
  | 1 => List.replicate n 0xCC
  | 2 => List.replicate n 0xF0
  | 3 => (List.range n).map fun i => if i % 2 = 0 then 0xFF else 0x00
  | 4 => packBits (prbsBits 7 [7, 6] (8 * n))
  | 5 => packBits (prbsBits 9 [9, 5] (8 * n))
  | 6 => (List.range n).map fun i => if (i / 16) % 2 = 0 then 0xAA else 0x55
  | _ => packBits (prbsBits 13 [13, 12, 2, 1] (8 * n))

/-- The value D of a delimiter index (Table 4.3). -/
def delimValue : Nat → BitVec 64
  | 0 => 0xD2B74C19E60AF38D#64
  | 1 => 0x5C8E13F7A2496BD0#64
  | 2 => 0xE13A97C40DB56F28#64
  | _ => 0x3F6DC02B8A95E471#64

/-- The 64 bytes of the delimiter (R138): D, ~D, D, ~D, D, D, ~D, ~D. -/
def delimiter (i : Nat) : List Byte :=
  let d := delimValue i
  [d, ~~~d, d, ~~~d, d, d, ~~~d, ~~~d].flatMap fun x => beBytes 8 x.toNat

/-- A signed difference modulo 2^48 (R119). -/
def sfcDiff (a b : BitVec 48) : Int := (a - b).toInt

/-- Ceiling division. -/
def ceilDiv (a b : Nat) : Nat := (a + b - 1) / b

/-- Two's complement of n bytes read as a signed number. -/
def signedOf (n : Nat) (v : Nat) : Int := (BitVec.ofNat (8 * n) v).toInt

end Sys2Proof.Machine
end

