-- ==== Sys2Proof/Machine/Crypto.lean ====
section
/-! DEFINITION. The cryptographic standards that the spec names and does not restate (00_scope.md): AES-256 (FIPS 197), GCM (SP
800-38D, R280, R283), KW and KWP (SP 800-38F, R303), CMAC (SP 800-38B) in the counter-mode KDF of SP 800-108 (R300), and SHA-256
(FIPS 180-4). They are written from the standards (log 111). -/

namespace Sys2Proof.Machine

/-! ### AES-256 -/

/-- Multiplication by x in the field of AES. -/
def aesDouble (b : Byte) : Byte := (b <<< 1) ^^^ (if b.msb then 0x1B else 0)

/-- The product of two bytes in the field of AES. -/
def aesMul (a b : Byte) : Byte :=
  ((List.range 8).foldl (fun (acc : Byte × Byte) i =>
    (if b.getLsbD i then acc.1 ^^^ acc.2 else acc.1, aesDouble acc.2)) (0, a)).1

/-- The multiplicative inverse, 0 for 0: the power 254. -/
def aesInverse (a : Byte) : Byte :=
  ((List.range 7).foldl (fun (acc : Byte × Byte) _ => let q := aesMul acc.2 acc.2; (aesMul acc.1 q, q)) (1, a)).1

/-- SubBytes of one byte. -/
def subByte (b : Byte) : Byte :=
  let v := aesInverse b
  v ^^^ v.rotateLeft 1 ^^^ v.rotateLeft 2 ^^^ v.rotateLeft 3 ^^^ v.rotateLeft 4 ^^^ 0x63

/-- InvSubBytes of one byte. -/
def unsubByte (b : Byte) : Byte := aesInverse (b.rotateLeft 1 ^^^ b.rotateLeft 3 ^^^ b.rotateLeft 6 ^^^ 0x05)

/-- The key schedule: 60 words, as lists of four bytes. -/
def aesSchedule (key : BitVec 256) : List (List Byte) :=
  let k := beBytes 32 key.toNat
  let rcon := fun (n : Nat) => (List.range n).foldl (fun (b : Byte) _ => aesDouble b) 1
  (List.range 52).foldl (fun w j =>
    let last := w.getD (j + 7) []
    let t := if j % 8 = 0 then
        match (last.drop 1 ++ last.take 1).map subByte with
        | b :: l => (b ^^^ rcon (j / 8)) :: l
        | [] => []
      else if j % 8 = 4 then last.map subByte else last
    w ++ [(w.getD j []).zipWith (· ^^^ ·) t]) ((List.range 8).map fun i => Machine.slice k (4 * i) 4)

/-- Round key n of a schedule: 16 bytes. -/
def aesRound (w : List (List Byte)) (n : Nat) : List Byte := ((w.drop (4 * n)).take 4).flatten

/-- One column multiplied by the circulant of four coefficients. -/
def mixColumn (m : List Byte) (col : List Byte) : List Byte := (List.range 4).map fun r =>
  (List.range 4).foldl (fun x i => x ^^^ aesMul (m.getD ((i + 4 - r) % 4) 0) (col.getD i 0)) 0

/-- MixColumns with the coefficients of a row. -/
def mixColumns (m : List Byte) (st : List Byte) : List Byte :=
  (List.range 4).flatMap fun c => mixColumn m (Machine.slice st (4 * c) 4)

/-- The rows shifted, row r by `by_ r` columns. -/
def shiftRows (by_ : Nat → Nat) (st : List Byte) : List Byte :=
  (List.range 16).map fun i => st.getD (i % 4 + 4 * ((i / 4 + by_ (i % 4)) % 4)) 0

/-- AES-256 encryption of a block. -/
def aes256 (key : BitVec 256) (x : BitVec 128) : BitVec 128 :=
  let w := aesSchedule key
  let st := (List.range 14).foldl (fun st n =>
    let st := shiftRows id (st.map subByte)
    ((if n = 13 then st else mixColumns [2, 3, 1, 1] st).zipWith (· ^^^ ·) (aesRound w (n + 1))))
    ((beBytes 16 x.toNat).zipWith (· ^^^ ·) (aesRound w 0))
  BitVec.ofNat 128 (beVal st)

/-- AES-256 decryption of a block. -/
def aes256Inv (key : BitVec 256) (x : BitVec 128) : BitVec 128 :=
  let w := aesSchedule key
  let st := (List.range 14).foldl (fun st n =>
    let st := ((shiftRows (fun r => 4 - r) st).map unsubByte).zipWith (· ^^^ ·) (aesRound w (13 - n))
    if n = 13 then st else mixColumns [14, 11, 13, 9] st)
    ((beBytes 16 x.toNat).zipWith (· ^^^ ·) (aesRound w 14))
  BitVec.ofNat 128 (beVal st)

/-- A byte string padded with zeros to a multiple of n. -/
def padTo (n : Nat) (bs : List Byte) : List Byte := bs ++ zeros (n * ceilDiv bs.length n - bs.length)

/-! ### GCM (R280, R283) -/

/-- The product in the field of GHASH. -/
def ghashMul (x y : BitVec 128) : BitVec 128 :=
  ((List.range 128).foldl (fun (acc : BitVec 128 × BitVec 128) i =>
    (if x.getMsbD i then acc.1 ^^^ acc.2 else acc.1,
      (acc.2 >>> 1) ^^^ (if acc.2.getLsbD 0 then 0xE1#128 <<< 120 else 0))) (0, y)).1

/-- The blocks of a byte string whose length is a multiple of 16. -/
def blocks16 (bs : List Byte) : List (BitVec 128) :=
  (List.range (bs.length / 16)).map fun i => BitVec.ofNat 128 (beVal (Machine.slice bs (16 * i) 16))

/-- The pre-counter block of a 96-bit IV: J0 = IV ‖ 0x0000_0001 (R283). -/
def gcmJ0 (iv : BitVec 96) : BitVec 128 := iv ++ 1#32

/-- Counter mode from the block after J0. -/
def gcmCtr (key : BitVec 256) (iv : BitVec 96) (x : List Byte) : List Byte :=
  let stream := (List.range (ceilDiv x.length 16)).flatMap fun i => beBytes 16 (aes256 key (iv ++ BitVec.ofNat 32 (i + 2))).toNat
  x.zipWith (· ^^^ ·) stream

/-- The authentication tag's leftmost 64 bits over additional data and ciphertext: 8 bytes (R280). -/
def gcmTag (key : BitVec 256) (iv : BitVec 96) (aad c : List Byte) : List Byte :=
  let h := aes256 key 0
  let l := blocks16 (padTo 16 aad ++ padTo 16 c ++ beBytes 8 (8 * aad.length) ++ beBytes 8 (8 * c.length))
  let y := l.foldl (fun y b => ghashMul (y ^^^ b) h) 0
  (beBytes 16 (y ^^^ aes256 key (gcmJ0 iv)).toNat).take 8

/-- Encryption of a segment's payload: the ciphertext, as long as the plaintext, and the 8 bytes of the tag (R280). -/
def gcmSeal (key : BitVec 256) (iv : BitVec 96) (aad x : List Byte) : List Byte :=
  let c := gcmCtr key iv x
  c ++ gcmTag key iv aad c

/-- Decryption of a payload whose last 8 bytes are the tag; none when the tag fails (R280, R281). -/
def gcmOpen (key : BitVec 256) (iv : BitVec 96) (aad y : List Byte) : Option (List Byte) :=
  let c := y.take (y.length - 8)
  if 8 ≤ y.length ∧ gcmTag key iv aad c = y.drop (y.length - 8) then some (gcmCtr key iv c) else none

/-! ### Key wrap (SP 800-38F) -/

/-- The 64-bit halves of a block. -/
def hiHalf (b : BitVec 128) : BitVec 64 := (b >>> 64).setWidth 64
def loHalf (b : BitVec 128) : BitVec 64 := b.setWidth 64

/-- The semiblocks of a byte string. -/
def semiblocks (bs : List Byte) : List (BitVec 64) :=
  (List.range (bs.length / 8)).map fun i => BitVec.ofNat 64 (beVal (Machine.slice bs (8 * i) 8))

/-- The wrapping function: an initial semiblock and n ≥ 2 more, 6n steps, each taking the semiblocks in turn. -/
def wrapW (key : BitVec 256) (a : BitVec 64) (r : List (BitVec 64)) : BitVec 64 × List (BitVec 64) :=
  (List.range (6 * r.length)).foldl (fun (acc : BitVec 64 × List (BitVec 64)) t => match acc.2 with
    | [] => acc
    | x :: l =>
      let b := aes256 key (acc.1 ++ x)
      (hiHalf b ^^^ BitVec.ofNat 64 (t + 1), l ++ [loHalf b])) (a, r)

/-- Its inverse, the steps taken back from the last. -/
def unwrapW (key : BitVec 256) (a : BitVec 64) (r : List (BitVec 64)) : BitVec 64 × List (BitVec 64) :=
  let n := 6 * r.length
  (List.range n).foldl (fun (acc : BitVec 64 × List (BitVec 64)) i => match acc.2.getLast? with
    | none => acc
    | some x =>
      let b := aes256Inv key ((acc.1 ^^^ BitVec.ofNat 64 (n - i)) ++ x)
      (hiHalf b, loHalf b :: acc.2.dropLast)) (a, r)

/-- The initial value of KW. -/
def kwIcv : BitVec 64 := 0xA6A6A6A6A6A6A6A6#64

def semiBytes (l : List (BitVec 64)) : List Byte := l.flatMap fun w => beBytes 8 w.toNat

/-- KW: 8 bytes more than its input. -/
def kw (key : BitVec 256) (x : List Byte) : List Byte := let w := wrapW key kwIcv (semiblocks x); semiBytes (w.1 :: w.2)

/-- KW inverse; none when the integrity check fails. -/
def kwInv (key : BitVec 256) (y : List Byte) : Option (List Byte) := match semiblocks y with
  | [] => none
  | a :: r => let w := unwrapW key a r; if w.1 = kwIcv then some (semiBytes w.2) else none

/-- The initial value of KWP for an input of n bytes. -/
def kwpIcv (n : Nat) : BitVec 64 := 0xA65959A6#32 ++ BitVec.ofNat 32 n

/-- KWP: the input padded to whole semiblocks; a single one is wrapped by one block encryption. -/
def kwp (key : BitVec 256) (x : List Byte) : List Byte := match semiblocks (padTo 8 x) with
  | [p] => beBytes 16 (aes256 key (kwpIcv x.length ++ p)).toNat
  | r => let w := wrapW key (kwpIcv x.length) r; semiBytes (w.1 :: w.2)

/-- KWP inverse; none when the integrity check, the length or the padding fails. -/
def kwpInv (key : BitVec 256) (y : List Byte) : Option (List Byte) :=
  let w : BitVec 64 × List (BitVec 64) := match semiblocks y with
    | [a, p] => let b := aes256Inv key (a ++ p); (hiHalf b, [loHalf b])
    | a :: r => unwrapW key a r
    | [] => (0, [])
  let x := semiBytes w.2
  let n := (w.1.setWidth 32).toNat
  if (w.1 >>> 32).setWidth 32 = 0xA65959A6#32 ∧ n ≤ x.length ∧ x.length < n + 8 ∧ (x.drop n).all (· == 0) then
    some (x.take n)
  else none

/-! ### CMAC and the KDF (R300) -/

/-- Doubling of a CMAC subkey. -/
def cmacDouble (x : BitVec 128) : BitVec 128 := (x <<< 1) ^^^ (if x.msb then 0x87 else 0)

/-- AES-256-CMAC (SP 800-38B). -/
def cmac (key : BitVec 256) (m : List Byte) : BitVec 128 :=
  let k1 := cmacDouble (aes256 key 0)
  let whole := !m.isEmpty && m.length % 16 == 0
  let l := blocks16 (if whole then m else padTo 16 (m ++ [0x80]))
  let last := (l.getLast?.getD 0) ^^^ (if whole then k1 else cmacDouble k1)
  (l.dropLast ++ [last]).foldl (fun c b => aes256 key (c ^^^ b)) 0

/-- The sealing key SK_k: two blocks of the counter-mode KDF of SP 800-108 with label "LMD-SEAL" and context k. How the counter, the
context and the output length are coded is left open by the rule and by SP 800-108: free values (log 11). -/
def sealKey (drk : BitVec 256) (k : Nat) : BitVec 256 :=
  let label : List Byte := [0x4C, 0x4D, 0x44, 0x2D, 0x53, 0x45, 0x41, 0x4C]
  let block := fun (i : Nat) =>
    cmac drk (Config.kdfField 0 i ++ label ++ [0] ++ Config.kdfField 1 k ++ Config.kdfField 2 256)
  block 1 ++ block 2

/-! ### SHA-256 -/

/-- The greatest r below 2^40 whose power k is at most n. -/
def rootFloor (k n : Nat) : Nat :=
  (List.range 40).foldl (fun r i => let q := r + 2 ^ (39 - i); if q ^ k ≤ n then q else r) 0

/-- The primes below 312: the first 64. -/
def shaPrimes : List Nat := ((List.range 312).drop 2).filter fun n => (List.range 18).all fun d => decide (d < 2) || n == d || n % d != 0

/-- The first 32 bits of the fractional part of the root of order k of a prime. -/
def rootBits (k p : Nat) : BitVec 32 := BitVec.ofNat 32 (rootFloor k (p * 2 ^ (32 * k)))

/-- The round constants: from the cube roots of the first 64 primes. -/
def shaK : List (BitVec 32) := shaPrimes.map (rootBits 3)

/-- The initial hash value: from the square roots of the first 8 primes. -/
def shaInit : List (BitVec 32) := (shaPrimes.take 8).map (rootBits 2)

/-- The message schedule of a block of 16 words. -/
def shaSchedule (m : List (BitVec 32)) : List (BitVec 32) := (List.range 48).foldl (fun w j =>
  let a := w.getD (j + 1) 0
  let b := w.getD (j + 14) 0
  let s0 := a.rotateRight 7 ^^^ a.rotateRight 18 ^^^ (a >>> 3)
  let s1 := b.rotateRight 17 ^^^ b.rotateRight 19 ^^^ (b >>> 10)
  w ++ [w.getD j 0 + s0 + w.getD (j + 9) 0 + s1]) m

/-- One round on the working variables. -/
def shaRound (v : List (BitVec 32)) (kw : BitVec 32 × BitVec 32) : List (BitVec 32) := match v with
  | [a, b, c, d, e, f, g, h] =>
    let s1 := e.rotateRight 6 ^^^ e.rotateRight 11 ^^^ e.rotateRight 25
    let t1 := h + s1 + ((e &&& f) ^^^ (~~~e &&& g)) + kw.1 + kw.2
    let s0 := a.rotateRight 2 ^^^ a.rotateRight 13 ^^^ a.rotateRight 22
    let t2 := s0 + ((a &&& b) ^^^ (a &&& c) ^^^ (b &&& c))
    [t1 + t2, a, b, c, d + t1, e, f, g]
  | _ => v

/-- SHA-256 of a byte string. -/
def sha256 (m : List Byte) : BitVec 256 :=
  let p := m ++ [0x80] ++ zeros ((119 - m.length % 64) % 64) ++ beBytes 8 (8 * m.length)
  let words := fun (n : Nat) => (List.range 16).map fun i => BitVec.ofNat 32 (beVal (Machine.slice p (64 * n + 4 * i) 4))
  let h := (List.range (p.length / 64)).foldl (fun h n =>
    h.zipWith (· + ·) ((shaK.zip (shaSchedule (words n))).foldl shaRound h)) shaInit
  BitVec.ofNat 256 (h.foldl (fun v w => v * 4294967296 + w.toNat) 0)

end Sys2Proof.Machine
end

