-- ==== Sys2Proof/Machine/Tab.lean ====
section
/-! DEFINITION. Tables of numbered resources as plain data: a list of (index, value) pairs with rising indices that lists no
default value, so that equal tables are equal lists; and counters (R20) as such tables of numbers. -/

namespace Sys2Proof.Machine

/-- A table of values by index; an index not listed has the default value given to `Tab.get`. -/
abbrev Tab (α : Type) := List (Nat × α)

/-- The value at an index. -/
def Tab.get {α : Type} (d : α) : Tab α → Nat → α
  | [], _ => d
  | (i, v) :: t, k => if i = k then v else Tab.get d t k

/-- The table with the entry of an index taken out. -/
def Tab.erase {α : Type} : Tab α → Nat → Tab α
  | [], _ => []
  | (i, v) :: t, k => if i = k then Tab.erase t k else (i, v) :: Tab.erase t k

/-- The table with an entry put in at its place by rising index. -/
def Tab.insert {α : Type} : Tab α → Nat → α → Tab α
  | [], k, x => [(k, x)]
  | (i, v) :: t, k, x => if k < i then (k, x) :: (i, v) :: t else (i, v) :: Tab.insert t k x

/-- The table with the value at an index replaced; a default value is not listed. -/
def Tab.set {α : Type} [DecidableEq α] (d : α) (t : Tab α) (k : Nat) (x : α) : Tab α :=
  if x = d then Tab.erase t k else Tab.insert (Tab.erase t k) k x

/-- The table with the value at an index changed by a function. -/
def Tab.upd {α : Type} [DecidableEq α] (d : α) (t : Tab α) (k : Nat) (f : α → α) : Tab α :=
  Tab.set d t k (f (Tab.get d t k))

/-- Every listed value changed by a function that keeps the default. -/
def Tab.mapVals {α : Type} [DecidableEq α] (d : α) (f : Nat → α → α) (t : Tab α) : Tab α :=
  (t.map fun p => (p.1, f p.1 p.2)).filter fun p => p.2 ≠ d

/-- The indices rise and no entry is the default. -/
def Tab.wf {α : Type} [DecidableEq α] (d : α) : Tab α → Bool
  | [] => true
  | (i, v) :: t => decide (v ≠ d) && t.all (fun p => decide (i < p.1)) && Tab.wf d t

/-- A group of counters by their place in their table. -/
abbrev Ctrs := Tab Nat

/-- A counter's value. -/
def Ctrs.get (t : Ctrs) (k : Nat) : Nat := Tab.get 0 t k

/-- A counter raised by n, saturating at all ones (R20). -/
def Ctrs.add (t : Ctrs) (k n : Nat) : Ctrs := Tab.set 0 t k (min (Tab.get 0 t k + n) ctrMax)

/-- A counter cleared. -/
def Ctrs.clear (t : Ctrs) (k : Nat) : Ctrs := Tab.set 0 t k 0

end Sys2Proof.Machine
end

