-- ==== Sys2Proof/Machine/State.lean ====
section
/-! DEFINITION. The state of the block, as plain data, and the state right after reset: every register, latch, queue, table,
counter and pin the spec names, grouped by the chapter that names it, and the queue of waiting commands. -/

namespace Sys2Proof.Machine

/-! ### Counters, each group in the order of its table -/

/-- Counters of a channel: Tables 2.15, 3.11, 4.9, 8.10 and RNG_WAIT, in the order CHAN.STATS.GET returns them (R550). -/
inductive ChanCtr where
  | dsFramesRx | dsHdrCrcErr | dsLcrcErr | dsTreeTagChange | dsFrameDiscard | dsLayoutErr | dsHuntCandidates
  | dsHuntExpired | dsHuntOverflow | dsFrameLockLoss | dsSfDiscont | dsCwDecoded | dsCwCorrected | dsBytesCorrected
  | dsCwFailed | dsMapRx | dsMapCrcErr | dsMapFecDiscard | dsMapPlaceErr | dsMapEpochMiss | dsMapParityErr
  | dsMapOwnEntries | dsTribDescCrcErr | dsSegHdrCrcErr | dsSegResync | dsSegFecDiscard | dsSegOverrun | dsSegTypeErr
  | dsSegFill | dsSegEmpty | dsSegForeign | dsSegExtErr | dsSegKeyPolicy | dsSegKeyAbsent | dsSegSizeErr | dsSegDataOk
  | dsSegDataBytes | dsSegBcastOk | dsSegCtrlOk
  | tcRxOk | tcCrcErr | tcTypeErr | tcLenErr | tcAddrErr | tcStateErr | tcDup | tcProfileConflict | tcRevokeLate | tcTx
  | tcRetx | tcUpDrop | tcUpGiveup | tcIdentSent | tcIdentShort | tcRangeSent | tcAnnounceExpired | tcRangeExpired
  | tcHoldover | tcHoldExpired | tcHoldFail | tcDozeWakeFail | tcGuardTrip
  | usBurstsTx | usWordsTx | usSegTx | usSegBytesTx | usFillBytes | usReportsTx | usGrantRange | usGrantOverlap
  | usGrantExcess | usGrantPast | usGrantShort | usGrantRptOnly | usHolHold | usHolDiscard | usPlanLate | usPlanFallback
  | usPredConfirmed | usPredCancelled | usBurstCut
  | ckDsDecryptOk | ckDsAuthFail | ckDsSuspect | ckUsEncrypt | ckUsKeyHold | ckUsKeyFill | ckKeyFilled | ckKeySwitch
  | ckKeySuspect | ckFragExpired | ckUnwrapFail | ckBwkMiss
  | rngWait
  deriving DecidableEq, Repr

/-- Counters of a queue: Table 5.12, then Table 7.8. -/
inductive QCtr where
  | enqPkts | enqBytes | deqPkts | deqBytes | dropDisabled | dropQuota | dropTail | dropColour | dropEarly | dropNospace
  | dropNoflow | dropHol | flushed | haltEntries | peakBytes
  | spillFrames | spillBytes | spillPages | refillPages | spillLost | pressureEntries
  deriving DecidableEq, Repr

/-- Counters of a policer (R205). -/
inductive PolCtr where
  | greenPkts | greenBytes | yellowPkts | yellowBytes | redPkts | redBytes | dropPkts
  deriving DecidableEq, Repr

/-- Counters of a classifier slice (Table 6.8). -/
inductive ClCtr where
  | passes | miss | unparsed | ipv4Options | overrun | drop | noTarget | recirc | recircFail | recircIgnored | mirrorDrop
  | resetDrop
  deriving DecidableEq, Repr

/-- Counters of a bond group (Table 6.9). -/
inductive BondCtr where
  | usAssigned | usNomember | usDropMember | hashRemap | dsInorder | dsHeld | dsTokens | dsTimeout | dsOverflow | dsSkipped
  | dsLate
  deriving DecidableEq, Repr

/-- Memory counters that are not gauges (Table 7.9). -/
inductive MemCtr where
  | bufPressure | bufEccCorr | bufEccUncorr | bufEccDrop | bufUnderrunDrop | spillPagesWritten | spillPagesRead
  | spillLinkRetry | spillEccUncorr | spillEccDrop | spillStackFail | spillRetry | spillBackoffMax | spillSelfRefresh
  deriving DecidableEq, Repr

/-- Counters of a time domain (Table 9.7). -/
inductive TmCtr where
  | annOk | annInvalid | annRange | annState | annOutlier | meas | measDrop | domainStep | lockLoss | holdover | switch
  | resolveWait
  deriving DecidableEq, Repr

/-- Tributary counters of a channel, then its ODC counters (Table 10.7). -/
inductive TribCtr where
  | dsSlots | dsErrored | dsMissing | usSlots | usShort | usNogrant | usUnderrun | pageSwitch | pageLate | pageUnarmed
  | pageMismatch | odcDsSlip | odcUsDrop | odcUsStale
  deriving DecidableEq, Repr

/-- Tributary counters of a stream (Table 10.7). -/
inductive StreamCtr where
  | txFrames | txDrop | rxFrames | rxBad | rxLate | rxEarly | rxDup
  deriving DecidableEq, Repr

/-- Counters of a MAC up to index 4 (Table 11.4); the rest are named by their index in `MacIdx`. -/
inductive LaneCtr where
  | hdrInvalid | blockLockLoss | markerErr | skewErr | alignLoss | los | lol | felos | prbsBits | prbsErr | prbsLoss
  | injected
  deriving DecidableEq, Repr

/-! ### Channel: downstream reception (chapter 02) -/

/-- MAP_LEN, MAP_START and PROF_EPOCH of a header (Table 2.2). -/
structure MapFields where
  len : Nat
  start : Nat
  epoch : Byte
  deriving DecidableEq, Repr

/-- The tributary descriptor of a header (Table 2.11). -/
structure TribDesc where
  start : Nat
  slots : Nat
  nextPage : Bool
  activePage : Bool
  deriving DecidableEq, Repr

/-- A hunt candidate (R57, R58): its block position, the confirmations so far and the SFC of the last one. -/
structure Candidate where
  pos : Nat
  hits : Nat
  sfc : BitVec 48
  deriving DecidableEq, Repr

/-- What became of the map a header announces (R589). -/
inductive MapPhase where
  | none | awaited | done
  deriving DecidableEq, Repr

/-- The frame in progress: the SFC Table 2.5 assigns to it, T_ds (R116), the map and descriptor in use, the codewords with
byte errors, and the segment parser's position (R86 to R88). -/
structure CurFrame where
  sfc : BitVec 48
  tds : Nat
  payload : Bool
  phase : MapPhase
  /-- The map, if it passes every test, is handed off: it is no map of the frame of a return from HOLDOVER (R125). -/
  usable : Bool
  map : MapFields
  trib : TribDesc
  cwErrs : List (Nat × Nat)
  pos : Nat
  searching : Bool
  deriving DecidableEq, Repr

/-- Receiver of a channel (Table 2.7, R51 to R72). -/
structure ChanRx where
  lock : Bool := false
  aligned : Bool := false
  candidates : List Candidate := []
  badFrames : Nat := 0
  /-- Last SFC received in LOCK that passed HCRC, and the frames since it (R61). -/
  lastGood : Option (BitVec 48) := none
  sinceGood : Nat := 0
  /-- SFC of the previous frame, received or predicted. -/
  prevSfc : Option (BitVec 48) := none
  lastMap : Option MapFields := none
  lastTrib : Option TribDesc := none
  treeTag : Option (BitVec 12) := none
  timeHold : Bool := false
  cur : Option CurFrame := none
  /-- Lane alignment holds (R392). -/
  lanesUp : Bool := false
  felos : Bool := false
  felosDebUs : Nat := 2
  /-- A TREE_TAG has passed HCRC in this lock (R49). -/
  tagLock : Bool := false
  /-- Corrected codewords of the last 8,000 frames, newest first (Table 3.9, code 0x0001). -/
  sdHist : List Nat := []
  /-- The scrambler register as loaded for the frame in progress (R54). -/
  seed : BitVec 31 := 0
  deriving DecidableEq, Repr

/-! ### Channel: terminal controller (chapter 03) -/

/-- Terminal states (Table 3.1); OPERATING is WATCH or DOZE, and DOZE is awake or down. -/
inductive TState where
  | listen | locked | announced | ranging | watch | doze | holdover | silenced
  deriving DecidableEq, Repr

/-- A burst profile (Table 3.6, PROFILE). -/
structure Profile where
  guard : Nat
  preLen : Nat
  prePat : Nat
  delim : Nat
  fec : Bool
  deriving DecidableEq, Repr

/-- A profile epoch: the profiles received by index (R105). -/
structure Epoch where
  num : Byte
  profs : List (Nat × Profile)
  deriving DecidableEq, Repr

/-- An upstream TCM (Table 3.5): kind with its body. -/
inductive UpTcm where
  | ack (ackType ackSeq result : Byte)
  | keyRpt (kdir kslot keySeq fragIdx fragCnt : Byte) (frag : List Byte)
  | alarm (code : Nat) (sev : Nat) (raised : Bool) (detail : Nat)
  | wakeReq (reason : Nat)
  | sleepReq (k : Nat) (reason : Nat)
  | identRsp (caps : BitVec 32) (rand : Nat) (epoch : Byte)
  | rangeRsp (eqd : Nat) (feSum : Nat)
  deriving DecidableEq, Repr

/-- An entry of the upstream TCM queue (R111), or a message that awaits its ACK (R112): its message, SEQ if it has been
sent, the first upstream frame it is ready for, and how often it has been sent. -/
structure UpEntry where
  msg : UpTcm
  seq : Byte
  ready : Option (BitVec 48)
  sent : Nat
  lastFrame : BitVec 48
  deriving DecidableEq, Repr

/-- A record of an accepted downstream message (R109): TYPE, SEQ and the RESULT of its ACK, if one was sent. -/
structure DupRec where
  type : Nat
  seq : Byte
  result : Option Nat
  keyRpt : Option (Byte × Byte × Byte)
  deriving DecidableEq, Repr

/-- A flow tag held in a flow context (R106). -/
structure FlowHeld where
  tag : BitVec 16
  up : Bool
  down : Bool
  unicast : Bool
  deriving DecidableEq, Repr

/-- A FLOW.MAP waiting for the next frame's first segment header (R78, R106). -/
structure FlowChange where
  frame : BitVec 48
  flows : Tab (Option FlowHeld)
  deriving DecidableEq, Repr

/-- The values kept for a return from HOLDOVER (R124, R125): the last valid TREE_TAG, the SFC of the last frame, its T_ds
and the instant of entry. -/
structure HoldInfo where
  tag : Option (BitVec 12)
  sfc : BitVec 48
  tds : Nat
  since : Nat
  deriving DecidableEq, Repr

/-- Doze in force (R121) and the doze record of R431. -/
structure DozeInfo where
  k : Nat
  start : BitVec 48
  /-- Awake: the downstream domain is up for an awake multiframe or an early wake. -/
  awake : Bool
  /-- The first frame of the coming awake multiframe and its predicted T_ds. -/
  nextSfc : BitVec 48
  nextTds : Nat
  /-- An early wake has been asked for (R123, R433). -/
  early : Bool
  recSfc : BitVec 48
  recTds : Nat
  recTag : Option (BitVec 12)
  deriving DecidableEq, Repr

/-- Configuration of a channel (R91, R165, R430, R396 and chapter 18, Table 18.3). -/
structure ChanCfg where
  feDs : Nat := 0
  feUs : Nat := 0
  bgLead : Nat := 16
  bgLag : Nat := 0
  announce : Bool := false
  bcast : Bool := true
  holWindow : Nat := 64
  lockTo : Nat := 10000
  annTo : Nat := 10
  rangeTo : Nat := 1000
  holdTo : Nat := 100
  sdThresh : Nat := 0
  runAhead : Bool := true
  dozeEn : Bool := false
  dozeAuto : Bool := false
  kReq : Nat := 16
  idleMs : Nat := 100
  dozeLeadUs : Nat := 80
  fePoll : Bool := false
  feAddr : Nat := 0
  feReg : Nat := 0
  enc : Bool := false
  txMap : List Nat := [0, 1, 2, 3]
  txInv : Nat := 0
  txLeadNs : Nat := 1000
  deriving DecidableEq, Repr

/-- Terminal controller of a channel. -/
structure ChanTc where
  opened : Bool := false
  st : TState := .listen
  tid : BitVec 16 := 0
  /-- Default allocation and the first map frame it is held for (R108). -/
  defAlloc : Option (BitVec 14) := none
  defFrom : BitVec 48 := 0
  /-- EqD in eighth-words in force, and the values of ASSIGN.EQD that wait for their frame (R119). -/
  eqd : Nat := 0
  eqdNext : List (BitVec 48 × Nat) := []
  /-- FE_DS and FE_US in force before each later change, with the instant that change applies from, oldest first (R120). -/
  feOld : List (Nat × Nat × Nat) := []
  /-- Allocation identifiers by context, as R67 tests them now, and changes by the first map frame they hold for. -/
  allocs : Tab (Option (BitVec 14)) := []
  allocNext : List (BitVec 48 × Tab (Option (BitVec 14))) := []
  flows : Tab (Option FlowHeld) := []
  flowNext : Option FlowChange := none
  dups : List DupRec := []
  upSeq : Byte := 0
  upQ : List UpEntry := []
  await : List UpEntry := []
  epochs : List Epoch := []
  revoke : Option (BitVec 48 × List (BitVec 14)) := none
  hold : Option HoldInfo := none
  doze : Option DozeInfo := none
  /-- A doze entry granted for frame START_SFC with period K (R121). -/
  sleepAt : Option (BitVec 48 × Nat) := none
  /-- An early end of doze asked for by WAKE.REQ of the head end, from the next frame (R123). -/
  wakeNext : Bool := false
  /-- The last frame of a multiframe in which nothing is sent after a failed wake (R122). -/
  mute : Option (BitVec 48) := none
  bseq : BitVec 16 := 0
  announceCur : Option AnnounceBody := none
  announceNext : Option AnnounceBody := none
  /-- The current announce has been refused for its round trip and counted (R317). -/
  annBad : Bool := false
  annSeenAt : Nat := 0
  deriving DecidableEq, Repr

/-- What the Heath island holds of a channel (R127, R132, R431). -/
structure ChanHeath where
  headLatch : Bool := false
  guardLatch : Bool := false
  guardArmed : Bool := false
  /-- BGATEcc drive level (R131, R165, R166). -/
  bgate : Bool := false
  /-- Flow-context enables of the owner (R106). -/
  flowEn : List Nat := []
  deriving DecidableEq, Repr

/-! ### Channel: keys (chapter 08) -/

/-- State of a key register (Table 8.2). -/
inductive KeyPhase where
  | empty | filled | current | retiring
  deriving DecidableEq, Repr

/-- A key register (R286). -/
structure KeyReg where
  ph : KeyPhase := .empty
  key : BitVec 256 := 0
  seq : Byte := 0
  suspect : Bool := false
  deriving DecidableEq, Repr

/-- An accepted key switch that has not taken effect (R293, R295). -/
structure KeySwitchPend where
  kdir : Nat
  slot : Nat
  keySeq : Byte
  frame : BitVec 48
  deriving DecidableEq, Repr

/-- A broadcast key collection (R292): form, KEY_SEQ, fragments and the frame of the first one. -/
structure FragSet where
  toTid : Bool
  keySeq : Byte
  cnt : Nat
  frags : List (Nat × List Byte)
  first : BitVec 48
  deriving DecidableEq, Repr

/-- An exchange that waits for the key-wrap engine (R290, R292): KDIR, slot or 3, KEY_SEQ, the SEQ of the KEY.REQ and the
wrapped bytes to unwrap, when it is a broadcast key. -/
structure KeyJob where
  kdir : Nat
  slot : Nat
  keySeq : Byte
  seq : Byte
  frame : BitVec 48
  toTid : Bool
  blob : List Byte
  deriving DecidableEq, Repr

/-- Key registers of a channel (Table 8.2, R296) and the exchanges under way. -/
structure ChanKeys where
  ds1 : KeyReg := {}
  ds2 : KeyReg := {}
  us1 : KeyReg := {}
  us2 : KeyReg := {}
  bc : KeyReg := {}
  pend : KeyReg := {}
  high : Option (BitVec 48) := none
  /-- SFC[31:0] of the discontinuity that marked keys suspect (Table 3.9, code 0x0004). -/
  suspectAt : Nat := 0
  switches : List KeySwitchPend := []
  /-- A retiring downstream slot and the frame at whose start it empties (R294). -/
  retire : Option (Nat × BitVec 48) := none
  /-- An old upstream slot and the upstream frame after whose last burst it empties (R294). -/
  usOld : Option (Nat × BitVec 48) := none
  frags : Option FragSet := none
  jobs : List KeyJob := []
  /-- Wrapped keys last sent: KDIR, slot, KEY_SEQ, bytes (R109, R289). -/
  wrapped : List (Nat × Nat × Byte × List Byte) := []
  deriving DecidableEq, Repr

/-! ### Channel: upstream bursts (chapter 04) -/

/-- A segment placed by a plan (R156): its queue and its span. -/
structure PlanSeg where
  q : Nat
  span : Nat
  deriving DecidableEq, Repr

/-- A grant of a burst after R148: allocation identifier and local context, START, LENGTH, its flags and its body (R149). -/
structure Grant where
  alloc : BitVec 14
  ctx : Nat
  start : Nat
  len : Nat
  rpt : Bool
  ctrl : Bool
  range : Bool
  cut : Bool
  prof : Nat
  body : Nat
  deriving DecidableEq, Repr

/-- What a plan does to the deficit counter of a member (R177, R178): whether it was cleared, and what was added since. -/
structure DrrStep where
  q : Nat
  member : Nat
  cleared : Bool
  add : Int
  deriving DecidableEq, Repr

/-- A plan (R156): for each grant its segments, and by context the pointer it leaves and its changes of deficit (R178). -/
structure Plan where
  bodies : List (List PlanSeg)
  drr : List (Nat × Nat × List DrrStep)
  deriving DecidableEq, Repr

/-- Kinds of burst (Table 4.1). -/
inductive BurstKind where
  | ident | range | data
  deriving DecidableEq, Repr

/-- Where a burst stands between the hand-off and its end (R157, R139, R166). -/
inductive BurstPhase where
  | scheduled | fallbackAsked | committed | underWay
  deriving DecidableEq, Repr

/-- A status report (Table 4.5). -/
structure Report where
  alloc : BitVec 14
  sat : Bool
  hol : Bool
  backlog : Nat
  deriving DecidableEq, Repr

/-- A claimed segment with the data word that holds its header (R285) and the fill that stands in its place (R273, R299). -/
structure TxSeg where
  q : Nat
  fid : Nat
  span : Nat
  keyIdx : Nat
  filled : Bool
  /-- Its upstream flow tag, and whether its flow is bonded (R143). -/
  tag : BitVec 16
  ext : Bool
  /-- Its bytes as the cipher has left them, from the assembly point on (R282, R299). -/
  bytes : List Byte := []
  deriving DecidableEq, Repr

/-- A burst (chapter 04). -/
structure Burst where
  id : Nat
  frame : BitVec 48
  kind : BurstKind
  /-- First word (with the random delay of R113 for an identity burst) and the words it occupies. -/
  start : Nat
  words : Nat
  grants : List Grant
  prof : Profile
  profIdx : Nat
  epoch : Byte
  /-- t_lane of the frame (R117), in ps. -/
  tLane : Nat
  eqd : Nat
  feUs : Nat
  rand : Nat
  phase : BurstPhase
  plan : Option Plan
  planReady : Bool
  /-- The channel's planners were there when the map was handed off (R157, R162). -/
  engines : Bool
  /-- Per grant, whether a queue of its allocation sets HOL in its report (R152). -/
  hol : List Bool
  fallback : Bool
  /-- Frames in the heads of the channel's queues at the plan deadline, which the fallback planner may name (R260). -/
  seen : List Nat
  woken : Bool
  segs : List (List TxSeg)
  reports : List Report
  tcm : Option UpEntry
  keySlot : Nat
  /-- The tributary body of a bound allocation, as bytes after the allocation header (R348). -/
  trib : List (Nat × List Byte)
  /-- Header and control field as the assembly point writes them (R139, R140). -/
  head : List Byte := []
  control : List Byte := []
  deriving DecidableEq, Repr

/-- A permitted window of the rogue guard (R130), opening and closing instants in ps. -/
structure GuardWin where
  from_ : Nat
  to_ : Nat
  deriving DecidableEq, Repr

/-- A live prediction (R160, R161). -/
structure Pred where
  frame : BitVec 48
  alloc : BitVec 14
  wake : Bool
  prefetch : Bool
  reserve : Bool
  /-- Bytes that the allocation is predicted to drain, which bound its prefetch. -/
  drain : Nat
  deriving DecidableEq, Repr

/-- Upstream side of a channel. -/
structure ChanUs where
  bursts : List Burst := []
  nextId : Nat := 0
  windows : List GuardWin := []
  /-- Frames handed off to the planners, oldest first, with the next window to plan of each, and the plan that runs (R156). -/
  plans : List (BitVec 48 × Nat) := []
  running : Option (BitVec 48 × Nat) := none
  preds : List Pred := []
  /-- Largest body per allocation context for each upstream frame with a sent grant, newest first (R153). -/
  bodyRec : Tab (List (BitVec 48 × Nat)) := []
  /-- The last upstream frame counted for the heads of queues (R153). -/
  holAt : Option (BitVec 48) := none
  /-- End word, on the lane time scale, of the last burst sent (R120, R158), in ps. -/
  lastEnd : Nat := 0
  /-- End word of each grant history frame: allocation, body words (R237). -/
  grantHist : List (BitVec 48 × List (Nat × Nat)) := []
  /-- The transmit lanes are active since this activation (R394). -/
  txActive : Bool := false
  /-- The instant of that activation, from which the markers sent are counted (R394). -/
  txSince : Nat := 0
  /-- Lane map and inversions of that activation (R395). -/
  mapNow : List Nat := [0, 1, 2, 3]
  invNow : Nat := 0
  /-- The lane blocks sent on each lane since that activation, the bytes of the stream that fill no whole group of four blocks yet, and
  the scrambler register of each logical lane (R386, R387). -/
  laneBlocks : Nat := 0
  laneTail : List Byte := []
  laneRegs : List (BitVec 58) := []
  deriving DecidableEq, Repr

/-! ### Channel: tributaries and ODC (chapter 10) -/

/-- A binding of an allocation context to the tributary unit (R347). -/
inductive TribBind where
  | none
  | slots (first count : Nat)
  | odc
  deriving DecidableEq, Repr

/-- A downstream tributary slot of a multiframe (R70, R359): frame position 0 to 7, slot, whether it is errored, its bytes. -/
structure DsSlot where
  frame : Nat
  slot : Nat
  errored : Bool
  bytes : List Byte
  deriving DecidableEq, Repr

/-- A whole downstream multiframe (R359): its number, the page it was received under, its slots. -/
structure WholeMf where
  num : BitVec 45
  page : Bool
  /-- Its boundary in presented time (R334); none while no announce gives the arrival delay. -/
  at_ : Option Int
  slots : List DsSlot
  deriving DecidableEq, Repr

/-- Tributary and ODC state of a channel. -/
structure ChanTrib where
  binds : Tab TribBind := []
  page : Bool := false
  /-- The frame from which the active page is the one it is (R357). -/
  swAt : Option (BitVec 48) := none
  adopted : Bool := false
  armed : Bool := false
  /-- The last descriptor that passed TRIB_CRC in the multiframe in progress (R357). -/
  lastDesc : Option TribDesc := none
  /-- The frame that carried it (R357). -/
  descAt : BitVec 48 := 0
  /-- Descriptors of this multiframe that passed, and those of them that announced another active page (R358). -/
  passSeen : Nat := 0
  passMis : Nat := 0
  /-- Frames of this multiframe received while the channel was armed (R358). -/
  seen : Nat := 0
  /-- Downstream slots of the multiframe in progress: frame 0 to 7, slot, errored, bytes (R359). -/
  dsSlots : List DsSlot := []
  /-- The slots of the last whole multiframe, its number and its page, awaiting their parts (R360). -/
  whole : Option WholeMf := none
  tseq : BitVec 45 := 0
  /-- A multiframe boundary of this OPERATING time has been seen, and its instant in presented time (R334). -/
  begun : Bool := false
  boundary : Option Int := none
  free : Bool := false
  odcQ : List (Nat × List Byte) := []
  odcUs : Option (List Byte) := none
  odcLast : Option (List Byte) := none
  ctr : Ctrs := []
  deriving DecidableEq, Repr

/-- A channel (R22). -/
structure ChanSt where
  owner : Nat := 0
  cfg : ChanCfg := {}
  rx : ChanRx := {}
  tc : ChanTc := {}
  heath : ChanHeath := {}
  keys : ChanKeys := {}
  us : ChanUs := {}
  trib : ChanTrib := {}
  ctr : Ctrs := []
  /-- Receive lane map, inversions and skews of the alignment (R392), kept in the doze record (R431). -/
  rxMap : List Nat := []
  rxInv : List Bool := []
  rxSkew : List Nat := []
  /-- Skew-correcting marker set under collection, by pin lane: MCOUNT, LANE, arrival. -/
  markers : Tab (Option (Nat × Nat × Nat)) := []
  misSets : Nat := 0
  /-- The CHAN.CLOSE that waits for a burst to end (R90). -/
  closing : Bool := false
  deriving DecidableEq, Repr

/-! ### Queues, shapers, policers (chapter 05) and spill regions (chapter 07) -/

/-- Packet colour (R192). -/
inductive Colour where
  | green | yellow | red
  deriving DecidableEq, Repr

/-- Where a frame of a queue lies (R254): whole on-chip in the head, or at an offset of the record stream (R256). -/
inductive Place where
  | head
  | stream (start len : Nat)
  deriving DecidableEq, Repr

/-- A frame held by a queue (R250): identifier, bytes without FCS, flow context, colour, completion time of its enqueue, bond
group and sequence, the buffer banks of its cells, whether they are cells of the spill reserve (R252), its place, whether a committed plan has claimed it or a live run-ahead
reservation names it, and the tributary stream that built it. -/
structure Frame where
  id : Nat
  bytes : List Byte
  flow : Option Nat
  colour : Colour
  enq : Nat
  bond : Option (Nat × Nat)
  cells : List Nat
  fromReserve : Bool
  place : Place
  claimed : Bool
  reserved : Bool
  stream : Option Nat
  /-- The bank requester that writes the frame (Table 7.5), 120 for none. -/
  via : Nat := 120
  /-- One of its cells has an uncorrectable error that the scrub found (R273). -/
  bad : Bool := false
  deriving DecidableEq, Repr

/-- A token-bucket shaper (Table 5.3, R185); COUNT is signed. -/
structure Shaper where
  en : Bool := false
  rate : Nat := 0
  burst : Nat := 16384
  count : Int := 0
  frac : Nat := 0
  deriving DecidableEq, Repr

/-- Upstream queue configuration (Table 5.2). -/
structure QCfg where
  alloc : Option Nat := none
  member : Nat := 0
  weight : Nat := 1
  flow : Nat := 0
  adj : Int := 8
  discard : Bool := false
  enable : Bool := false
  deriving DecidableEq, Repr

/-- Drop parameters (Table 5.7). -/
structure DropCfg where
  max : Nat := 1048576
  ymax : Nat := 1048576
  curve : Bool := false
  d : List Nat := [0, 0, 0, 0, 0, 0, 0, 0]
  p : List Nat := [0, 0, 0, 0, 0, 0, 0, 0]
  deriving DecidableEq, Repr

/-- Sampling configuration (R200, R202, R203). -/
structure SampleCfg where
  post : Bool := false
  period : Nat := 0
  phase : Nat := 0
  base : Nat := 10
  deriving DecidableEq, Repr

/-- Latency record (R202). -/
structure LatRec where
  dMin : Nat := 0
  dMax : Nat := 0
  dSum : Nat := 0
  sMin : Nat := 0
  sMax : Nat := 0
  sSum : Nat := 0
  samples : Nat := 0
  bins : Ctrs := []
  deriving DecidableEq, Repr

/-- Where a page of a queue stands (R257, R258). -/
inductive PagePhase where
  | waiting | writing | stored | reading
  deriving DecidableEq, Repr

/-- A page of a queue's record stream (R256): where it starts in the stream, its stack, its address there in pages, its sequence number,
the offset of the first record header that begins in it, and where it stands. -/
structure Page where
  start : Nat
  stack : Nat
  addr : Nat
  seq : Nat
  hdr : Option Nat
  ph : PagePhase
  deriving DecidableEq, Repr

/-- Spill parameters (Table 7.2). -/
structure SpillCfg where
  spill : Bool := true
  pressure : Bool := true
  onMax : Nat := 262144
  deriving DecidableEq, Repr

/-- A pause point that a queue names (R377). -/
structure FcCfg where
  mac : Nat
  prio : Nat
  xoff : Nat
  xon : Nat
  deriving DecidableEq, Repr

/-- A queue (R170). -/
structure QueueSt where
  cfg : QCfg := {}
  /-- The configuration as changed by QUEUE.SET and not yet in force for planning (R180). -/
  cfgNext : Option QCfg := none
  /-- The configurations that bursts of frames before a frame are planned and committed under, oldest first (R180). -/
  cfgPrev : List (BitVec 48 × QCfg) := []
  shaper : Shaper := {}
  drop : DropCfg := {}
  samp : SampleCfg := {}
  lat : LatRec := {}
  spillCfg : SpillCfg := {}
  fc : Option FcCfg := none
  frames : List Frame := []
  /-- Pages, and the ends of the record stream read into the head and written at all (R256 to R259). -/
  pages : List Page := []
  pageSeq : Nat := 0
  recEnd : Nat := 0
  tailStart : Nat := 0
  readEnd : Nat := 0
  pressured : Bool := false
  holHeld : Bool := false
  /-- The head frame and the upstream frames it has stayed at the head through (R153). -/
  headId : Option Nat := none
  headFrames : Nat := 0
  keyHeld : Bool := false
  halted : Bool := false
  ctr : Ctrs := []
  deriving DecidableEq, Repr

/-- An allocation context (R171, R176, R177). -/
structure AllocSt where
  weighted : Bool := false
  weightedNext : Option Bool := none
  shaper : Shaper := {}
  dc : List Int := [0, 0, 0, 0, 0, 0, 0, 0]
  ptr : Nat := 0
  deriving DecidableEq, Repr

/-- Policer actions (Table 5.6). -/
inductive PolAct where
  | pass | mark | drop
  deriving DecidableEq, Repr

/-- A policer (Table 5.6, R192). The spec gives no reset value for the buckets: the smallest sizes, and full, as RFC 2698 starts
them (log 8). -/
structure PolicerSt where
  aware : Bool := false
  deiYellow : Bool := false
  actG : PolAct := .pass
  actY : PolAct := .pass
  actR : PolAct := .drop
  cir : Nat := 0
  pir : Nat := 0
  cbs : Nat := 1
  pbs : Nat := 1
  tc : Nat := 1
  tcFrac : Nat := 0
  tp : Nat := 1
  tpFrac : Nat := 0
  ctr : Ctrs := []
  deriving DecidableEq, Repr

/-! ### Classifier (chapter 06) -/

/-- A mark value (R219): selector none, PCP, DEI, DSCP; new value; set-DEI flag. -/
structure Mark where
  sel : Nat := 0
  val : Nat := 0
  setDei : Bool := false
  deriving DecidableEq, Repr

/-- An action set (Table 6.5, Table 18.6): AMASK and the fields of its actions; policer and counter are local indices (R507). -/
structure ActionSet where
  mask : BitVec 16 := 0
  queue : Nat := 0
  allocC : Nat := 0
  allocA : Nat := 0
  allocM : Nat := 0
  bondG : Nat := 0
  bondL : Nat := 0
  flow : Nat := 0
  mac : Nat := 0
  lag : Bool := false
  cls : Nat := 0
  mirror : Nat := 0
  policer : Nat := 0
  markY : Mark := {}
  markR : Mark := {}
  mark : Mark := {}
  decap : Nat := 0
  counter : Nat := 0
  deriving DecidableEq, Repr

/-- A rule entry (R215, R217, R227): `died` 0 stands for unset. -/
structure Rule where
  part : Nat
  handle : Nat
  ternary : Bool
  profile : Nat
  pass : Nat
  scope : BitVec 96
  prio : Nat
  value : BitVec 320
  mask : BitVec 320
  act : ActionSet
  born : Nat
  died : Nat
  /-- Source indices lost by reassignment (R233). -/
  lost : List Nat
  deriving DecidableEq, Repr

/-- A key profile (R213) as one version holds it. -/
structure KeyProfile where
  ternary : Bool
  fields : List Nat
  deriving DecidableEq, Repr

/-- A source configuration (Table 6.4). -/
structure SourceCfg where
  exp1 : Option Nat := none
  tep1 : Option Nat := none
  exp2 : Option Nat := none
  tep2 : Option Nat := none
  miss : ActionSet := { mask := 0x200#16 }
  vxlanPort : Nat := 4789
  ecpriPort : Nat := 0
  deriving DecidableEq, Repr

/-- A staged edit of a rule: a new rule, a change, or a deletion (R226, R227). -/
inductive Edit where
  | add (r : Rule)
  | mod (r : Rule)
  | del (handle : Nat)
  | profile (idx : Nat) (p : KeyProfile)
  | source (src : Nat) (c : SourceCfg)
  deriving DecidableEq, Repr

/-- The versioned classification of a partition (R226 to R230): entries of a profile or source are listed with born and
died versions. -/
structure PartCl where
  cur : Nat := 1
  drain : Nat := 0
  staged : List Edit := []
  nextHandle : Nat := 1
  profiles : List (Nat × KeyProfile × Nat × Nat) := []
  sources : List (Nat × SourceCfg × Nat × Nat) := []
  deriving DecidableEq, Repr

/-- A packet that waits in the input FIFO of its source (R208): the source, the instant of its first pass, and its bytes. -/
structure FifoEnt where
  src : Nat
  begins : Nat
  bytes : Nat
  deriving DecidableEq, Repr

/-- A classifier slice: the instant of its next free pipeline slot (R207), what waits in the FIFOs of its sources (R208), its counters
and those of its sources. The mirror queues stand with the clusters. -/
structure SliceSt where
  free : Nat := 0
  fifo : List FifoEnt := []
  ctr : Ctrs := []
  srcPasses : Ctrs := []
  srcMiss : Ctrs := []
  deriving DecidableEq, Repr

/-- A mirror copy (R222): the source of its packet, its 32 bytes of metadata, and its bytes. -/
structure MirrorCopy where
  src : Nat
  info : List Byte
  bytes : List Byte
  deriving DecidableEq, Repr

/-- A held segment or token of the reorder engine (R241 to R243): sequence, frame (none for a token), egress queue, arrival. -/
structure Held where
  seq : Nat
  frame : Option Frame
  q : Nat
  at_ : Nat
  deriving DecidableEq, Repr

/-- Fields hashed and seed (Table 6.6). -/
structure HashCfg where
  seed : BitVec 32 := 0
  fields : BitVec 32 := 0x0033E000#32
  deriving DecidableEq, Repr

/-- A bond group (Table 6.6, R237, R240); no members: the group is absent. -/
structure BondSt where
  owner : Nat := 0
  members : List Nat := []
  lineId : Nat := 0
  flows : List Nat := []
  queues : List Nat := []
  window : Nat := 8
  reorderTo : Nat := 200
  hash : HashCfg := {}
  /-- Entries written, each plus one; entry i ships naming position i mod n (R245). -/
  table : Tab Nat := []
  /-- Weights as the last map hand-off of each member left them: position, local queue, words (R237). -/
  weights : List (Nat × Nat × Nat) := []
  /-- Credits by member position (R238). -/
  credit : List (Nat × Int) := []
  lastPick : Nat := 0
  seq : Nat := 0
  next : Option Nat := none
  held : List Held := []
  ctr : Ctrs := []
  deriving DecidableEq, Repr

/-- A LAG group (R247); no members: the group is absent. -/
structure LagSt where
  owner : Nat := 0
  members : List Nat := []
  hash : HashCfg := {}
  table : Tab Nat := []
  deriving DecidableEq, Repr

/-! ### Packet buffer, spill store, arbitration (chapter 07) -/

/-- A buffer bank (R249, R251). -/
structure BankSt where
  opened : Bool := true
  used : Nat := 0
  deriving DecidableEq, Repr

/-- A stack of the Tussock store and its controller (R257, R265 to R268). -/
structure StackSt where
  failed : Bool := false
  selfRefresh : Bool := true
  retraining : Bool := false
  pages : Nat := 0
  writes : Nat := 0
  scrubbed : Nat := 0
  deriving DecidableEq, Repr

/-- A spill port: back-off exponent, the clocks it waits, and the queue whose refused request it will make again (R276). -/
structure SpillPort where
  k : Nat := 0
  wait : Nat := 0
  held : Option Nat := none
  deriving DecidableEq, Repr

/-- A pending request of a requester at a bank, for a transfer of some beats (R249, R270). -/
structure ArbReq where
  bank : Nat
  req : Nat
  beats : Nat
  deriving DecidableEq, Repr

/-- A transfer on a port of a bank: its requester and the beats left; no beats: the port is idle. -/
structure BankXfer where
  req : Nat := 120
  left : Nat := 0
  deriving DecidableEq, Repr

/-- Buffer, store and arbiter state. -/
structure MemSt where
  banks : Tab BankSt := []
  nextBank : Nat := 0
  reserveUsed : Nat := 0
  pressure : Bool := false
  stackTab : Tab StackSt := []
  ports : Tab SpillPort := []
  /-- Bases written over their default (Table 7.5), by requester, each plus one. -/
  shadow : Tab Nat := []
  active : Tab Nat := []
  /-- Aging by bank times 120 plus requester (R271). -/
  aging : Tab Nat := []
  /-- Requests that wait for a port, oldest first; transfers by bank, direction and port; round-robin pointers by bank and direction
  (R271). -/
  reqs : List ArbReq := []
  xfers : Tab BankXfer := []
  pointers : Tab Nat := []
  /-- Memory words that read as zero after an uncorrectable error: memory and address (R269). -/
  zeroWords : List (Nat × Nat) := []
  commits : BitVec 16 := 0
  ctr : Ctrs := []
  deriving DecidableEq, Repr

/-! ### Gorse: key hierarchy, key-wrap engine, entropy (chapters 08 and 15) -/

/-- The key-wrap engine (Tables 8.4 to 8.7). -/
structure KweSt where
  owner : Nat := 0xFF
  lost : Bool := false
  op : BitVec 4 := 0
  handle : BitVec 12 := 0
  len : Nat := 0
  din : List Byte := []
  dout : List Byte := []
  outLen : Nat := 0
  busy : Bool := false
  done : Bool := false
  err : Nat := 0
  key : BitVec 256 := 0
  /-- The operation in progress, with the channel and slot of LINE_WRAP and BCAST_UNWRAP. -/
  job : Option (Nat × Nat × Nat × Nat) := none
  cuts : Nat := 0
  claimBad : Nat := 0
  deriving DecidableEq, Repr

/-- Keys and engines of Gorse. -/
structure GorseSt where
  drk : Bool := false
  ps : Tab (Option (BitVec 256)) := []
  kek : Tab (Option (BitVec 256)) := []
  kwe : KweSt := {}
  drbgRun : Bool := false
  drbgReqs : Nat := 0
  /-- Erasure latch of Heath (R309). -/
  erasure : Bool := false
  deriving DecidableEq, Repr

/-! ### Time unit (chapter 09) -/

/-- A time counter (R312) as one number in units of 2^-45 ps, in which a cycle of the time clock,
a ps and the sub-fraction step of 2^-48 ns are all whole. -/
abbrev TimeVal := Int

/-- Domain states (Table 9.2). -/
inductive DomPhase where
  | unbound | acquiring | locked | holdover
  deriving DecidableEq, Repr

/-- A time domain (R312, R313, Table 9.1, R318, R322). -/
structure DomainSt where
  t : TimeVal := 0
  corr : Int := 0
  /-- The integral part of the servo's loop (R321), in units of 2^-80 ns per cycle. -/
  integ : Int := 0
  /-- SFC of the frame last measured since the source came or came back (R318). -/
  lastSfc : Option (BitVec 48) := none
  chan : Option Nat := none
  ph : DomPhase := .unbound
  bw : Nat := 100
  lockThr : Nat := 10
  unlockThr : Nat := 100
  annTimeout : Nat := 10000
  dstep : Nat := 1000
  /-- The next measurement is the first after a bind, or the first of a return from HOLDOVER (R322). -/
  first : Bool := false
  /-- A large error that the next measurement may confirm, in units of 2^-16 ns (R322). -/
  large : Option Int := none
  goodRun : Nat := 0
  badRun : Nat := 0
  srcHold : Bool := false
  /-- The last errors, newest first, at most 8 (R340). -/
  errs : List Int := []
  ctr : Ctrs := []
  deriving DecidableEq, Repr

/-- A trigger pin (Table 9.5, R333, R334): PERIOD 0 disables it. -/
structure TrigSt where
  owner : Nat := 0
  mode : Nat := 0
  pol : Nat := 0
  chan : Nat := 0xFF
  start : TimeVal := 0
  /-- PERIOD, WIDTH and OFFSET in units of 2^-16 ns. -/
  period : Nat := 0
  width : Nat := 0
  count : Nat := 0
  offset : Nat := 0
  /-- The next pulse of a periodic schedule, and the pulses given (R333). -/
  idx : Nat := 0
  done : Nat := 0
  /-- Converter mode: the last boundary, and the next pulse counted from it. -/
  bound : Option TimeVal := none
  sub : Int := 0
  free : Bool := false
  /-- The pulse in progress (R330, R332): the instant in ps at which it ends, and its active level. -/
  pulse : Option (Nat × Bool) := none
  ctrSkipped : Nat := 0
  ctrFree : Nat := 0
  deriving DecidableEq, Repr

/-- A captured edge (R335): whether it rises, its instant, the presented state and whether OFS was not 0. -/
structure CaptRec where
  rising : Bool
  t : TimeVal
  pstate : Nat
  unsure : Bool
  deriving DecidableEq, Repr

/-- A capture pin (R335) with its records pending posting, at most 64. -/
structure CaptSt where
  owner : Nat := 0
  en : Bool := false
  edge : Nat := 0
  overflow : Nat := 0
  pend : List CaptRec := []
  deriving DecidableEq, Repr

/-- A PTP source instance (R339). -/
structure PtpSrc where
  en : Bool := false
  mac : Nat := 0
  domain : Nat := 0
  logSync : Int := 0
  logAnn : Int := 0
  udp : Bool := false
  ip : BitVec 32 := 0
  syncSeq : BitVec 16 := 0
  annSeq : BitVec 16 := 0
  deriving DecidableEq, Repr

/-- A gate list (R341): base, cycle in ns, entries (MASK, DURATION in ns). -/
structure GateList where
  base : TimeVal
  cycle : Nat
  entries : List (Byte × Nat)
  deriving DecidableEq, Repr

/-- Time unit. -/
structure TimeSt where
  dom : Tab DomainSt := []
  active : Nat := 0
  ofs : TimeVal := 0
  everSet : Bool := false
  mode : Nat := 2
  preferred : Nat := 0
  revert : Nat := 10
  slew : Nat := 50
  stepThr : Nat := 1000
  waiting : Bool := false
  /-- OFS stands as TIME.SET wrote it, until a discontinuity (R326, R327). -/
  held : Bool := false
  /-- The estimate E when the presented state last left 0 or 1, or at TIME.SET, and that instant in ps (R340). -/
  eBase : TimeVal := 0
  eSince : Nat := 0
  /-- TIME.SET wrote presented time, and it has not been in state 0 or 1 since (R340). -/
  eSet : Bool := false
  steppedLast : Bool := false
  ppsEn : Bool := false
  ppsPol : Nat := 0
  ppsSquelch : Nat := 1
  ppsWidth : Nat := 100000
  /-- The instant, in ps, at which the pulse of PPS_OUT ends (R329), and the second of its last leading edge that no message has
  described yet (R331). -/
  ppsEnd : Nat := 0
  ppsSec : Option Nat := none
  todEn : Bool := false
  todRate : Nat := 1
  utcOfs : BitVec 16 := 0
  leap : Byte := 0
  trig : Tab TrigSt := []
  capt : Tab CaptSt := []
  ptp : Tab PtpSrc := []
  deriving DecidableEq, Repr

/-! ### Tributary unit (chapter 10) -/

/-- A tributary stream (Table 10.3) with the parts received for its coming multiframes. -/
structure StreamSt where
  en : Bool := false
  up : Bool := false
  chan : Nat := 0
  slots : Nat := 1
  partSlots : Nat := 7
  mac : Nat := 0
  cls : Nat := 7
  da : BitVec 48 := 0
  vlan : Option (BitVec 16) := none
  etype : BitVec 16 := 0x88B5
  /-- Received parts: multiframe, part, missing bits, payload (R361). -/
  parts : List (BitVec 32 × Nat × BitVec 56 × List Byte) := []
  ctr : Ctrs := []
  deriving DecidableEq, Repr

/-- Tributary unit: streams, the entries of the two pages by page × 2^32 + partition × 2^20 + local index, ODC ports. -/
structure TribSt where
  streams : Tab StreamSt := []
  conn : Tab (BitVec 64) := []
  odcOn : Tab Bool := []
  deriving DecidableEq, Repr

/-! ### Host ports (chapter 11) -/

/-- Where a port group stands (R379 to R382). -/
inductive PortPhase where
  | awake | quiet | asleep | powering | pattern
  deriving DecidableEq, Repr

/-- A port group (R367, R379). -/
structure PortSt where
  owner : Nat := 0
  mode : Nat := 0
  ph : PortPhase := .awake
  autoWake : Bool := true
  wakeLen : Nat := 12
  wakeAfterQuiet : Bool := false
  wakeCause : Nat := 0
  wakeAsked : Nat := 0
  grantedAt : Nat := 0
  deriving DecidableEq, Repr

/-- A MAC (Table 11.2, R371, R376, R378, R336, R341). -/
structure MacSt where
  en : Bool := false
  sa : Option (BitVec 48) := none
  maxFrame : Nat := 16383
  fcMode : Nat := 0
  pfcEn : Byte := 0xFF
  quanta : Nat := 65535
  hold : Bool := false
  link : Bool := false
  /-- Instants, in ps, at which the received pause of each class ends (R376). -/
  paused : Tab Nat := []
  /-- Pause points of the MAC asserted now (R377). -/
  asserted : List Nat := []
  tsMode : Nat := 0
  txAdj : Int := 0
  rxAdj : Int := 0
  gate : Option GateList := none
  gateNext : Option (Option GateList × TimeVal) := none
  gateIdx : Nat := 0
  gateMask : Byte := 0xFF
  gateDrops : Nat := 0
  gateSwitches : Nat := 0
  /-- The instant, in ps, at which what the MAC sends ends with its gap (R373). -/
  txEnd : Nat := 0
  /-- Quarters of a codeword decoded beyond the last whole one (R368, Table 11.4). -/
  cwPart : Nat := 0
  ctr : Ctrs := []
  sat : BitVec 64 := 0
  deriving DecidableEq, Repr

/-! ### Serial lanes (chapter 12) -/

/-- A lane (R388 to R405). -/
structure LaneSt where
  blockLock : Bool := false
  inverted : Bool := false
  los : Bool := false
  lol : Bool := false
  losDebUs : Nat := 4
  taps : Option (Int × Int × Int × Int) := none
  tapsNext : Option (Int × Int × Int × Int) := none
  frozen : Bool := false
  test : Nat := 0
  gen : Nat := 0xFF
  chk : Nat := 0xFF
  genInv : Bool := false
  chkInv : Bool := false
  prbsLock : Bool := false
  injM : Nat := 0
  injE : Nat := 0
  scan : Option (CmdHdr × Nat) := none
  /-- Arrival block of the last good marker, if one since block lock; marker positions without a good one (R391, R393). -/
  lastMarker : Option Nat := none
  badMarkers : Nat := 0
  ctr : Ctrs := []
  deriving DecidableEq, Repr

/-! ### Power (chapter 13) -/

/-- Power state of a domain (R413 to R418, Table 18.13). -/
inductive PwrPhase where
  | off | up | down | on
  deriving DecidableEq, Repr

/-- A power domain: phase, the class of its last request (0 committed, 1 service, 2 opportunistic), its waiting request, a
release that follows its wake, its energy in µJ, its reset state (R443) and its crossbar port (R453 to R455). -/
structure PwrDom where
  ph : PwrPhase := .off
  cls : Nat := 1
  wait : Bool := false
  waitLimit : Bool := false
  releaseNext : Bool := false
  energy : Nat := 0
  /-- Out of reset (R445), its stretch in µs while it is free, and the longest stretch of its episode (R444). -/
  inReset : Bool := true
  stretching : Bool := false
  stretchUs : Nat := 0
  /-- The release that freed it (R445). -/
  freedBy : Nat := 0
  epoch : Byte := 0
  fenced : Bool := true
  orphan : Nat := 0
  absent : Nat := 0
  deriving DecidableEq, Repr

/-- Bracken and insertion (R412, R417, R422 to R428). -/
structure PwrSt where
  doms : Tab PwrDom := []
  /-- Budgets over their default, in mA by budgeted rail; 0 stands for the maximum. -/
  railBudget : Tab Nat := []
  budgetW : Nat := 740
  /-- Slew budgets over their default, mA/µs by budgeted rail; 0 stands for 4,000. -/
  slew : Tab Nat := []
  waitQ : List Nat := []
  overBudget : Bool := false
  railGood : List Nat := []
  railV : Tab Nat := []
  railI : Tab Nat := []
  measured : Nat := 0
  /-- Consecutive samples with the measured power within the budget, while PWR_OVER stands (R422). -/
  okRun : Nat := 0
  seated : Bool := false
  insMode : Bool := true
  /-- Steps of the emergency shutdown that have begun; none when none runs (R427). -/
  emergency : Option Nat := none
  /-- Nothing but Heath is granted until every rail is good and the card is seated (R409). -/
  lockout : Bool := false
  thermtrip : Bool := false
  baseEnergy : Nat := 0
  railEnergy : Ctrs := []
  /-- Energy of each rail below 1 µJ that is carried to the next interval, in nJ (R434). -/
  energyCarry : Tab Nat := []
  deriving DecidableEq, Repr

/-! ### Reset, pins and straps (chapter 14) -/

/-- A pin of the fuse pin map (Table 14.8): its burned value and lock fuse, its state and the level it holds. -/
structure PinSt where
  fuse : Nat := 0
  locked : Bool := false
  /-- 0 pull-down, 1 driven low, 2 driven high, 3 held, 4 configured. -/
  st : Nat := 0
  level : Bool := false
  deriving DecidableEq, Repr

/-- Reset controller of Heath (R436 to R466). -/
structure RstSt where
  /-- Sources asserted now, by number of Table 14.9: 0 power-on, 1 RESET_N, 2 RESET_N held, 7 thermal, 8 withdrawal,
  9 rail loss. -/
  asserted : List Nat := []
  /-- Releases so far that freed a domain (R445). -/
  releases : Nat := 0
  heldChan : List Nat := []
  heldDom : List Nat := []
  driving : Bool := false
  driveForN : Bool := false
  blanking : Bool := false
  nLow : Bool := false
  thermRestart : Bool := true
  thermReleases : List Nat := []
  thermLock : Bool := false
  lastReach : Nat := 0
  lastSrc : Nat := 0
  seen : BitVec 11 := 1
  strapUnstable : Bool := false
  bootSrc : Nat := 0
  clkMode : Nat := 0
  fuseLoaded : Bool := false
  pinMapOn : Bool := false
  pins : Tab PinSt := []
  /-- XAON runs (R436). -/
  xaon : Bool := false
  /-- A WARM or COLD reset that applies as an emergency shutdown leaves each domain: its stretch and whether it is COLD (R446). -/
  latent : Option (Nat × Bool) := none
  /-- A DEV.RESET accepted and its reach, 0 WARM or 1 COLD (R548). -/
  devReset : Option Nat := none
  deriving DecidableEq, Repr

/-! ### Boot, firmware, attestation (chapter 15) -/

/-- An event or alarm record as posted, with the log's own fields (Table 16.4, Table 17.11). -/
structure EvRec where
  code : Nat
  sev : Nat
  raised : Bool
  kind : Nat
  idx : Nat
  detail : List Byte
  time : TimeVal
  pstate : Nat
  parts : List Nat
  seq : Nat
  /-- Written to flash (LSEV [4]). -/
  flash : Bool
  deriving DecidableEq, Repr

/-- An event as raised, with the header fields that a result event takes from its command (Table 17.11). -/
structure EvPost where
  e : EvRec
  tag : BitVec 32
  epoch : Option (BitVec 16)
  status : Nat
  deriving DecidableEq, Repr

/-- A slot of an update (R483, R484): the intervals written since its erasure, and what FW.VERIFY found in it since. -/
structure TargetSt where
  written : List (Nat × Nat) := []
  verified : Option PackageInfo := none
  /-- A chunk failed: the slot passes no verification until one at offset 0 is staged again (R545). -/
  spoiled : Bool := false
  deriving DecidableEq, Repr

/-- An operation that returned PENDING_ASYNC (R530): opcode, the command's header, and a parameter of it. -/
structure AsyncOp where
  opcode : BitVec 16
  hdr : CmdHdr
  arg : List Byte
  deriving DecidableEq, Repr

/-- A package that is being pushed into management cluster memory (R469): its length and the bytes placed, by offset, the last first. -/
structure PushSt where
  len : Nat
  chunks : List (Nat × List Byte) := []
  deriving DecidableEq, Repr

/-- Boot and firmware state. -/
structure FwSt where
  ready : Bool := false
  /-- Candidates still to try, the one under verification first (BOOT_SLOT coding), and the boot record (R468, R473). -/
  cands : List Nat := []
  record : List (Nat × Nat) := []
  lastReason : Nat := 0
  recoveryWait : Bool := false
  /-- Gorse has released the management cluster, with its cores halted or not (R469, R474). -/
  mgmtFree : Bool := false
  bootSlot : Nat := 0xF
  coresHalted : Bool := false
  pkg : Option PackageInfo := none
  pushed : Bool := false
  /-- The two copies of the boot header as flash holds them (Table 15.3, R471); flash contents that the spec does not give are empty. -/
  hdr0 : List Byte := []
  hdr1 : List Byte := []
  svn : Nat := 0
  target : TargetSt := {}
  /-- The recovery slot, as staged and verified (R483). -/
  recov : TargetSt := {}
  ops : List AsyncOp := []
  /-- The components FW.ACTIVATE has still to run: management, clusters, PERSIST (R485). -/
  actMgmt : Bool := false
  actClusters : List Nat := []
  actPersist : Bool := false
  actPkg : Option PackageInfo := none
  /-- The activation stopped before every selected component ran. -/
  actFailed : Bool := false
  prevPkg : Option PackageInfo := none
  restarting : Bool := false
  lostRestart : Nat := 0
  /-- Events raised while the management firmware does not serve the rings, at most 4,096 (R486). -/
  kept : List EvPost := []
  /-- Engine clusters: absent from planning (R162), image digest and interface version (R487). -/
  absent : List Nat := List.range 16
  images : Tab (Option (BitVec 256 × BitVec 16)) := []
  mirrors : Tab (List MirrorCopy) := []
  /-- A push in progress through endpoint 0 and through the sideband (R469, R506, R536). -/
  push : Option PushSt := none
  pushSb : Option PushSt := none
  qcount : BitVec 64 := 0
  /-- The fused hash of the package key (R473). -/
  keyHash : BitVec 256 := Config.keyHash
  deriving DecidableEq, Repr

/-! ### Sensors, alarms, logs, watchdog, sideband (chapter 16) -/

/-- An alarm of the open list (R496). -/
structure AlarmSt where
  code : Nat
  sev : Nat
  kind : Nat
  idx : Nat
  present : Bool
  /-- It stands in the open list; one raised while the list was full does not (R496). -/
  listed : Bool := true
  raises : Nat
  first : TimeVal
  parts : List Nat
  deriving DecidableEq, Repr

/-- Management state: sensors, alarms, logs, watchdog, sideband registers. -/
structure MgmtSt where
  temps : Tab Int := []
  trips : List Nat := []
  minorT : Nat := 95
  majorT : Nat := 105
  /-- Consecutive samples of a rail out of tolerance, and above 95 % of its maximum, and above the maximum (R493, R427). -/
  railOutRun : Tab Nat := []
  railHiRun : Tab Nat := []
  alarms : List AlarmSt := []
  alarmLost : Nat := 0
  log : List EvRec := []
  lseq : Nat := 0
  flog : List EvRec := []
  fseq : Nat := 0
  flogRetry : Bool := false
  flogStopped : Bool := false
  gasp : List EvRec := []
  wdogMs : Nat := 1000
  wdogNext : Nat := 1000
  wdogArmed : Bool := false
  wdogCount : Nat := 0
  /-- The restarted firmware still has to raise alarm 0x1050 (R503). -/
  wdogFired : Bool := false
  sbSel : Nat := 0
  sbRefused : Bool := false
  sbOp : Nat := 0
  sbLen : Nat := 0
  sbResult : Nat := 0
  sbWin : Tab Byte := []
  deriving DecidableEq, Repr

/-! ### Partitions and endpoints (chapters 01, 16, 17) -/

/-- Quotas of a partition (Table 16.9) in the order of the SUMMARY record, key profiles last. -/
structure PartSt where
  quotas : List Nat := [0, 0, 0, 0, 0, 0, 0, 0]
  /-- Local index to device index of policers, counters and key profiles (R507): the first device index of each. -/
  cl : PartCl := {}
  deriving DecidableEq, Repr

/-- A record ring in host memory (R203, R337): base, log2 of its size, vector, producer index, records lost, loss flag. -/
structure RecRing where
  base : Nat := 0
  log2 : Nat := 0
  vec : Nat := 0
  pi : BitVec 32 := 0
  ci : BitVec 32 := 0
  rseq : BitVec 32 := 0
  lost : Nat := 0
  lossFlag : Bool := false
  deriving DecidableEq, Repr

/-- Records written within the second of the time unit at hand (R203, R337). -/
structure RecRate where
  second : Nat := 0
  count : Nat := 0
  deriving DecidableEq, Repr

/-- A completion (Table 17.9). -/
structure Completion where
  opcode : BitVec 16
  status : Nat
  tag : BitVec 32
  seq : BitVec 32
  epoch : BitVec 16
  detail : BitVec 32
  reply : List Byte
  noIrq : Bool
  deriving DecidableEq, Repr

/-- A control endpoint (Tables 17.1 to 17.6, R516 to R525, R529). -/
structure EpSt where
  link : Bool := false
  run : Bool := false
  fault : Nat := 0
  epoch : BitVec 16 := 0
  vec : BitVec 16 := 0x3210
  cmpHold : Nat := 0
  cmpCount : Nat := 1
  evtHold : Nat := 0
  evtCount : Nat := 1
  cmdBase : Nat := 0
  cmdSize : Nat := 0
  cmpBase : Nat := 0
  cmpSize : Nat := 0
  evtBase : Nat := 0
  evtSize : Nat := 0
  idxBase : Nat := 0
  cmdPi : BitVec 32 := 0
  cmdCi : BitVec 32 := 0
  cmpPi : BitVec 32 := 0
  cmpCi : BitVec 32 := 0
  evtPi : BitVec 32 := 0
  evtCi : BitVec 32 := 0
  /-- Records published since the vector was last raised (R514). -/
  cmpUnsig : Nat := 0
  evtUnsig : Nat := 0
  expSeq : Option (BitVec 32) := none
  /-- The expected SEQ was cleared by a PARTITION reset, so a stale command does not set it (R592). -/
  seqReset : Bool := false
  eseq : BitVec 32 := 0
  lostEvents : Nat := 0
  lossFlag : Bool := false
  lostRestart : Nat := 0
  stale : Nat := 0
  /-- Commands fetched or posted that have not started, oldest first, and whether they are orphaned (R511, R522). -/
  waiting : List RawCmd := []
  /-- How many of them, from the oldest, have been fetched (R519). -/
  fetched : Nat := 0
  orphaned : Bool := false
  /-- Pending commands kept from before the last restart of the rings (R522), and the expected SEQ then. -/
  kept : List RawCmd := []
  keptSeq : Option (BitVec 32) := none
  keptOrphan : Bool := false
  /-- A command whose application has not ended (R90, R550). -/
  applying : Option RawCmd := none
  held : List Completion := []
  smp : RecRing := {}
  ts : RecRing := {}
  mbox : Tab Byte := []
  mboxOp : Nat := 0
  mboxLen : Nat := 0
  mboxResult : Nat := 0
  /-- A command run through the mailbox whose application has not ended; BUSY is set (R535, R537). -/
  mboxApplying : Option RawCmd := none
  /-- A mailbox CMD that waits for the next command boundary of the ring (R537). -/
  mboxWait : Option RawCmd := none
  msix : Tab (BitVec 32) := []
  /-- The 64-bit register that a read of its lowest-addressed word has latched: offset and value (R15, R512). -/
  latch : Option (Nat × Nat) := none
  deriving DecidableEq, Repr

/-! ### What leaves the block -/

/-- An output of the block, as its neighbours see it. -/
inductive Out where
  /-- A completion published in ring k (R518). -/
  | completion (k : Nat) (c : Completion)
  /-- An event record published in ring k with its sequence, TAG, epoch, status and loss flag (R529). -/
  | event (k : Nat) (e : EvRec) (tag : BitVec 32) (epoch : BitVec 16) (status : Nat) (loss : Bool)
  /-- A write of the index block of endpoint k (R517). -/
  | index (k : Nat) (cmdCi cmpPi evtPi smpPi tsPi : BitVec 32) (epoch : BitVec 16)
  /-- A vector of endpoint k (R514). -/
  | vector (k v : Nat)
  /-- A sample record (Table 5.10) or a timestamp record (Table 9.6) in the ring of partition k. -/
  | record (k : Nat) (ts : Bool) (bytes : List Byte)
  /-- A reply of the direct mailbox of endpoint k (R535). -/
  | mailbox (k : Nat) (result : Nat) (bytes : List Byte)
  /-- A burst as it leaves the lanes (Table 4.1), guard words, FEC and scrambling included: channel, frame, first word. -/
  | burst (c : Nat) (frame : BitVec 48) (start : Nat) (seed : BitVec 31) (bytes : List Byte)
  /-- The transmit lanes of a channel become active (R394) under a lane map and inversions (R395). -/
  | lanesActive (c : Nat) (at_ : Nat) (map : List Nat) (inv : Nat)
  /-- What the four pin lanes of a channel send from an instant on, in ps: PAM4 levels, lane block after lane block (R384 to R387). -/
  | lanes (c : Nat) (at_ : Nat) (levels : List (List Nat))
  /-- A burst cut under R167. -/
  | burstCut (c : Nat) (frame : BitVec 48)
  /-- BGATEcc changes level (R165). -/
  | bgate (c : Nat) (level : Bool) (at_ : Nat)
  /-- A frame sent by MAC m, without FCS, and whether its FCS is good (R373). -/
  | hostTx (m : Nat) (bytes : List Byte) (fcsGood : Bool)
  /-- A PAUSE or PFC frame of MAC m (R377): class-enable vector (0 for PAUSE), quanta. -/
  | flowCtl (m : Nat) (pfc : Bool) (vec : Byte) (quanta : Nat)
  /-- The quiet notice or the wake pattern of a port group (Table 11.5). -/
  | portPattern (p : Nat) (wake : Bool)
  /-- A pulse of PPS_OUT or of a trigger pin: its leading and its trailing edge as presented time would read without a step, and
  whether its active level is high (R329, R332). -/
  | pps (t fin : TimeVal) (high : Bool)
  | trig (pin : Nat) (t fin : TimeVal) (high : Bool)
  /-- A time-of-day message on TOD_OUT (R331): the baud rate and the levels of its bit times; between messages the line rests high. -/
  | tod (baud : Nat) (bits : List Bool)
  /-- An ODC port frame. -/
  | odc (k : Nat) (bytes : List Byte)
  /-- A pin driven low or released: RESET_N, THERMTRIP_N. -/
  | resetN (low : Bool)
  | thermtrip (low : Bool)
  /-- A level of a fuse-map pin changes (R460). -/
  | pin (i : Nat) (st : Nat)
  /-- Nine SCL pulses and a stop condition on front-end bus k (R584). -/
  | feRelease (k : Nat)
  /-- An answer on the sideband: window reply. -/
  | sideband (result : Nat) (bytes : List Byte)
  deriving DecidableEq, Repr

/-! ### The state -/

/-- The state of the block. `draws` counts the draws made of the free values of `Config`; `now` is the time since the end of
the COLD stretch in ps, as the shaper ticks tell it; both are the model's own. -/
structure State where
  chans : Tab ChanSt := []
  queues : Tab QueueSt := []
  allocs : Tab AllocSt := []
  peaks : Tab Shaper := []
  policers : Tab PolicerSt := []
  rules : List Rule := []
  counters : Tab (Nat × Nat) := []
  slices : Tab SliceSt := []
  bonds : Tab BondSt := []
  lags : Tab LagSt := []
  mem : MemSt := {}
  gorse : GorseSt := {}
  time : TimeSt := {}
  trib : TribSt := {}
  ports : Tab PortSt := []
  macs : Tab MacSt := []
  lanes : Tab LaneSt := []
  pwr : PwrSt := {}
  rst : RstSt := {}
  fw : FwSt := {}
  mgmt : MgmtSt := {}
  parts : Tab PartSt := []
  eps : Tab EpSt := []
  /-- The rates of sample records (0) and of timestamp records (1) across all partitions. -/
  recRates : Tab RecRate := []
  out : List Out := []
  now : Nat := 0
  draws : Nat := 0
  nextFrame : Nat := 0
  pending : List Instr := []
  deriving DecidableEq, Repr

/-- The quotas of partition 0 after reset: the whole device total of every item (R507, Table 16.9). -/
def wholeQuotas : List Nat :=
  [393216, if Config.variant48 then 3145728 else 6291456, 524288, 16384, 131072, 16384, 65536, 64]

/-- The state right after reset, with the power-on source asserted and nothing yet released: every register at the value its
chapter gives (R16), partition 0 owning everything (R44) and holding every quota (R507), no command waiting. -/
def State.reset : State := { rst := { asserted := [0] }, parts := [(0, { quotas := wholeQuotas })] }

/-- Reasons the block could stop with: there is none. Every command of the table has an effect in every state. -/
inductive Fault where
  deriving DecidableEq, Repr

/-- Reasons a command has no meaning. -/
inductive Refusal where
  /-- Raised by the dispatcher for a command whose meaning is not written; safe, since nothing is claimed of it. -/
  | notModelled (mnemonic : String)
  deriving DecidableEq, Repr

end Sys2Proof.Machine
end

