-- ==== Sys2Proof/Machine/Ops.lean ====
section
/-! DEFINITION. The named operations over the state that every family shares: reading and changing one numbered resource,
counting (R20), ownership (R42), presented time (R313, R327), publishing records in the rings (R514 to R531), posting events
and alarms and keeping the logs (R495 to R501). -/

namespace Sys2Proof.Machine

/-! ### One resource of a table -/

namespace State

def chan (s : State) (c : Nat) : ChanSt := Tab.get {} s.chans c
def updChan (s : State) (c : Nat) (f : ChanSt → ChanSt) : State := { s with chans := Tab.upd {} s.chans c f }
def queue (s : State) (q : Nat) : QueueSt := Tab.get {} s.queues q
def updQueue (s : State) (q : Nat) (f : QueueSt → QueueSt) : State := { s with queues := Tab.upd {} s.queues q f }
def alloc (s : State) (a : Nat) : AllocSt := Tab.get {} s.allocs a
def updAlloc (s : State) (a : Nat) (f : AllocSt → AllocSt) : State := { s with allocs := Tab.upd {} s.allocs a f }
def peak (s : State) (c : Nat) : Shaper := Tab.get {} s.peaks c
def updPeak (s : State) (c : Nat) (f : Shaper → Shaper) : State := { s with peaks := Tab.upd {} s.peaks c f }
def policer (s : State) (i : Nat) : PolicerSt := Tab.get {} s.policers i
def updPolicer (s : State) (i : Nat) (f : PolicerSt → PolicerSt) : State := { s with policers := Tab.upd {} s.policers i f }
def slice (s : State) (i : Nat) : SliceSt := Tab.get {} s.slices i
def updSlice (s : State) (i : Nat) (f : SliceSt → SliceSt) : State := { s with slices := Tab.upd {} s.slices i f }
def bond (s : State) (g : Nat) : BondSt := Tab.get {} s.bonds g
def updBond (s : State) (g : Nat) (f : BondSt → BondSt) : State := { s with bonds := Tab.upd {} s.bonds g f }
def lag (s : State) (g : Nat) : LagSt := Tab.get {} s.lags g
def updLag (s : State) (g : Nat) (f : LagSt → LagSt) : State := { s with lags := Tab.upd {} s.lags g f }
def port (s : State) (p : Nat) : PortSt := Tab.get {} s.ports p
def updPort (s : State) (p : Nat) (f : PortSt → PortSt) : State := { s with ports := Tab.upd {} s.ports p f }
def mac (s : State) (m : Nat) : MacSt := Tab.get {} s.macs m
def updMac (s : State) (m : Nat) (f : MacSt → MacSt) : State := { s with macs := Tab.upd {} s.macs m f }
def lane (s : State) (l : Nat) : LaneSt := Tab.get {} s.lanes l
def updLane (s : State) (l : Nat) (f : LaneSt → LaneSt) : State := { s with lanes := Tab.upd {} s.lanes l f }
def part (s : State) (k : Nat) : PartSt := Tab.get {} s.parts k
def updPart (s : State) (k : Nat) (f : PartSt → PartSt) : State := { s with parts := Tab.upd {} s.parts k f }
def ep (s : State) (k : Nat) : EpSt := Tab.get {} s.eps k
def updEp (s : State) (k : Nat) (f : EpSt → EpSt) : State := { s with eps := Tab.upd {} s.eps k f }
def pdom (s : State) (d : Nat) : PwrDom := Tab.get {} s.pwr.doms d
def updPdom (s : State) (d : Nat) (f : PwrDom → PwrDom) : State :=
  { s with pwr := { s.pwr with doms := Tab.upd {} s.pwr.doms d f } }
def dom (s : State) (d : Nat) : DomainSt := Tab.get {} s.time.dom d
def updDom (s : State) (d : Nat) (f : DomainSt → DomainSt) : State :=
  { s with time := { s.time with dom := Tab.upd {} s.time.dom d f } }
def trig (s : State) (t : Nat) : TrigSt := Tab.get {} s.time.trig t
def updTrig (s : State) (t : Nat) (f : TrigSt → TrigSt) : State :=
  { s with time := { s.time with trig := Tab.upd {} s.time.trig t f } }
def capt (s : State) (t : Nat) : CaptSt := Tab.get {} s.time.capt t
def updCapt (s : State) (t : Nat) (f : CaptSt → CaptSt) : State :=
  { s with time := { s.time with capt := Tab.upd {} s.time.capt t f } }
def ptp (s : State) (i : Nat) : PtpSrc := Tab.get {} s.time.ptp i
def updPtp (s : State) (i : Nat) (f : PtpSrc → PtpSrc) : State :=
  { s with time := { s.time with ptp := Tab.upd {} s.time.ptp i f } }
def stream (s : State) (i : Nat) : StreamSt := Tab.get {} s.trib.streams i
def updStream (s : State) (i : Nat) (f : StreamSt → StreamSt) : State :=
  { s with trib := { s.trib with streams := Tab.upd {} s.trib.streams i f } }
def bank (s : State) (b : Nat) : BankSt := Tab.get {} s.mem.banks b
def updBank (s : State) (b : Nat) (f : BankSt → BankSt) : State :=
  { s with mem := { s.mem with banks := Tab.upd {} s.mem.banks b f } }
def stack (s : State) (b : Nat) : StackSt := Tab.get {} s.mem.stackTab b
def updStack (s : State) (b : Nat) (f : StackSt → StackSt) : State :=
  { s with mem := { s.mem with stackTab := Tab.upd {} s.mem.stackTab b f } }
def pin (s : State) (i : Nat) : PinSt := Tab.get {} s.rst.pins i
def updPin (s : State) (i : Nat) (f : PinSt → PinSt) : State :=
  { s with rst := { s.rst with pins := Tab.upd {} s.rst.pins i f } }

/-! ### Units -/

def updMgmt (s : State) (f : MgmtSt → MgmtSt) : State := { s with mgmt := f s.mgmt }
def updFw (s : State) (f : FwSt → FwSt) : State := { s with fw := f s.fw }
def updPwr (s : State) (f : PwrSt → PwrSt) : State := { s with pwr := f s.pwr }
def updRst (s : State) (f : RstSt → RstSt) : State := { s with rst := f s.rst }
def updMem (s : State) (f : MemSt → MemSt) : State := { s with mem := f s.mem }
def updGorse (s : State) (f : GorseSt → GorseSt) : State := { s with gorse := f s.gorse }
def updKwe (s : State) (f : KweSt → KweSt) : State := { s with gorse := { s.gorse with kwe := f s.gorse.kwe } }
def updTime (s : State) (f : TimeSt → TimeSt) : State := { s with time := f s.time }

/-! ### Parts of a channel -/

def updRx (s : State) (c : Nat) (f : ChanRx → ChanRx) : State := s.updChan c fun x => { x with rx := f x.rx }
def updTc (s : State) (c : Nat) (f : ChanTc → ChanTc) : State := s.updChan c fun x => { x with tc := f x.tc }
def updHeath (s : State) (c : Nat) (f : ChanHeath → ChanHeath) : State := s.updChan c fun x => { x with heath := f x.heath }
def updKeys (s : State) (c : Nat) (f : ChanKeys → ChanKeys) : State := s.updChan c fun x => { x with keys := f x.keys }
def updUs (s : State) (c : Nat) (f : ChanUs → ChanUs) : State := s.updChan c fun x => { x with us := f x.us }
def updTrib (s : State) (c : Nat) (f : ChanTrib → ChanTrib) : State := s.updChan c fun x => { x with trib := f x.trib }

/-! ### Counting (R20) -/

def bump (s : State) (c : Nat) (k : ChanCtr) (n : Nat := 1) : State :=
  s.updChan c fun x => { x with ctr := x.ctr.add k.ctorIdx n }
def bumpQ (s : State) (q : Nat) (k : QCtr) (n : Nat := 1) : State :=
  s.updQueue q fun x => { x with ctr := x.ctr.add k.ctorIdx n }
def bumpPol (s : State) (i : Nat) (k : PolCtr) (n : Nat := 1) : State :=
  s.updPolicer i fun x => { x with ctr := x.ctr.add k.ctorIdx n }
def bumpCl (s : State) (i : Nat) (k : ClCtr) (n : Nat := 1) : State :=
  s.updSlice i fun x => { x with ctr := x.ctr.add k.ctorIdx n }
def bumpBond (s : State) (g : Nat) (k : BondCtr) (n : Nat := 1) : State :=
  s.updBond g fun x => { x with ctr := x.ctr.add k.ctorIdx n }
def bumpMem (s : State) (k : MemCtr) (n : Nat := 1) : State :=
  { s with mem := { s.mem with ctr := s.mem.ctr.add k.ctorIdx n } }
def bumpTm (s : State) (d : Nat) (k : TmCtr) (n : Nat := 1) : State :=
  s.updDom d fun x => { x with ctr := x.ctr.add k.ctorIdx n }
def bumpTrib (s : State) (c : Nat) (k : TribCtr) (n : Nat := 1) : State :=
  s.updTrib c fun x => { x with ctr := x.ctr.add k.ctorIdx n }
def bumpStream (s : State) (i : Nat) (k : StreamCtr) (n : Nat := 1) : State :=
  s.updStream i fun x => { x with ctr := x.ctr.add k.ctorIdx n }
/-- A MAC counter, with its bit of SAT when it reaches all ones (R378). -/
def bumpMac (s : State) (m idx : Nat) (n : Nat := 1) : State := s.updMac m fun x =>
  let c := x.ctr.add idx n
  { x with ctr := c, sat := if Ctrs.get c idx = ctrMax then x.sat ||| BitVec.ofNat 64 (2 ^ idx) else x.sat }
def bumpLane (s : State) (l : Nat) (k : LaneCtr) (n : Nat := 1) : State :=
  s.updLane l fun x => { x with ctr := x.ctr.add k.ctorIdx n }

/-- An output leaves the block. -/
def emit (s : State) (o : Out) : State := { s with out := s.out ++ [o] }

/-- A pin of the fuse pin map takes a state of Table 14.7, or 4 when its function is configured (R458). -/
def setPin (s : State) (i st : Nat) : State :=
  if (s.pin i).st = st then s else (s.updPin i fun p => { p with st := st }).emit (.pin i st)

/-- A draw of the DRBG (R477) with the state after it. -/
def draw (s : State) : BitVec 256 × State := (Config.drbg s.draws, { s with
  draws := s.draws + 1
  gorse := { s.gorse with drbgReqs := s.gorse.drbgReqs + 1 } })

end State

/-! ### Numbering (R27, R28, R32, R170) -/

def dsDom (c : Nat) : Nat := 4 + c
def usDom (c : Nat) : Nat := 68 + c
def portDom (p : Nat) : Nat := 132 + p
def engDom (k : Nat) : Nat := 164 + k
def sliceDom (i : Nat) : Nat := 180 + i
def bankDom (b : Nat) : Nat := 196 + b
def stackDom (b : Nat) : Nat := 212 + b
/-- Device index of local index i of partition k, for policers, counters and connection entries (R507). -/
def partIdx (k i : Nat) : Nat := k * 1048576 + i
/-- Global allocation context a of channel c (R171). -/
def allocIdx (c a : Nat) : Nat := 64 * c + a

/-! ### Ownership (R42) -/

namespace State

/-- Owner of a MAC: the owner of its port group (Table 1.8). -/
def macOwner (s : State) (m : Nat) : Nat := (s.port (m / 8)).owner
/-- Owner of a queue: of its channel or of its MAC's port group (R170). -/
def queueOwner (s : State) (q : Nat) : Nat := if q < 8192 then (s.chan (q / 128)).owner else s.macOwner ((q - 8192) / 8)
/-- Owner of a lane: of its channel or of its port group (R383). -/
def laneOwner (s : State) (l : Nat) : Nat := if l < 256 then (s.chan (l / 4)).owner else (s.port ((l - 256) / 8)).owner

end State

/-- Every partition: what device-wide records are posted to (R43). -/
def allParts : List Nat := List.range 8

/-! ### Time values (R312) -/

/-- One nanosecond in units of a time value (2^-45 ps). -/
def nsU : Int := 35184372088832000
def secU : Int := 1000000000 * nsU
def TimeVal.sec (t : TimeVal) : Nat := (t.ediv secU % 281474976710656).toNat
def TimeVal.ns (t : TimeVal) : Nat := ((t.emod secU).ediv nsU).toNat
/-- Fraction in units of 2^-16 ns. -/
def TimeVal.frac (t : TimeVal) : Nat := ((t.emod nsU).ediv 536870912000).toNat
/-- A time value from seconds, nanoseconds and fraction. -/
def mkTime (sec ns frac : Nat) : TimeVal := sec * secU + ns * nsU + frac * 536870912000
/-- A span of ps as a time value. -/
def psT (n : Nat) : TimeVal := (n : Int) * 35184372088832
/-- The 12 bytes of a TIME field (R538). -/
def timeBytes (t : TimeVal) : List Byte := leBytes 6 t.sec ++ leBytes 4 t.ns ++ leBytes 2 t.frac
/-- A number of w bits, signed, saturating. -/
def satS (w : Nat) (x : Int) : Nat :=
  let hi : Int := 2 ^ (w - 1) - 1
  ((max (-hi - 1) (min hi x)) % (2 ^ w : Int)).toNat

namespace State

/-- Presented time (R313). -/
def presented (s : State) : TimeVal := (s.dom s.time.active).t + s.time.ofs
/-- The presented state for no channel (R327). -/
def pstate (s : State) : Nat :=
  if (s.dom s.time.active).ph = .locked then 1 else if s.time.everSet then 2 else 3
/-- The presented state for channel c (R327). -/
def pstateOf (s : State) (c : Nat) : Nat :=
  if (s.dom s.time.active).ph = .locked ∧ (s.dom s.time.active).chan = some c then 0 else s.pstate
/-- Rank of a domain (R324). -/
def rank (s : State) (d : Nat) : Nat :=
  if (s.dom d).ph = .locked then (if (s.dom d).srcHold then 1 else 2) else 0

end State

/-! ### Rings (R514 to R521) -/

/-- Units that a record of n bytes after its 32-byte header takes (R519, R529). -/
def recUnits (n : Nat) : Nat := ceilDiv (32 + n) 64

/-- Free units of a ring (R516). -/
def ringFree (log2 : Nat) (pi ci : BitVec 32) : Nat := 2 ^ log2 - (pi - ci).toNat

namespace State

/-- The index block is written (R517). -/
def writeIndex (s : State) (k : Nat) : State :=
  let e := s.ep k
  s.emit (.index k e.cmdCi e.cmpPi e.evtPi e.smp.pi e.ts.pi e.epoch)

/-- A completion record counts toward its vector (R514). -/
def signalCmp (s : State) (k : Nat) : State :=
  let e := s.ep k
  if e.cmpHold = 0 ∨ max 1 e.cmpCount ≤ e.cmpUnsig + 1 then
    (s.updEp k fun e => { e with cmpUnsig := 0 }).emit (.vector k (e.vec.toNat % 16))
  else s.updEp k fun e => { e with cmpUnsig := e.cmpUnsig + 1 }

/-- An event record counts toward its vector (R514). -/
def signalEvt (s : State) (k : Nat) : State :=
  let e := s.ep k
  if e.evtHold = 0 ∨ max 1 e.evtCount ≤ e.evtUnsig + 1 then
    (s.updEp k fun e => { e with evtUnsig := 0 }).emit (.vector k (e.vec.toNat / 16 % 16))
  else s.updEp k fun e => { e with evtUnsig := e.evtUnsig + 1 }

/-- A completion is written to the ring, then the index block, then its vector (R518). -/
def publishCmp (s : State) (k : Nat) (c : Completion) : State :=
  let s := (s.emit (.completion k c)).updEp k fun e =>
    { e with cmpPi := e.cmpPi + BitVec.ofNat 32 (recUnits c.reply.length) }
  let s := s.writeIndex k
  if c.noIrq then s else s.signalCmp k

/-- A completion is published, or held while the rings are stopped (R522). -/
def complete (s : State) (k : Nat) (c : Completion) : State :=
  if (s.ep k).run then s.publishCmp k c else s.updEp k fun e => { e with held := e.held ++ [c] }

/-- An event of partition k is written, or dropped and counted (R521, R529). -/
def publishEvt (s : State) (k : Nat) (p : EvPost) : State :=
  let e := s.ep k
  let r := { p.e with seq := e.eseq.toNat }
  let n := recUnits r.detail.length
  if e.run ∧ e.link ∧ n ≤ ringFree e.evtSize e.evtPi e.evtCi then
    let s := s.emit (.event k r p.tag (p.epoch.getD e.epoch) p.status e.lossFlag)
    let s := s.updEp k fun e =>
      { e with eseq := e.eseq + 1, evtPi := e.evtPi + BitVec.ofNat 32 n, lossFlag := false }
    (s.writeIndex k).signalEvt k
  else s.updEp k fun e =>
    { e with eseq := e.eseq + 1, lostEvents := min (e.lostEvents + 1) 0xFFFFFFFF, lossFlag := true }

/-! ### Events, log and alarms (R495 to R501, R529 to R531) -/

/-- The on-chip log takes a record, overwriting its oldest when full (R498). -/
def logAppend (s : State) (r : EvRec) : State :=
  let l := s.mgmt.log ++ [{ r with seq := s.mgmt.lseq }]
  { s with mgmt := { s.mgmt with
      log := if 65536 < l.length then l.drop 1 else l
      lseq := (s.mgmt.lseq + 1) % 4294967296 } }

/-- A major or critical record enters the last-gasp buffer (R501). -/
def gaspAppend (s : State) (r : EvRec) : State :=
  let l := s.mgmt.gasp ++ [r]
  { s with mgmt := { s.mgmt with gasp := if 8 < l.length then l.drop 1 else l } }

/-- A record is posted: stamped, logged, kept for the flash log, and written to each partition's event ring (R498, R529). -/
def postNow (s : State) (p : EvPost) : State :=
  let r := { p.e with time := s.presented, pstate := s.pstate }
  let s := s.logAppend r
  let s := if 2 ≤ r.sev then s.gaspAppend { r with seq := (s.mgmt.lseq + 4294967295) % 4294967296 } else s
  r.parts.foldl (fun s k => s.publishEvt k { p with e := r }) s

/-- A record is posted, or kept while the management firmware does not serve the rings (R486). -/
def post (s : State) (p : EvPost) : State :=
  if s.fw.ready then s.postNow p
  else if s.fw.kept.length < 4096 then { s with fw := { s.fw with kept := s.fw.kept ++ [p] } }
  else p.e.parts.foldl (fun s k => s.updEp k fun e => { e with lostRestart := min (e.lostRestart + 1) 0xFFFFFFFF }) s

/-- An event that is no alarm and no result (R531). -/
def event (s : State) (code sev kind idx : Nat) (detail : List Byte) (parts : List Nat) (raised : Bool := false) : State :=
  s.post { e := { code, sev, raised, kind, idx, detail, time := 0, pstate := 0, parts, seq := 0, flash := false },
           tag := 0, epoch := none, status := 0 }

/-- An alarm of the list with this code, resource kind and index (R496). -/
def sameAlarm (code kind idx : Nat) (a : AlarmSt) : Bool := a.code == code && a.kind == kind && a.idx == idx

/-- An alarm enters the open list, or is counted lost when 256 stand there (R496). -/
def enterAlarm (s : State) (code sev kind idx : Nat) (parts : List Nat) : State :=
  let room := decide ((s.mgmt.alarms.filter (·.listed)).length < 256)
  s.updMgmt fun m => { m with
    alarms := (m.alarms.filter fun a => !sameAlarm code kind idx a) ++
      [{ code, sev, kind, idx, present := true, listed := room, raises := 1, first := s.presented, parts }]
    alarmLost := if room then m.alarmLost else min (m.alarmLost + 1) 0xFFFFFFFF }

/-- An alarm is raised: it enters the open list and is posted, or an open one adds to its raise count, which saturates (R20, R495,
R496). -/
def raiseAlarm (s : State) (code sev kind idx : Nat) (detail : List Byte) (parts : List Nat) : State :=
  if s.mgmt.alarms.any (fun a => sameAlarm code kind idx a && a.listed) then
    s.updMgmt fun m => { m with
      alarms := m.alarms.map fun a =>
        if sameAlarm code kind idx a then { a with present := true, raises := min (a.raises + 1) 0xFFFFFFFF } else a }
  else (s.enterAlarm code sev kind idx parts).event code sev kind idx detail parts true

/-- An alarm clears: it is posted and leaves the open list, a critical one only with ALARM.ACK (R496). -/
def clearAlarm (s : State) (code kind idx : Nat) (detail : List Byte := List.replicate 8 0) : State :=
  match s.mgmt.alarms.find? (fun a => sameAlarm code kind idx a && a.present) with
  | none => s
  | some a =>
    let s := s.updMgmt fun m => { m with
      alarms :=
        if a.sev = 3 ∧ a.listed then m.alarms.map fun b => if sameAlarm code kind idx b then { b with present := false } else b
        else m.alarms.filter fun b => !sameAlarm code kind idx b }
    s.event code a.sev kind idx detail a.parts

/-- Whether an alarm is raised and has not cleared, listed or not. -/
def alarmOpen (s : State) (code kind idx : Nat) : Bool :=
  s.mgmt.alarms.any fun a => sameAlarm code kind idx a && a.present

end State

/-- DETAIL of two values (Tables 16.3 and 17.12): 4 bytes each. -/
def det2 (a b : Nat) : List Byte := leBytes 4 a ++ leBytes 4 b
/-- DETAIL of three values: 2, 2 and 4 bytes. -/
def det3 (a b c : Nat) : List Byte := leBytes 2 a ++ leBytes 2 b ++ leBytes 4 c
/-- DETAIL of one value. -/
def det1 (a : Nat) : List Byte := leBytes 8 a

end Sys2Proof.Machine
end

