-- ==== Sys2Proof/Machine/Package.lean ====
section
/-! DEFINITION. The Colond package (15_boot_identity_update.md): its header and manifest (Tables 15.4 and 15.5), the rules of R472 and the
checks of Table 15.6, and the package that a push has placed in memory (R469, R506). -/

namespace Sys2Proof.Machine

/-- Little-endian value of n bytes of a header at an offset (R470). -/
def pkgField (head : List Byte) (off n : Nat) : Nat := leVal (slice head off n)

/-- NCOMP: the components of a package. -/
def pkgCount (head : List Byte) : Nat := pkgField head 13 1

/-- Header and manifest: what the signature covers (R472). -/
def pkgSigned (head : List Byte) : List Byte := slice head 0 (64 + 48 * pkgCount head)

/-- A manifest entry (Table 15.5). -/
structure CompEntry where
  type : Nat
  cifv : Nat
  off : Nat
  len : Nat
  digest : List Byte
  deriving DecidableEq, Repr

/-- Entry i of the manifest. -/
def compEntry (head : List Byte) (i : Nat) : CompEntry :=
  let at_ := 64 + 48 * i
  { type := pkgField head at_ 2, cifv := pkgField head (at_ + 2) 2, off := pkgField head (at_ + 4) 4, len := pkgField head (at_ + 8) 4
    digest := slice head (at_ + 16) 32 }

/-- The manifest of a package. -/
def manifest (head : List Byte) : List CompEntry := (List.range (pkgCount head)).map (compEntry head)

/-- Two components share a byte. -/
def compsMeet (x y : CompEntry) : Bool := decide (x.off < y.off + y.len) && decide (y.off < x.off + x.len)

/-- No component shares a byte with one after it in the list. -/
def compsApart : List CompEntry → Bool
  | [] => true
  | x :: l => l.all (fun y => !compsMeet x y) && compsApart l

/-- Check 2 of Table 15.6 for a package that stands in a space of `room` bytes: PMAGIC, PFMT, PLEN, NCOMP and the rules of R472. -/
def pkgShape (head : List Byte) (room : Nat) : Bool :=
  let m := manifest head
  let n := fun (t : Nat) => (m.filter fun x => x.type == t).length
  slice head 0 4 == [0x43, 0x4C, 0x4E, 0x44] && pkgField head 4 2 == 1 && decide (pkgField head 8 4 ≤ min room 4194304)
    && decide (1 ≤ pkgCount head) && decide (pkgCount head ≤ 16)
    && n 1 == 1 && n 2 == 1 && decide (n 3 ≤ 1) && decide ((m.map (·.len)).sum ≤ 1835008) && compsApart m
    && m.all fun x => x.off % 4096 == 0 && decide (x.off + x.len ≤ pkgField head 8 4)

/-- The digest of a byte string as it stands in a header. -/
def digestOfBytes (x : List Byte) : List Byte := beBytes 32 (sha256 x).toNat

/-- Check 7 of Table 15.6: every component hashes to its CDIGEST. -/
def compsHash (img : PkgImage) : Bool :=
  (List.range (pkgCount img.head)).all fun i =>
    let x := compEntry img.head i
    digestOfBytes (slice (img.comps.getD i []) 0 x.len) == x.digest

/-- What the device keeps of a package. -/
def pkgInfo (head : List Byte) : PackageInfo :=
  let eng := (manifest head).find? fun x => x.type == 2
  { svn := pkgField head 12 1
    imgVer := BitVec.ofNat 64 (pkgField head 16 8)
    digest := sha256 (pkgSigned head)
    engDigest := BitVec.ofNat 256 (beVal ((eng.map (·.digest)).getD []))
    cifv := BitVec.ofNat 16 ((eng.map (·.cifv)).getD 0)
    recovery := pkgField head 6 2 % 2 == 1 }

/-- The package of a push in memory (R469); a byte that no PUSH.DATA has placed reads as zero (DESIGN CHOICE, log 122). -/
def PushSt.byteAt (x : PushSt) (i : Nat) : Byte :=
  match x.chunks.find? fun c => decide (c.1 ≤ i) && decide (i < c.1 + c.2.length) with
  | some c => c.2.getD (i - c.1) 0
  | none => 0

/-- n bytes of a push from an offset. -/
def PushSt.bytes (x : PushSt) (off n : Nat) : List Byte := (List.range n).map fun i => x.byteAt (off + i)

/-- The package as Gorse reads it from memory. -/
def PushSt.image (x : PushSt) (sigOk : Bool) : PkgImage :=
  let head := x.bytes 0 (64 + 48 * (x.byteAt 13).toNat)
  { head, comps := (manifest head).map fun e => x.bytes e.off e.len, sigOk }

/-! ### The boot header (Table 15.3, R471) -/

/-- A boot header with this write sequence and PREF. -/
def bootHeader (seq : BitVec 32) (prefB : Bool) : List Byte :=
  let body := [0x43#8, 0x4C, 0x42, 0x48] ++ leBytes 4 seq.toNat ++ leBytes 1 prefB.toNat ++ zeros 51
  body ++ leBytes 4 (crc32 body).toNat

/-- A copy is valid when HMAGIC and HCRC32 check. -/
def hdrValid (h : List Byte) : Bool :=
  h.length == 64 && slice h 0 4 == [0x43, 0x4C, 0x42, 0x48] && leVal (slice h 60 4) == (crc32 (slice h 0 60)).toNat

/-- HSEQ of a copy. -/
def hdrSeq (h : List Byte) : BitVec 32 := BitVec.ofNat 32 (leVal (slice h 4 4))

/-- The copy in use: the valid one whose HSEQ is later, compared as a signed difference; `none` when neither is valid (R471). -/
def FwSt.headerInUse (f : FwSt) : Option Bool :=
  if hdrValid f.hdr0 then
    if hdrValid f.hdr1 && decide (0 < (hdrSeq f.hdr1 - hdrSeq f.hdr0).toInt) then some true else some false
  else if hdrValid f.hdr1 then some true else none

/-- A copy of the boot header. -/
def FwSt.headerCopy (f : FwSt) (second : Bool) : List Byte := if second then f.hdr1 else f.hdr0

/-- PREF: slot B is preferred; slot A when neither copy is valid (R471). -/
def FwSt.prefB (f : FwSt) : Bool := match f.headerInUse with
  | some c => leVal (slice (f.headerCopy c) 8 1) == 1
  | none => false

/-- A header write goes to the copy not in use, with the next HSEQ (R471); the sequence starts from 0 where neither copy is valid
(DESIGN CHOICE, log 8). -/
def FwSt.writeHeader (f : FwSt) (prefB : Bool) : FwSt := match f.headerInUse with
  | some c =>
    let h := bootHeader (hdrSeq (f.headerCopy c) + 1) prefB
    if c then { f with hdr0 := h } else { f with hdr1 := h }
  | none => { f with hdr0 := bootHeader 0 prefB }

/-- The first check of Table 15.6 that a package in a space of `room` bytes fails, 0 when it passes all, given whether every flash read
completed; check 8 is made where a recovery package is asked for. -/
def State.verifyCode (s : State) (readOk : Bool) (img : PkgImage) (room : Nat) (recovery : Bool) : Nat :=
  if !readOk then 1
  else if !pkgShape img.head room then 2
  else if sha256 (Machine.slice img.head 32 32) ≠ s.fw.keyHash then 3
  else if !img.sigOk then 4
  else if !((pkgField img.head 24 4).testBit Config.siRev && (pkgField img.head 28 4).testBit Config.variant48.toNat) then 5
  else if (pkgInfo img.head).svn < s.fw.svn then 6
  else if !compsHash img then 7
  else if recovery && !(pkgInfo img.head).recovery then 8
  else 0

end Sys2Proof.Machine
end

