-- ==== Sys2Proof/Machine/LaneBlocks.lean ====
section
/-! DEFINITION. The lane layer of a line lane (12_serial_lanes.md): 130-bit blocks, their headers and marker bits (R384, R385, R390),
the self-synchronising scrambler (R386), the PAM4 mapping (R384), and how the blocks of the stream go over the four lanes (R387). -/

namespace Sys2Proof.Machine

/-! ### Lane markers (R390) -/

/-- MSYNC of a marker. -/
def markerSync : Nat := 0xE4B1
/-- Blocks between markers of a lane (R390). -/
def markerSpan : Nat := 16384
/-- Bits [63:8] of a marker in 7 bytes. -/
def markerBody (m : BitVec 64) : List Byte := beBytes 7 (m.toNat / 256)

/-- The marker of a logical lane with a count (Table 12.1). -/
def laneMarkerWord (lane count : Nat) : BitVec 64 :=
  let m := BitVec.ofNat 64 (markerSync * 2 ^ 48 + lane % 4 * 2 ^ 46 + count % 16777216 * 65536)
  m + (crc8 (markerBody m)).setWidth 64

/-- The marker bit M of block n of an activation on a logical lane: a marker begins every 16,384 blocks from block 0 on, and bit 63 of
its word stands in its first block (R390, R394). -/
def markerBit (lane n : Nat) : Bool := (laneMarkerWord lane (n / markerSpan)).getLsbD (63 - n % markerSpan) && decide (n % markerSpan < 64)

/-! ### The scrambler (R386) -/

/-- One step of the scrambler x^58 + x^39 + 1: a payload bit in, its scrambled bit out; the register holds the scrambled bits, the last
one lowest. -/
def laneScrambleBit (r : BitVec 58) (b : Bool) : Bool × BitVec 58 :=
  let y := b ^^ r.getLsbD 38 ^^ r.getLsbD 57
  (y, (r <<< 1) ||| (BitVec.ofBool y).setWidth 58)

/-- The scrambler over payload bits: the scrambled bits and the register after them. -/
def laneScramble (r : BitVec 58) : List Bool → List Bool × BitVec 58
  | [] => ([], r)
  | b :: l =>
    let (y, r) := laneScrambleBit r b
    let (ys, r) := laneScramble r l
    (y :: ys, r)

/-- The descrambler of the receiver over received payload bits. -/
def laneDescramble (r : BitVec 58) : List Bool → List Bool × BitVec 58
  | [] => ([], r)
  | y :: l =>
    let b := y ^^ r.getLsbD 38 ^^ r.getLsbD 57
    let (bs, r) := laneDescramble ((r <<< 1) ||| (BitVec.ofBool y).setWidth 58) l
    (b :: bs, r)

/-! ### Blocks and symbols (R384, R385) -/

/-- The header of a block with marker bit M: 01 for M = 0, 10 for M = 1. -/
def blockHeader (m : Bool) : List Bool := [m, !m]

/-- The PAM4 level of two bits, the first the most significant, in the Gray coding of IEEE 802.3 (R384). -/
def pam4Level (a b : Bool) : Nat := match a, b with
  | false, false => 0
  | false, true => 1
  | true, true => 2
  | true, false => 3

/-- The bits of a level. -/
def pam4Bits (n : Nat) : List Bool := match n with
  | 0 => [false, false]
  | 1 => [false, true]
  | 2 => [true, true]
  | _ => [true, false]

/-- The symbols of a bit string. -/
def pam4 : List Bool → List Nat
  | a :: b :: l => pam4Level a b :: pam4 l
  | _ => []

/-- Level L of an inverted pair is level 3 − L: the first bit of every symbol is complemented (R388, R395). -/
def invertLevels (inv : Bool) (l : List Nat) : List Nat := if inv then l.map (3 - ·) else l

/-- The 65 symbols of a lane block, and the scrambler register after it. -/
def laneBlock (m : Bool) (r : BitVec 58) (bytes : List Byte) : List Nat × BitVec 58 :=
  let (y, r) := laneScramble r (bitsOf bytes)
  (pam4 (blockHeader m ++ y), r)

/-- What a receiver takes from the symbols of a block: its header and its descrambled bytes. -/
def readBlock (inverted : Bool) (r : BitVec 58) (syms : List Nat) : List Bool × List Byte × BitVec 58 :=
  let bits := (invertLevels inverted syms).flatMap pam4Bits
  let (b, r) := laneDescramble r (bits.drop 2)
  (bits.take 2, packBits b, r)

/-! ### The four lanes (R387) -/

/-- Stream blocks of 16 bytes, four at a time, from lane block n of an activation on: the symbols of each logical lane, and its register
after them. Stream block 4j + l goes on logical lane l. -/
def laneRun (lane : Nat) : Nat → BitVec 58 → List (List Byte) → List Nat × BitVec 58
  | _, r, [] => ([], r)
  | n, r, b :: l =>
    let (x, r) := laneBlock (markerBit lane n) r b
    let (xs, r) := laneRun lane (n + 1) r l
    (x ++ xs, r)

/-- The stream blocks that a logical lane carries of whole groups of four (R387). -/
def laneShare (lane : Nat) (bytes : List Byte) : List (List Byte) :=
  (List.range (bytes.length / 64)).map fun j => slice bytes (64 * j + 16 * lane) 16

/-- The stream bytes of lane blocks taken back from the four logical lanes (R387). -/
def joinShares (lanes : List (List (List Byte))) : List Byte :=
  (List.range (lanes.headD []).length).flatMap fun j => lanes.flatMap fun l => l.getD j []

end Sys2Proof.Machine
end

