-- ==== Sys2Proof/Machine/Power.lean ====
section
/-! DEFINITION. Bracken's own operations (13_power_insertion.md): step currents, ledgers, budgets, wake and release requests,
grants. A ramp ends with the command RAMP_END; the lengths of ramps are timing. -/

namespace Sys2Proof.Machine

/-- The domains a domain depends on directly (Table 1.6). -/
def domDeps (d : Nat) : List Nat :=
  if d = 0 then []
  else if d = 1 ∨ d = 3 then [0]
  else if d = 2 ∨ d = 216 then [1]
  else if d < 68 then [216, 180 + (d - 4) / 4]
  else if d < 132 then [d - 64]
  else if d < 164 then [216, 180 + (d - 132) / 2]
  else [216]

/-- Every domain a domain depends on, the nearest last. -/
def domDepsAll (d : Nat) : List Nat :=
  let l1 := domDeps d
  let l2 := l1.flatMap domDeps
  let l3 := l2.flatMap domDeps
  let l4 := l3.flatMap domDeps
  (l4 ++ l3 ++ l2 ++ l1).eraseDups

/-- Step currents in mA on VCORE, VSL, VSH, VSA, VDRC, VDRQ (Table 13.3). -/
def stepCur (d : Nat) : List Nat :=
  if d = 0 then [0, 0, 0, 0, 0, 0]
  else if d = 1 then [1000, 0, 0, 0, 0, 0]
  else if d = 2 then [4000, 0, 0, 0, 0, 0]
  else if d = 3 then [1000, 0, 4000, 200, 0, 0]
  else if d < 68 then [600, 1000, 0, 250, 0, 0]
  else if d < 132 then [400, 900, 0, 50, 0, 0]
  else if d < 164 then [300, 0, 7300, 80, 0, 0]
  else if d < 180 then [2600, 0, 0, 0, 0, 0]
  else if d < 196 then [5000, 0, 0, 0, 0, 0]
  else if d < 212 then [3200, 0, 0, 0, 0, 0]
  else if d < 216 then [8000, 0, 0, 0, 12500, 17500]
  else if d = 216 then [30000, 0, 0, 0, 0, 0]
  else [2000, 0, 0, 0, 0, 0]

/-- Base allowance in mA (Table 13.3). -/
def baseCur : List Nat := [20000, 0, 0, 800, 0, 0]

/-- Maximum currents in mA of the budgeted rails (Table 13.1). -/
def railMax : List Nat := [400000, 150000, 240000, 25000, 50000, 70000]

/-- Maximum currents in mA of the eight rails (Table 13.1). -/
def railMaxAll : List Nat := railMax ++ [2000, 500]

/-- Nominal voltages in 0.1 mV of the eight rails; VCORE at its fused set point (Table 13.1, R407, R408). -/
def railNominal : List Nat := [6800 + 50 * Config.vcoreN.toNat, 8000, 8500, 12000, 11000, 5000, 18000, 8000]

namespace State

/-- The domain is powered or ramping. -/
def drawing (s : State) (d : Nat) : Bool := (s.pdom d).ph != .off

/-- The domain is powered: ramped up or not yet ramping down (R414). -/
def powered (s : State) (d : Nat) : Bool := d == 0 || (s.pdom d).ph == .on

/-- The domain is powered and out of reset. -/
def alive (s : State) (d : Nat) : Bool := s.powered d && !(s.pdom d).inReset

/-- The endpoint's registers answer: its link is up and its domain runs (R17, R511). -/
def epUp (s : State) (k : Nat) : Bool := (s.ep k).link && s.alive 3

/-! ### Clocks and PLLs (R36 to R38) -/

/-- The fast PLLs (Table 1.7): of the management cluster, the datapath, a channel, a port group, the control endpoints and a stack. The
time PLL stands in Heath with the time clock. -/
inductive Pll where
  | mgmt | core | chan (c : Nat) | port (p : Nat) | pcie | stack (i : Nat)
  deriving DecidableEq, Repr

/-- The domains that need a PLL (Table 1.7): the core PLL serves the spine and whatever depends on it; a channel's upstream domain takes
its transmit clock from the channel PLL of the downstream domain (R38). -/
def Pll.doms : Pll → List Nat
  | .mgmt => [2]
  | .core => (List.range 218).filter fun d => d == 216 || (domDepsAll d).contains 216
  | .chan c => [4 + c]
  | .port p => [132 + p]
  | .pcie => [3]
  | .stack i => [212 + i]

/-- A PLL runs from the grant of the first domain that needs it until the last such domain has gone down (R37); a stack's stops in
self-refresh (R268). -/
def pllRuns (s : State) (x : Pll) : Bool :=
  x.doms.any s.drawing && match x with
    | .stack i => !(Tab.get {} s.mem.stackTab i).selfRefresh
    | _ => true

/-- The clocks of Table 1.7. -/
inductive Clock where
  | aclk | time | gorse | mgmt | datapath | line (c : Nat) | host (p : Nat) | pcie | spill (i : Nat)
  deriving DecidableEq, Repr

/-- A clock runs exactly under the condition of Table 1.7 (R36): the time clock from the end of the COLD stretch, when Heath leaves
reset, until the next COLD reset. -/
def clockRuns (s : State) : Clock → Bool
  | .aclk => true
  | .time => !(s.pdom 0).inReset
  | .gorse => s.powered 1
  | .mgmt => s.powered 2
  | .datapath => Pll.core.doms.any s.powered
  | .line c => s.powered (4 + c)
  | .host p => s.powered (132 + p) && !decide ((Tab.get {} s.ports p).ph = .asleep)
  | .pcie => s.powered 3
  | .spill i => s.powered (212 + i) && !(Tab.get {} s.mem.stackTab i).selfRefresh

/-- Domain absent responses of a target (R455): XB_ABSENT. -/
def absentResponse (s : State) (d n : Nat) : State := s.updPdom d fun p => { p with absent := p.absent + n }

/-- A reservation of an open channel names the domain (R419). -/
def reserved (s : State) (d : Nat) : Bool :=
  s.chans.any fun p => p.2.tc.opened && (d == dsDom p.1 || d == usDom p.1 || (domDepsAll (usDom p.1)).contains d)

/-- Whether a domain counts in the ledgers (R411). -/
def inLedger (s : State) (d : Nat) : Bool := s.drawing d || s.reserved d

/-- The ledgers with some domains counted as well (R411, R413). -/
def ledgersWith (s : State) (ds : List Nat) : List Nat :=
  let doms := (List.range 218).filter fun d => s.inLedger d || ds.contains d
  (List.range 6).map fun r =>
    (doms.map fun d => (stepCur d).getD r 0).sum + (if s.drawing 216 || ds.contains 216 then baseCur.getD r 0 else 0)

/-- The ledgers (R411). -/
def ledgers (s : State) : List Nat := s.ledgersWith []

/-- Rail budget in mA (R412). -/
def railBudget (s : State) (r : Nat) : Nat :=
  let b := Tab.get 0 s.pwr.railBudget r
  if b = 0 then railMax.getD r 0 else b

/-- Slew budget in mA/µs (R412). -/
def slewBudget (s : State) (r : Nat) : Nat :=
  let b := Tab.get 0 s.pwr.slew r
  if b = 0 then 4000 else b

/-- Power budget in force, in W (R412, R424). -/
def budgetW (s : State) : Nat := if s.pwr.insMode then 60 else s.pwr.budgetW

/-- Power total of some ledgers in units of 0.1 µW, with the constant 4.0 W (R411, R412). -/
def powerTotal (s : State) (l : List Nat) : Nat :=
  ((List.range 6).map fun r => l.getD r 0 * Tab.get 0 s.pwr.railV r).sum + 40000000

/-- Whether the ledgers with some more domains are within every budget (R413). -/
def fits (s : State) (ds : List Nat) : Bool :=
  let l := s.ledgersWith ds
  ((List.range 6).all fun r => l.getD r 0 ≤ s.railBudget r) && decide (s.powerTotal l ≤ s.budgetW * 10000000)

/-- The rails a domain draws on are good, VAON among them (R408). -/
def railsGood (s : State) (d : Nat) : Bool :=
  (List.range 6).all fun r => (stepCur d).getD r 0 == 0 || s.pwr.railGood.contains r

/-- Bracken may grant anything but Heath: the card is seated, no emergency shutdown runs and no loss of power good is
outstanding (R409, R423, R427). -/
def mayGrant (s : State) : Bool := s.pwr.seated && s.pwr.emergency == none && !s.pwr.lockout

/-- A domain with those it depends on that are off: what one grant brings up (R33, R413). -/
def wakeSet (s : State) (d : Nat) : List Nat :=
  (domDepsAll d ++ [d]).filter fun e => e != 0 && (s.pdom e).ph != .on && (s.pdom e).ph != .up

/-- A ramp up begins, or a ramp down reverses (R414, R418); the new epoch stands and the fence lifts (R454). -/
def rampUp (s : State) (cls d : Nat) : State :=
  s.updPdom d fun p => { p with ph := .up, cls := cls, wait := false, waitLimit := false, releaseNext := false }

/-- A ramp down begins: the port is fenced and the epoch advances (R453, R454). -/
def rampDown (s : State) (d : Nat) : State :=
  s.updPdom d fun p => { p with ph := .down, releaseNext := false, fenced := true, epoch := p.epoch + 1 }

/-- The waiting request that has waited 1 ms and stops every later grant, the oldest first (R417). -/
def blocker (s : State) : Option Nat := s.pwr.waitQ.find? fun d => (s.pdom d).waitLimit

/-- Whether Bracken can bring the wake set of a domain up now, budgets apart (R408, R446). -/
def canWake (s : State) (d : Nat) : Bool :=
  s.mayGrant && (s.wakeSet d).all fun e => !(s.pdom e).inReset && s.railsGood e

/-- Every domain of a wake set begins its ramp in one class and leaves the waiting queue (R413). -/
def grantWake (s : State) (cls d : Nat) : State :=
  let ds := s.wakeSet d
  let s := ds.foldl (fun s e => s.rampUp cls e) s
  s.updPwr fun p => { p with waitQ := p.waitQ.filter fun e => !ds.contains e }

/-- A request waits for a grant, in arrival order (R417). -/
def queueWake (s : State) (cls d : Nat) : State :=
  if (s.pdom d).wait then s
  else
    let s := s.updPdom d fun p => { p with cls := cls, wait := true }
    s.updPwr fun p => { p with waitQ := p.waitQ ++ [d] }

/-- A wake request of a class: 0 committed, 1 service, 2 opportunistic (R416 to R418). A domain that ramps down reverses its ramp:
its current is in the ledger still. -/
def requestWake (s : State) (cls d : Nat) : State :=
  match (s.pdom d).ph with
  | .on | .up => s.updPdom d fun p => { p with cls := cls, releaseNext := false }
  | .down => if s.canWake d then s.grantWake cls d else if cls = 2 then s else s.queueWake cls d
  | .off =>
    if cls = 0 && s.canWake d then s.grantWake 0 d
    else if cls = 2 then
      if s.canWake d && s.fits (s.wakeSet d) && !s.pwr.overBudget && s.blocker == none then s.grantWake 2 d
      else s.updPdom d fun p => { p with cls := 2 }
    else s.queueWake cls d

/-- A waiting request is withdrawn. -/
def dropWake (s : State) (d : Nat) : State :=
  (s.updPdom d fun p => { p with wait := false, waitLimit := false }).updPwr fun p => { p with
    waitQ := p.waitQ.filter fun e => e != d }

/-- A domain up or ramping that depends on this one (R33). -/
def hasDependent (s : State) (d : Nat) : Bool :=
  (List.range 218).any fun e => (domDeps e).contains d && s.drawing e

/-- A release request (R33, R415, R418). -/
def requestRelease (s : State) (d : Nat) : State :=
  match (s.pdom d).ph with
  | .on => if s.hasDependent d then s.updPdom d fun p => { p with releaseNext := true } else s.rampDown d
  | .up => s.updPdom d fun p => { p with releaseNext := true }
  | .down | .off => if (s.pdom d).wait then s.dropWake d else s

/-- The slew floors in mA/µs times 25: the upstream step currents of every open channel, and of one more (R420). -/
def slewFloor25 (s : State) (more : Nat) (r : Nat) : Nat :=
  ((s.chans.filter fun p => p.2.tc.opened).length + more) * (stepCur 68).getD r 0

end State

end Sys2Proof.Machine
end

