-- ==== Sys2Proof/Machine/Arbiter.lean ====
section
/-! DEFINITION. The arbiters of the buffer banks (07_buffers_arbitration.md): requesters and bases (R270, R274), decision cycles
(R271), the requests of transfers (R249), and the refusals of the spill ports (R276, R277). The data of a transfer moves in State
with the command that asks for it; the arbiters hold which requests still wait for a port and which transfers are under way, and run
with the datapath clock (a DESIGN CHOICE; log 106). -/

namespace Sys2Proof.Machine

/-- Default base priority of a requester (Table 7.5). -/
def defaultBase (n : Nat) : Nat := if n < 16 then 4 else if n < 20 then 3 else if n < 84 then 6 else if n < 116 then 5 else 2
/-- A base held as written plus one, the default where nothing is written (R274). -/
def baseOf (t : Tab Nat) (n : Nat) : Nat := let b := Tab.get 0 t n; if b = 0 then defaultBase n else b - 1

/-- Direction of a requester (Table 7.5): 0 write, 1 read. -/
def dirOf (n : Nat) : Nat := if n < 20 then 0 else 1

/-- The requester after another of its direction, in requester order (R271). -/
def reqAfter (n : Nat) : Nat := if n < 20 then (n + 1) % 20 else 20 + (n - 19) % 100

/-- The domain that a requester belongs to (Table 7.5). -/
def reqDom (n : Nat) : Nat :=
  if n < 16 then sliceDom n else if n < 20 then stackDom (n - 16) else if n < 84 then usDom (n - 20)
  else if n < 116 then portDom (n - 84) else stackDom (n - 116)

/-- The spill port of a requester, 0 to 3 the page readers and 4 to 7 the page writers; none for the others (R276). -/
def spillOf (n : Nat) : Option Nat := if 16 ≤ n ∧ n < 20 then some (n - 16) else if 116 ≤ n then some (n - 112) else none

namespace MemSt

/-- Place of an arbiter's state: its bank and direction. -/
def arbIdx (b dir : Nat) : Nat := 2 * b + dir

/-- The transfer on a port of a bank: none while the port is idle. -/
def port (m : MemSt) (b dir i : Nat) : BankXfer := Tab.get {} m.xfers (2 * arbIdx b dir + i)

/-- Aging of a requester at a bank. -/
def agingOf (m : MemSt) (b n : Nat) : Nat := Tab.get 0 m.aging (120 * b + n)

/-- Effective priority (R271, step 3). -/
def effective (m : MemSt) (b n : Nat) : Nat := min (baseOf m.active n + m.agingOf b n) 15

/-- A spill port that backs off makes no request (R277). -/
def backsOff (m : MemSt) (n : Nat) : Bool := match spillOf n with
  | some i => (Tab.get {} m.ports i).wait != 0
  | none => false

/-- The requesters that take part at a bank for one direction, in requester order: pending, and not holding a port whose transfer goes
on (R271, step 1). -/
def participants (m : MemSt) (b dir : Nat) : List Nat :=
  ((m.reqs.filter fun r => r.bank == b && dirOf r.req == dir && !m.backsOff r.req).map (·.req)).eraseDups.filter fun n =>
    !([0, 1].any fun i => (m.port b dir i).req == n && decide (1 < (m.port b dir i).left))

/-- The winner among some participants: the highest effective priority, and among equal ones the first at or after the round-robin
pointer (R271, steps 2 and 4). -/
def winner (m : MemSt) (b dir : Nat) (l : List Nat) : Option Nat :=
  let turn := fun (n : Nat) => (n + 120 - Tab.get 0 m.pointers (arbIdx b dir)) % 120
  l.foldl (fun w n => match w with
    | none => some n
    | some x =>
      if m.effective b x < m.effective b n ∨ (m.effective b n = m.effective b x ∧ turn n < turn x) then some n else w) none

/-- A port of a bank goes on for one clock: its transfer advances, or the winner of the cycle begins. -/
def portNext (m : MemSt) (b dir i : Nat) (win : Option Nat) : MemSt :=
  match win with
  | some n =>
    let r := m.reqs.find? fun r => r.bank == b && r.req == n
    { m with
      xfers := Tab.set {} m.xfers (2 * arbIdx b dir + i) { req := n, left := (r.map (·.beats)).getD 0 }
      reqs := match r with
        | some r => m.reqs.erase r
        | none => m.reqs }
  | none =>
    let x := m.port b dir i
    { m with xfers := Tab.set {} m.xfers (2 * arbIdx b dir + i) (if x.left ≤ 1 then {} else { x with left := x.left - 1 }) }

/-- Aging after a cycle (R271, step 5): the winners' returns to 0, another participant's grows up to 15 less its base. -/
def age (m : MemSt) (b : Nat) (wins l : List Nat) : MemSt :=
  { m with aging := l.foldl (fun t n =>
      Tab.set 0 t (120 * b + n) (if wins.contains n then 0 else min (m.agingOf b n + 1) (15 - baseOf m.active n))) m.aging }

/-- One clock of an arbiter: a port whose transfer is at its last beat, or that is idle, takes part in a decision cycle, port 0 first
(R271). -/
def arbStep (m : MemSt) (b dir : Nat) : MemSt :=
  let l := m.participants b dir
  let free := fun (i : Nat) => decide ((m.port b dir i).left ≤ 1)
  let w0 := if free 0 then m.winner b dir l else none
  let w1 := if free 1 then m.winner b dir (l.filter fun n => some n != w0) else none
  let wins := [w0, w1].filterMap id
  let m' := if free 0 || free 1 then m.age b wins l else m
  let m' := match wins.getLast? with
    | some n => { m' with pointers := Tab.set 0 m'.pointers (arbIdx b dir) (reqAfter n) }
    | none => m'
  (m'.portNext b dir 0 w0).portNext b dir 1 w1

/-- One datapath clock of every arbiter. -/
def arbClock (m : MemSt) : MemSt :=
  if m.reqs.isEmpty && m.xfers.isEmpty then m
  else (List.range 16).foldl (fun m b => (m.arbStep b 0).arbStep b 1) m

end MemSt

namespace State

/-- n datapath clocks of the arbiters. -/
def arbClocks : Nat → State → State
  | 0, s => s
  | n + 1, s => arbClocks n (s.updMem MemSt.arbClock)

/-- A requester asks the banks of some cells for transfers of 1 to 4 beats each (R249, R270); a number that is no requester asks for
none. -/
def askBanks (s : State) (n : Nat) (cells : List Nat) : State :=
  if 120 ≤ n ∨ cells.isEmpty then s
  else
    let new := (List.range 16).flatMap fun b =>
      let k := cells.count b
      (List.replicate (k / 4) { bank := b, req := n, beats := 4 }) ++ (if k % 4 = 0 then [] else [{ bank := b, req := n, beats := k % 4 }])
    s.updMem fun m => { m with reqs := m.reqs ++ new }

/-- The requests and transfers of a requester's domain, or of a bank's, are gone with it. -/
def dropReqs (s : State) (d : Nat) : State :=
  if s.mem.reqs.isEmpty && s.mem.xfers.isEmpty then s
  else s.updMem fun m => { m with
    reqs := m.reqs.filter fun r => reqDom r.req != d && bankDom r.bank != d
    xfers := m.xfers.filter fun x => reqDom x.2.req != d && bankDom (x.1 / 4) != d }

/-- A spill port's request is refused: it waits 2^k clocks, and k rises (R276, R277). -/
def refuseSpill (s : State) (i : Nat) (q : Option Nat) : State :=
  (s.bumpMem .spillRetry).updMem fun m => { m with
    ports := Tab.upd {} m.ports i fun x => { k := min 10 (x.k + 1), wait := 2 ^ x.k, held := q } }

/-- A spill port's request is accepted (R276). -/
def acceptSpill (s : State) (i : Nat) : State := s.updMem fun m => { m with ports := Tab.set {} m.ports i {} }

/-- A stack refuses spill ports while it retrains or its controller is in a power transition or absent (R276, R457). -/
def stackRefuses (s : State) (i : Nat) : Bool := (Tab.get {} s.mem.stackTab i).retraining || !s.alive (stackDom i)

end State

end Sys2Proof.Machine
end

