-- ==== Sys2Proof/Machine/TimeOps.lean ====
section
/-! DEFINITION. The operations of the time unit (09_time_domains.md) that other chapters set off: the estimate of the error of
presented time (R340), discontinuities, selection and steps (R324 to R327, R330), loss of a domain's source (R323), and
trigger schedules (R333, R334). -/

namespace Sys2Proof.Machine

/-! ### Triggers (R330, R333, R334) -/

/-- Units of a time value in 2^-16 ns. -/
def fracU : Int := 536870912000
/-- The grid of trigger and PPS edges, 100 ps (R314). -/
def onGrid (t : TimeVal) : TimeVal := t - t.emod (psT 100)

namespace TrigSt

/-- k of converter mode: the whole number nearest to 1 ms over PERIOD (R333). -/
def k (x : TrigSt) : Nat := (65536000000 + x.period / 2) / x.period
/-- The trigger gives pulses still. -/
def live (x : TrigSt) : Bool :=
  x.period != 0 && (if x.mode = 0 then x.done == 0 else x.count == 0 || decide (x.done < x.count))
/-- The instant of pulse j of a single or periodic schedule. -/
def instant (x : TrigSt) (j : Nat) : TimeVal := if x.mode = 0 then x.start else x.start + j * (x.period * fracU)
/-- The instant of the pulse j counted from a boundary: exact in k (R333). -/
def convInstant (x : TrigSt) (b : TimeVal) (j : Int) : TimeVal := b + x.offset * fracU + (j * psT 1000000000).ediv x.k
/-- The next instant of the schedule. -/
def next (x : TrigSt) : Option TimeVal :=
  if !x.live then none
  else if x.mode = 2 then x.bound.map fun b => x.convInstant b x.sub
  else if x.mode = 0 ∧ x.idx ≠ 0 then none
  else some (x.instant x.idx)

/-- The least j whose instant is not before p. -/
def indexAt (x : TrigSt) (p : TimeVal) : Nat :=
  if x.mode = 0 then (if x.start < p then 1 else 0)
  else ((p - x.start + (x.period * fracU - 1)).ediv (x.period * fracU)).toNat

/-- The least j counted from a boundary whose instant is not before p. -/
def subAt (x : TrigSt) (b p : TimeVal) : Int :=
  -((-((p - b - x.offset * fracU) * x.k)).ediv (psT 1000000000))

/-- Presented time stands at p after a step or a new start: instants skipped forward are counted, and after a step backward the
schedule resumes at its first instant after p (R330). -/
def resume (x : TrigSt) (fwd : Bool) (p : TimeVal) : TrigSt :=
  if !x.live then x
  else if x.mode = 2 then
    match x.bound with
    | none => x
    | some b =>
      -- no pulse of a boundary before START
      let j := max (x.subAt b p) (-((b - x.start).ediv (psT 1000000000)) * x.k)
      { x with sub := j, ctrSkipped := if fwd then min (x.ctrSkipped + (j - x.sub).toNat) ctrMax else x.ctrSkipped }
  else
    let j := x.indexAt p
    { x with idx := j, ctrSkipped := if fwd then min (x.ctrSkipped + (j - x.idx)) ctrMax else x.ctrSkipped }

end TrigSt

/-! ### Gate lists (R341, R343) -/

namespace GateList

/-- Offset of entry i in the cycle. -/
def off (g : GateList) (i : Nat) : TimeVal := (((g.entries.take i).map (·.2)).sum : Nat) * nsU
/-- The entries that begin before the cycle ends (R341). -/
def count (g : GateList) : Nat := ((List.range g.entries.length).filter fun i => decide (g.off i < g.cycle * nsU)).length
/-- How long entry i lasts: to the next, the last to the cycle end. -/
def dur (g : GateList) (i : Nat) : TimeVal := (if i + 1 < g.count then g.off (i + 1) else g.cycle * nsU) - g.off i
/-- Whether entry i opens class k. -/
def opens (g : GateList) (i k : Nat) : Bool := (g.entries.getD i (0, 0)).1.getLsbD k

/-- The open run of class k from the start of entry i on, over at most n entries; none when it never ends. -/
def run (g : GateList) (k : Nat) : Nat → Nat → Option TimeVal
  | 0, _ => none
  | n + 1, i => if g.opens i k then (g.run k n ((i + 1) % g.count)).map (g.dur i + ·) else some 0

/-- The longest open interval of class k; none when the class is always open. -/
def longest (g : GateList) (k : Nat) : Option TimeVal :=
  (List.range g.count).foldl (fun acc i => match acc, g.run k g.count i with
    | some a, some b => some (max a b)
    | _, _ => none) (some 0)

/-- The entry that stands at presented time p, its place in the cycle counted from BASE (R341). -/
def at_ (g : GateList) (p : TimeVal) : Nat :=
  ((List.range g.count).filter fun i => decide (g.off i ≤ (p - g.base).emod (g.cycle * nsU))).length - 1
/-- Whether some open interval of class k is as long as t (R343). -/
def fits (g : GateList) (k : Nat) (t : TimeVal) : Bool := match g.longest k with | none => true | some l => decide (t ≤ l)

end GateList

namespace State

/-- Egress queue of a MAC and class (R170). -/
def egressQ (m k : Nat) : Nat := 8192 + 8 * m + k

/-- Bit time of a MAC's rate in units of a time value: 0.625 ps in mode 0, doubled in each mode after it (Table 11.1). -/
def bitTime (s : State) (m : Nat) : TimeVal := 21990232555520 * 2 ^ (s.port (m / 8)).mode

/-- Transmission time of a frame of len bytes without FCS (R343, R373). -/
def txTime (s : State) (m len : Nat) : TimeVal := (len + 24 : Nat) * 8 * s.bitTime m

/-- Time in ps for which a frame of len bytes without FCS occupies a MAC (R373). -/
def txPs (s : State) (m len : Nat) : Nat := (len + 24) * 5 * 2 ^ (s.port (m / 8)).mode

/-- A frame of class k that takes t fits an open interval of a list that will run: the running one, or the pending one (R343). -/
def gateFits (s : State) (m k : Nat) (t : TimeVal) : Bool :=
  let fits := fun (g : Option GateList) => match g with | none => true | some g => g.fits k t
  fits (s.mac m).gate || (match (s.mac m).gateNext with | none => false | some n => fits n.1)

/-- The gate list of a MAC stands at the position that presented time gives (R341). -/
def gateAt (x : MacSt) (p : TimeVal) : MacSt := match x.gate with
  | none => x
  | some g => { x with gateIdx := g.at_ p, gateMask := (g.entries.getD (g.at_ p) (0xFF, 0)).1 }

/-- A converter trigger of channel c runs free from its last boundary (R334). -/
def trigFree (s : State) (c : Nat) : State :=
  (List.range 8).foldl (fun s t =>
    let x := s.trig t
    if x.live && x.mode == 2 && x.chan == c && x.bound.isSome && !x.free then
      (s.updTrig t fun x => { x with free := true, ctrFree := min (x.ctrFree + 1) ctrMax }).event 0x4004 0 1 c (det1 t) [x.owner]
    else s) s

/-- A multiframe boundary of channel c in presented time, known at presented time p, aligns its converter triggers. The schedule of a first
boundary resumes after p as one whose start is past (R333); a move of the boundary above 100 ns is a step of the trigger alone (R334). -/
def trigBoundary (s : State) (c : Nat) (b p : TimeVal) : State :=
  (List.range 8).foldl (fun s t =>
    let x := s.trig t
    if x.live && x.mode == 2 && x.chan == c && decide (x.start ≤ b) then
      match x.bound with
      | none => s.updTrig t fun x => { x with bound := some b, sub := 0, free := false }.resume true p
      | some old =>
        -- whole multiframes since the last boundary, to the nearest
        let n := (b - old + psT 500000000).ediv (psT 1000000000)
        let moved := b - (old + n * psT 1000000000)
        let y := { x with bound := some b, sub := x.sub - n * x.k, free := false }
        s.updTrig t fun _ => if psT 100000 < moved ∨ moved < -psT 100000 then y.resume (decide (moved < 0)) p else y
    else s) s

/-! ### Presented time (R325 to R328, R340) -/

/-- The size of a time value. -/
def absT (t : TimeVal) : TimeVal := if t < 0 then -t else t

/-- The estimate E of the error of presented time (R340); none when it is unknown. -/
def estimate (s : State) : Option TimeVal :=
  match s.pstate with
  | 1 => some (5 * nsU + absT s.time.ofs + ((s.dom s.time.active).errs.map fun e => absT (e * fracU)).foldl max 0)
  | 2 => some (s.time.eBase + (if s.time.eSet then 0 else absT s.time.ofs) + ((s.now - s.time.eSince) / 1000000000000 : Nat) * nsU)
  | _ => none

/-- After a change the estimate keeps the value that held when the presented state left 0 or 1 (R340). -/
def keepEstimate (before after : State) : State :=
  if before.pstate = 1 ∧ after.pstate ≠ 1 then
    after.updTime fun t => { t with eBase := before.estimate.getD 0, eSince := before.now, eSet := false }
  else after

/-- Presented time has stepped from p to its present value: triggers and gate lists follow (R330, R341). -/
def presentedStep (s : State) (p : TimeVal) : State :=
  let q := s.presented
  let s := s.updTime fun t => { t with steppedLast := true }
  let s := s.macs.foldl (fun s m => s.updMac m.1 fun x => gateAt x q) s
  (List.range 8).foldl (fun s t => s.updTrig t fun x => x.resume (decide (p < q)) q) s

/-- A time value in whole ns. -/
def inNs (t : TimeVal) : Int := t.tdiv nsU

/-- A discontinuity of the active domain of size d (R325, R326); `k` counts it. The domain's counter has moved already. -/
def discontinuity (s : State) (d : TimeVal) : State :=
  let s := s.updTime fun t => { t with ofs := t.ofs - d, held := false }
  if !s.time.everSet then
    let p := s.presented
    let s := s.updTime fun t => { t with ofs := 0, everSet := true, waiting := false }
    (s.event 0x4001 0 0 0 (sBytes4 (inNs d) ++ sBytes4 0) allParts).presentedStep p
  else
    let s := s.event 0x4001 0 0 0 (sBytes4 (inNs d) ++ sBytes4 (inNs s.time.ofs)) allParts
    if absT s.time.ofs ≤ s.time.stepThr * 1000 * nsU then s.updTime fun t => { t with waiting := false }
    else if s.time.waiting then s
    else
      let s := s.updTime fun t => { t with waiting := true }
      (s.bumpTm s.time.active .resolveWait).event 0x4002 1 0 0 (sBytes4 (inNs s.time.ofs) ++ List.replicate 4 0) [0]
where
  /-- Four bytes, signed, saturating. -/
  sBytes4 (x : Int) : List Byte := leBytes 4 (satS 32 x)

/-- The active domain changes (R325). -/
def setActive (s : State) (d : Nat) : State :=
  if s.time.active = d then s
  else
    let delta := (s.dom d).t - (s.dom s.time.active).t
    let s := s.updTime fun t => { t with active := d }
    (s.bumpTm d .switch).discontinuity delta

/-- The active domain follows MODE and the ranks (R324). -/
def reselect (s : State) : State :=
  match s.time.mode with
  | 0 => s.setActive 0
  | 1 => s.setActive 1
  | _ => if s.rank s.time.active < s.rank (1 - s.time.active) then s.setActive (1 - s.time.active) else s

/-- A large error that waits for its confirmation stays unconfirmed (R322). -/
def dropLarge (s : State) (d : Nat) : State :=
  if (s.dom d).large.isSome then (s.updDom d fun x => { x with large := none }).bumpTm d .annOutlier else s

/-- A domain loses its source and enters HOLDOVER (R323). -/
def loseSource (s : State) (d : Nat) : State :=
  let x := s.dom d
  if x.ph = .locked ∨ x.ph = .acquiring then
    let s' := dropLarge s d
    let s' := s'.updDom d fun y => { y with ph := .holdover, lastSfc := none, goodRun := 0, badRun := 0 }
    let s' := if x.ph = .locked then s'.bumpTm d .lockLoss else s'
    keepEstimate s (((s'.bumpTm d .holdover).event 0x4003 1 0 0 (det1 d) allParts).reselect)
  else s

/-- Every domain bound to the channel loses its source (R323). -/
def chanLosesTime (s : State) (c : Nat) : State :=
  [0, 1].foldl (fun s d => if (s.dom d).chan = some c then s.loseSource d else s) s

end State

end Sys2Proof.Machine
end

