-- ==== Sys2Proof/Machine/QueueOps.lean ====
section
/-! DEFINITION. The operations on queues: cells and banks (R249 to R252), the enqueue tests (R197) and placement (R255), pages
(R256 to R259), buffer pressure (R262), leaving a queue (R199, R204), pause points (R377), shapers (R185, R188) and policers
(R192). -/

namespace Sys2Proof.Machine

/-- Bytes of a frame without FCS. -/
def Frame.len (f : Frame) : Nat := f.bytes.length
/-- Cells a frame takes on-chip (R250). -/
def headCells (l : Nat) : Nat := ceilDiv (l + 32) 256
/-- Record bytes of a frame (R256). -/
def recBytes (l : Nat) : Nat := 16 + 16 * ceilDiv l 16
/-- Cells of a record assembled in the tail: its record bytes in whole cells. -/
def tailCells (l : Nat) : Nat := ceilDiv (recBytes l) 256

namespace QueueSt

/-- Queue bytes (R195). -/
def bytes (x : QueueSt) : Nat := (x.frames.map Frame.len).sum
/-- On-chip share (R254). -/
def share (x : QueueSt) : Nat := ((x.frames.filter fun f => f.place == .head).map Frame.len).sum
/-- On-chip share less the frames a committed plan has claimed (R258). -/
def unclaimedShare (x : QueueSt) : Nat := ((x.frames.filter fun f => f.place == .head && !f.claimed).map Frame.len).sum
/-- Spill and tail are both empty (R254). -/
def resident (x : QueueSt) : Bool := x.frames.all fun f => f.place == .head
/-- The oldest frame that no committed plan has claimed (R201). -/
def headFrame (x : QueueSt) : Option Frame := x.frames.find? fun f => !f.claimed

end QueueSt

/-- MAC offsets that exist in a mode (Table 11.1). -/
def modeHas (mode i : Nat) : Bool := match mode with
  | 0 => i == 0 | 1 => i % 4 == 0 | 2 => i % 2 == 0 | _ => true

namespace State

def macExists (s : State) (m : Nat) : Bool := modeHas (s.port (m / 8)).mode (m % 8)

/-! ### Cells and banks -/

/-- Free cells of the open banks, reserve included (R251, Table 7.9). -/
def freeCells (s : State) : Nat := ((List.range 16).map fun b =>
  if (s.bank b).opened then 24576 - (s.bank b).used else 0).sum
def banksOpen (s : State) : Nat := ((List.range 16).filter fun b => (s.bank b).opened).length
/-- What is left of the 4,096 reserved cells (R252). -/
def reserveFree (s : State) : Nat := 4096 - s.mem.reserveUsed
/-- Free cells outside the reserve (R252, R262). -/
def mainFree (s : State) : Nat := s.freeCells - s.reserveFree
/-- Banks the allocator may place a cell in (R251). -/
def bankReady (s : State) (b : Nat) : Bool := (s.bank b).opened && (s.bank b).used < 24576

/-- One cell from the next such bank in round-robin order (R250). -/
def allocCell (s : State) : Option (Nat × State) :=
  match ((List.range 16).map fun i => (s.mem.nextBank + i) % 16).find? s.bankReady with
  | none => none
  | some b => some (b, (s.updBank b fun x => { x with used := x.used + 1 }).updMem fun m => { m with nextBank := (b + 1) % 16 })

/-- n cells; the banks they lie in. -/
def allocCells : Nat → State → List Nat × State
  | 0, s => ([], s)
  | n + 1, s => match s.allocCell with
    | none => ([], s)
    | some (b, s) => let (bs, s) := allocCells n s; (b :: bs, s)

/-- A closed bank is gated when its last cell is freed (R251). -/
def gateIfEmpty (s : State) (b : Nat) : State :=
  if !(s.bank b).opened && (s.bank b).used == 0 then s.requestRelease (bankDom b) else s

/-- Pressure-spilling begins for a queue that meets R262 while the device is in buffer pressure. -/
def pressureTest (s : State) (q : Nat) : State :=
  let x := s.queue q
  if s.mem.pressure && !x.pressured && x.spillCfg.spill && x.spillCfg.pressure && decide (q < 8192) && decide (32768 ≤ x.share) then
    (s.updQueue q fun x => { x with pressured := true }).bumpQ q .pressureEntries
  else s

/-- Closed banks reopen one at a time while free cells are short (R251), then buffer pressure is entered or left (R262). -/
def cellsChanged (s : State) : State :=
  let s := (List.range 16).foldl (fun s b =>
    if !(s.bank b).opened && decide (s.freeCells * 10 < 24576 * s.banksOpen) then
      let s := s.updBank b fun x => { x with opened := true }
      let s := s.requestWake 1 (bankDom b)
      s.event 0x5002 0 0 0 (det1 b) allParts
    else s) s
  if !s.mem.pressure && decide (s.mainFree < 8192) then
    let s := (s.updMem fun m => { m with pressure := true }).bumpMem .bufPressure
    let s := s.event 0x5003 1 0 0 (det1 s.freeCells) allParts
    s.queues.foldl (fun s p => s.pressureTest p.1) s
  else if s.mem.pressure && decide (16384 < s.mainFree) then
    let s := s.updMem fun m => { m with pressure := false }
    { s with queues := Tab.mapVals {} (fun _ x => { x with pressured := false }) s.queues }
  else s

/-- The cells of a frame are freed. -/
def freeFrame (s : State) (f : Frame) : State :=
  let s := f.cells.foldl (fun s b => (s.updBank b fun x => { x with used := x.used - 1 }).gateIfEmpty b) s
  let s := if f.fromReserve then s.updMem fun m => { m with reserveUsed := m.reserveUsed - f.cells.length } else s
  s.cellsChanged

/-- Cells that the queues and reorder engines of a partition hold (R263). -/
def cellsOf (s : State) (k : Nat) : Nat :=
  ((s.queues.filter fun p => s.queueOwner p.1 == k).map fun p => (p.2.frames.map fun f => f.cells.length).sum).sum
  + ((s.bonds.filter fun p => p.2.owner == k).map fun p =>
      (p.2.held.map fun h => match h.frame with | some f => f.cells.length | none => 0).sum).sum
/-- Pages that the queues of a partition hold in the store (R263). -/
def pagesOf (s : State) (k : Nat) : Nat :=
  ((s.queues.filter fun p => s.queueOwner p.1 == k).map fun p => p.2.pages.length).sum
def quota (s : State) (k i : Nat) : Nat := (s.part k).quotas.getD i 0

/-! ### Pages -/

/-- Pages of one stack (Table 7.4). -/
def stackCap : Nat := if Config.variant48 then 786432 else 1572864
/-- Free pages in usable stacks (R263, Table 7.9). -/
def freePages (s : State) : Nat := ((List.range 4).map fun i =>
  if (s.stack i).failed then 0 else stackCap - (s.stack i).pages).sum
/-- A stack out of self-refresh with its controller ready and not retraining. -/
def stackReady (s : State) (i : Nat) : Bool :=
  !(s.stack i).failed && !(s.stack i).selfRefresh && !(s.stack i).retraining && s.alive (stackDom i)

/-- The stack a page goes to (R257) and whether it can be written at once. -/
def placePage (s : State) (q : Nat) : Option (Nat × Bool) :=
  let room := fun i => !(s.stack i).failed && decide ((s.stack i).pages < stackCap)
  let awake := (List.range 4).filter fun i => room i && !(s.stack i).selfRefresh
  match awake with
  | i :: is => some (is.foldl (fun b i => if (s.stack i).writes < (s.stack b).writes then i else b) i, true)
  | [] => (((List.range 4).map fun i => (q + i) % 4).find? room).map fun i => (i, false)

/-- The page numbers that the pages of a stack have (R256). -/
def pageAddrs (s : State) (i : Nat) : List Nat :=
  s.queues.flatMap fun p => (p.2.pages.filter fun y => y.stack == i).map (·.addr)

/-- The address of a new page: the lowest free page number of the stack (a DESIGN CHOICE; log 107). -/
def freeAddr (s : State) (i : Nat) : Nat :=
  let used := s.pageAddrs i
  ((List.range (used.length + 1)).find? fun n => !used.contains n).getD 0

/-- The offset of the first record header that begins in the page that starts somewhere in the record stream (R256). -/
def firstHeader (x : QueueSt) (start : Nat) : Option Nat :=
  (x.frames.filterMap fun f => match f.place with
    | .stream st _ => if start ≤ st ∧ st < start + 16384 then some (st - start) else none
    | .head => none).min?

/-- The cells that hold the records of a page (R254, R256). -/
def pageCells (x : QueueSt) (start : Nat) : List Nat :=
  ((x.frames.filter fun f => match f.place with
    | .stream st n => decide (st < start + 16384) && decide (start < st + n)
    | .head => false).flatMap (·.cells)).take 64

/-- A stack whose controller is there leaves self-refresh (R268), and its page writer begins the writes of the pages that waited for it,
unless it backs off (R257, R276). -/
def startWrites (s : State) (i : Nat) : State :=
  let s := if s.stackRefuses i then s else s.updStack i fun x => { x with selfRefresh := false }
  if s.stackRefuses i || (Tab.get {} s.mem.ports (4 + i)).wait != 0 then s
  else
    s.queues.foldl (fun s p =>
      (p.2.pages.filter fun y => y.stack == i && y.ph == .waiting).foldl (fun s y =>
        (s.updQueue p.1 fun x => { x with
          pages := x.pages.map fun z => if z.start == y.start then { z with ph := .writing } else z }).askBanks (116 + i)
            (pageCells p.2 y.start)) s) s

/-- A stack is woken for a page (R257, R261): one whose controller is there leaves self-refresh at once. -/
def wakeStack (s : State) (i cls : Nat) : State :=
  let s := s.requestWake cls (stackDom i)
  if (s.stack i).selfRefresh then s.startWrites i else s

/-- The request for a page write is made (R257, R276): accepted, refused, or waiting behind a refused one or for the stack. -/
def askWrite (s : State) (q i : Nat) : State :=
  if (Tab.get {} s.mem.ports (4 + i)).wait != 0 then s
  else if (s.stack i).selfRefresh then s.wakeStack i 1
  else if s.stackRefuses i then s.refuseSpill (4 + i) (some q)
  else s.startWrites i

/-- A page is put on a stack: the stack chosen, a free address there, and its write asked for (R256, R257). -/
def storePage (s : State) (q : Nat) (mk : Nat → Nat → Page) : State :=
  match s.placePage q with
  | none => s
  | some (i, _) =>
    let y := mk i (s.freeAddr i)
    let s := s.updQueue q fun x => { x with pages := (x.pages ++ [y]).mergeSort fun a b => decide (a.start ≤ b.start) }
    (s.updStack i fun x => { x with pages := x.pages + 1, writes := x.writes + 1 }).askWrite q i

/-- Every full page of the tail is formed (R257); one that no stack has room for stays in the tail. -/
def formPages : Nat → Nat → State → State
  | 0, _, s => s
  | n + 1, q, s =>
    let x := s.queue q
    if x.tailStart + 16384 ≤ x.recEnd ∧ (s.placePage q).isSome then
      let s := s.storePage q fun i a =>
        { start := x.tailStart, stack := i, addr := a, seq := x.pageSeq, hdr := firstHeader x x.tailStart, ph := .waiting }
      formPages n q (s.updQueue q fun x => { x with tailStart := x.tailStart + 16384, pageSeq := x.pageSeq + 1 })
    else s

/-- A frame comes to stand in the head with the cells that R250 gives it, those it lacks taken from the reserve; a frame read from the
store is written by the page reader of its stack (R258, R259). -/
def intoHead (s : State) (q : Nat) (via : Nat) (f : Frame) : State :=
  let (cells, s) := allocCells (headCells f.len - f.cells.length) s
  let s := s.updMem fun m => { m with reserveUsed := m.reserveUsed + cells.length }
  let s := s.askBanks via cells
  s.updQueue q fun x => { x with frames := x.frames.map fun g =>
    if g.id == f.id then { g with place := .head, cells := f.cells ++ cells, fromReserve := true } else g }

/-- The tail joins the head once the spill region is empty (R259). -/
def joinTail (s : State) (q : Nat) : State :=
  if (s.queue q).pages.isEmpty then
    let s := ((s.queue q).frames.filter fun f => f.place != .head).foldl (fun s f => s.intoHead q 120 f) s
    s.updQueue q fun x => { x with tailStart := x.recEnd, readEnd := x.recEnd }
  else s

/-! ### Pause points (R377) -/

/-- A frame of len bytes without FCS that begins at an instant occupies the MAC to the end of its gap (R373). -/
def occupy (s : State) (m len start : Nat) : State :=
  s.updMac m fun x => { x with txEnd := max start x.txEnd + s.txPs m len }

/-- The MAC sends a PAUSE or PFC frame for a pause point (R376, R377), at the first frame boundary (R375). -/
def sendPause (s : State) (m prio time : Nat) : State :=
  let x := s.mac m
  if !x.link || (s.port (m / 8)).ph != .awake then s
  else if x.fcMode = 2 ∧ prio < 8 ∧ x.pfcEn.getLsbD prio then
    ((s.emit (.flowCtl m true (BitVec.ofNat 8 (2 ^ prio)) time)).bumpMac m (28 + prio)).occupy m 60 s.now
  else if x.fcMode = 1 then ((s.emit (.flowCtl m false 0 time)).bumpMac m 27).occupy m 60 s.now
  else s

/-- A pause point is asserted or released by the queue bytes of the queues that name it (R377). -/
def updatePoint (s : State) (m prio : Nat) : State :=
  let qs := s.queues.filter fun p => match p.2.fc with
    | some f => f.mac == m && f.prio == prio
    | none => false
  let above := qs.any fun p => match p.2.fc with | some f => decide (f.xoff < p.2.bytes) | none => false
  let under := qs.all fun p => match p.2.fc with | some f => decide (p.2.bytes ≤ f.xon) | none => true
  let x := s.mac m
  if x.fcMode = 0 ∨ 7 < prio then s
  else if !x.asserted.contains prio && above then
    (s.updMac m fun x => { x with asserted := x.asserted ++ [prio] }).sendPause m prio x.quanta
  else if x.asserted.contains prio && under then
    let s := s.updMac m fun x => { x with asserted := x.asserted.filter fun k => k != prio }
    if x.fcMode = 1 && !(s.mac m).asserted.isEmpty then s else s.sendPause m prio 0
  else s

/-- The pause point of a queue is tested after its queue bytes change. -/
def queueChanged (s : State) (q : Nat) : State := match (s.queue q).fc with
  | some f => s.updatePoint f.mac f.prio
  | none => s

/-! ### Enqueue -/

/-- Drop probability of R198. -/
def dropProb (d : DropCfg) (x : Nat) : Nat :=
  if x < d.d.getD 0 0 then 0
  else if d.d.getD 7 0 ≤ x then d.p.getD 7 0
  else
    let i := ((List.range 7).filter fun i => d.d.getD i 0 ≤ x).getLastD 0
    let (d0, d1, p0, p1) := (d.d.getD i 0, d.d.getD (i + 1) 0, d.p.getD i 0, d.p.getD (i + 1) 0)
    if d1 = d0 then p1 else ((p0 : Int) + ((p1 : Int) - p0) * (x - d0 : Nat) / (d1 - d0 : Nat)).toNat

/-- Enqueues are refused (Table 5.8, test 1; R371), by the binding in force (R180). -/
def enqDisabled (s : State) (q : Nat) : Bool :=
  if q < 8192 then
    let x := s.queue q
    x.cfg.alloc == none || !x.cfg.enable
  else
    let m := (q - 8192) / 8
    !s.macExists m || (!(s.mac m).link && !(s.mac m).hold)

/-- Whether a new frame of a queue goes to its tail (R255). -/
def toTail (s : State) (q l : Nat) : Bool :=
  let x := s.queue q
  decide (q < 8192) && x.spillCfg.spill && !(x.resident && decide (x.share + l ≤ x.spillCfg.onMax) && !x.pressured)

/-- The pages that a frame of l bytes would complete in the tail (R263). -/
def completesPages (s : State) (q l : Nat) : Nat := ((s.queue q).recEnd + recBytes l - (s.queue q).tailStart) / 16384

/-- The first test of Table 5.8 that a frame fails, with the draw of test 5 taken. -/
def enqTest (s : State) (q : Nat) (l : Nat) (col : Colour) : Option QCtr × State :=
  let x := s.queue q
  let k := s.queueOwner q
  let tail := s.toTail q l
  let need := if tail then tailCells l else headCells l
  let pages := if tail then s.completesPages q l else 0
  if s.enqDisabled q then (some .dropDisabled, s)
  else if s.quota k 0 < s.cellsOf k + need || decide (pages ≠ 0 ∧ s.quota k 1 < s.pagesOf k + pages) then (some .dropQuota, s)
  else if x.drop.max < x.bytes + l then (some .dropTail, s)
  else if col ≠ .green ∧ x.drop.ymax < x.bytes + l then (some .dropColour, s)
  else
    let early := x.drop.curve && decide ((Config.prng s.draws).toNat < dropProb x.drop x.bytes)
    let s := if x.drop.curve then { s with draws := s.draws + 1 } else s
    if early then (some .dropEarly, s)
    else if if tail then decide (s.reserveFree < need) || decide (s.freePages < pages) else decide (s.mainFree < need) then
      (some .dropNospace, s)
    else (none, s)

/-- The queue bytes after an enqueue may set Q_PEAK_BYTES, which is replaced (Table 5.12). -/
def notePeak (s : State) (q : Nat) : State := s.updQueue q fun x =>
  if x.ctr.get QCtr.peakBytes.ctorIdx < x.bytes then { x with ctr := Tab.set 0 x.ctr QCtr.peakBytes.ctorIdx x.bytes } else x

/-- A frame that has passed the tests is stored in its queue (R250, R255 to R257). -/
def place (s : State) (q : Nat) (f : Frame) : State :=
  let l := f.len
  let tail := s.toTail q l
  let (cells, s) := allocCells (if tail then tailCells l else headCells l) s
  let s := s.askBanks f.via cells
  let x := s.queue q
  let f := { f with id := s.nextFrame, enq := s.now, cells, fromReserve := tail,
                    place := if tail then .stream x.recEnd (recBytes l) else .head }
  let s := { s with nextFrame := s.nextFrame + 1 }
  let s := s.updQueue q fun x => { x with
    frames := x.frames ++ [f]
    recEnd := if tail then x.recEnd + recBytes l else x.recEnd }
  let s := (s.bumpQ q .enqPkts).bumpQ q .enqBytes l
  let s := if tail then
      let s := s.updMem fun m => { m with reserveUsed := m.reserveUsed + cells.length }
      formPages (s.completesPages q 0 + 1) q ((s.bumpQ q .spillFrames).bumpQ q .spillBytes l)
    else s
  (((s.notePeak q).pressureTest q).cellsChanged).queueChanged q

/-- A sleeping group is woken for a cause: 0 the detector, 1 HPORT.WAKE, 2 a frame enqueued (R381). -/
def wakePort (s : State) (p cause : Nat) : State :=
  if (s.port p).ph = .asleep then
    let s := (s.updPort p fun x => { x with ph := .powering, wakeCause := cause, wakeAsked := s.now, grantedAt := 0 }).requestWake 1 (portDom p)
    if (s.pdom (portDom p)).ph = .off then s else s.updPort p fun x => { x with grantedAt := s.now }
  else s

/-! ### Leaving a queue (R199) -/

/-- The frames of a queue that a test selects leave it, their cells freed and counted by the given counting of one. -/
def removeFrames (s : State) (q : Nat) (sel : Frame → Bool) (count : State → Frame → State) : State :=
  let out := (s.queue q).frames.filter sel
  let s := s.updQueue q fun x => { x with frames := x.frames.filter fun f => !sel f }
  let s := out.foldl (fun s f => count (s.freeFrame f) f) s
  s.queueChanged q

/-- A frame departed (Q_DEQ_PKTS, Q_DEQ_BYTES). -/
def countDeq (q : Nat) (s : State) (f : Frame) : State := (s.bumpQ q .deqPkts).bumpQ q .deqBytes f.len

/-- A frame as it goes out of an egress queue is at least 60 bytes long (R81). -/
def wireLen (f : Frame) : Nat := max 60 f.len

/-- A frame at the head of an egress queue is longer than MAX_FRAME (R373). -/
def frameLong (s : State) (q : Nat) (f : Frame) : Bool := decide ((s.mac ((q - 8192) / 8)).maxFrame < wireLen f + 4)

/-- A frame at the head of an egress queue is longer than every open interval of its class (R343). -/
def gateLong (s : State) (q : Nat) (f : Frame) : Bool :=
  let m := (q - 8192) / 8
  !s.gateFits m (q % 8) (s.txTime m (wireLen f))

/-- The frames that reach the head of an egress queue and are too long to be sent are dropped and counted there (R343, R373). -/
def settleHeads (s : State) (q : Nat) : State :=
  let m := (q - 8192) / 8
  let out := (s.queue q).frames.takeWhile fun f => s.frameLong q f || s.gateLong q f
  if q < 8192 ∨ out.isEmpty then s
  else s.removeFrames q (fun f => out.any fun g => g.id == f.id) fun t f =>
    let t := countDeq q t f
    if s.frameLong q f then t.bumpMac m 26 else t.updMac m fun x => { x with gateDrops := min (x.gateDrops + 1) ctrMax }

/-- Frames leave a queue; what then stands at the head of an egress queue has reached it. -/
def takeOut (s : State) (q : Nat) (sel : Frame → Bool) (count : State → Frame → State) : State :=
  (s.removeFrames q sel count).settleHeads q

/-- A frame is enqueued under Table 5.8: stored, or dropped and counted once. -/
def enqueue (s : State) (q : Nat) (f : Frame) : State :=
  match s.enqTest q f.len f.colour with
  | (some k, s) => s.bumpQ q k
  | (none, s) =>
    let s := (s.place q f).settleHeads q
    let m := (q - 8192) / 8
    -- the first frame enqueued wakes a sleeping group under DOWN_POLICY hold (R381)
    if 8192 ≤ q ∧ (s.port (m / 8)).autoWake ∧ (s.mac m).hold then s.wakePort (m / 8) 2 else s

/-- The pages of a queue that hold no byte of a frame are given back. -/
def dropPages (s : State) (q : Nat) : State :=
  let x := s.queue q
  if x.frames.any fun f => f.place != .head then s
  else
    let s := x.pages.foldl (fun s p => s.updStack p.stack fun y => { y with
      pages := y.pages - 1
      writes := if p.ph == .waiting || p.ph == .writing then y.writes - 1 else y.writes }) s
    s.updQueue q fun x => { x with pages := [], tailStart := x.recEnd, readEnd := x.recEnd }

/-- Every frame that no committed plan has claimed is flushed (R204). -/
def flush (s : State) (q : Nat) : State :=
  (s.takeOut q (fun f => !f.claimed) fun s _ => s.bumpQ q .flushed).dropPages q

/-- Every frame is lost with its cells, uncounted: a WARM or COLD reset, or a bank gated in an emergency (Table 5.11). -/
def loseAll (s : State) (q : Nat) : State := (s.takeOut q (fun _ => true) fun s _ => s).dropPages q

/-- The frames whose records meet an interval of the record stream are lost (R266). -/
def loseStream (s : State) (q lo hi : Nat) : State :=
  s.takeOut q
    (fun f => match f.place with
      | .stream st n => decide (st < hi) && decide (lo < st + n)
      | .head => false)
    fun s _ => (s.bumpQ q .spillLost).bumpMem .spillEccDrop

/-- Frames whose records are read whole stand in the head, in staging cells of the reserve (R258). -/
def stageFrames (s : State) (q via : Nat) : State :=
  (s.queue q).frames.foldl (fun s f => match f.place with
    | .stream st n => if st + n ≤ (s.queue q).readEnd then s.intoHead q via f else s
    | .head => s) s

/-! ### Shapers and policers -/

end State

/-- One tick of a bucket: count and fraction, capped at the size (R185). -/
def refill (rate size : Nat) (count : Int) (frac : Nat) : Int × Nat :=
  let f := frac + rate
  let c := count + (f / 156250000 : Nat)
  if (size : Int) ≤ c then (size, 0) else (c, f % 156250000)

/-- The tick of a shaper (R185). -/
def Shaper.tick (h : Shaper) : Shaper :=
  if h.en ∧ 0 < h.rate then
    let (c, f) := refill h.rate h.burst h.count h.frac
    { h with count := c, frac := f }
  else h

/-- The tick of a policer (R192). -/
def PolicerSt.tick (p : PolicerSt) : PolicerSt :=
  let (c, cf) := refill p.cir p.cbs p.tc p.tcFrac
  let (t, tf) := refill p.pir p.pbs p.tp p.tpFrac
  { p with tc := c.toNat, tcFrac := cf, tp := t.toNat, tpFrac := tf }

/-- A shaper command at its apply instant (R188). -/
def Shaper.configure (h : Shaper) (en clear : Bool) (burst rate : Nat) : Shaper :=
  if !en then { en := false, rate := rate, burst := burst, count := 0, frac := 0 }
  else if !h.en then { en := true, rate := rate, burst := burst, count := burst, frac := 0 }
  else
    let (c, f) := if (burst : Int) < h.count then ((burst : Int), 0) else (h.count, h.frac)
    let (c, f) := if clear ∧ c < 0 then (0, 0) else (c, f)
    { en := true, rate := rate, burst := burst, count := c, frac := f }

/-- A charge of counted bytes at commit; a shaper with EN = 0 is not charged (R186, Table 5.3). -/
def Shaper.charge (h : Shaper) (n : Nat) : Shaper := if h.en then { h with count := h.count - n } else h

/-- An enabled shaper with rate 0 halts what it governs (R189). -/
def Shaper.halts (h : Shaper) : Bool := h.en && h.rate == 0

/-- A shaper permits placing a frame (R186). -/
def Shaper.permits (h : Shaper) : Bool := !h.en || decide (1 ≤ h.count)

/-- The colour of a packet of B bytes and the buckets after it (R192). -/
def PolicerSt.meter (p : PolicerSt) (b : Nat) (incoming : Colour) : Colour × PolicerSt :=
  let c := if p.aware then incoming else .green
  if c = .red ∨ p.tp < b then (.red, p)
  else if c = .yellow ∨ p.tc < b then (.yellow, { p with tp := p.tp - b })
  else (.green, { p with tp := p.tp - b, tc := p.tc - b })

/-- Counted length (R175). -/
def counted (adj : Int) (l : Nat) : Nat := ((l : Int) + adj).toNat

namespace State

/-- Whether an upstream queue is halted by its own, its allocation's or its channel's shaper (R189). -/
def haltedNow (s : State) (q : Nat) : Bool :=
  let x := s.queue q
  let c := q / 128
  x.shaper.halts || (s.peak c).halts || (match x.cfg.alloc with
    | some a => (s.alloc (allocIdx c a)).shaper.halts
    | none => false)

/-! ### Bond groups upstream (R237, R238) -/

/-- The channel is in OPERATING: WATCH or DOZE (Table 3.1). -/
def operating (s : State) (c : Nat) : Bool := (s.chan c).tc.opened &&
  ((s.chan c).tc.st == .watch || (s.chan c).tc.st == .doze)

/-- The group of a channel (R234). -/
def groupOf (s : State) (c : Nat) : Option Nat := (s.bonds.find? fun p => p.2.members.contains c).map (·.1)

/-- A member is eligible for local queue l (R237). -/
def bondEligible (s : State) (g l c : Nat) : Bool :=
  let x := s.queue (128 * c + l)
  s.operating c && (s.bond g).queues.contains l && x.cfg.enable && x.cfg.alloc.isSome

/-- A member that has become eligible for none of its group's local queues has no credit (R238). Eligibility stands per local queue and
the credit per member: that a member is ineligible when it is so for all of them is a DESIGN CHOICE (log 103). -/
def bondLapse (s : State) (c : Nat) : State := match s.groupOf c with
  | none => s
  | some g =>
    let i := (s.bond g).members.idxOf c
    if (s.bond g).queues.any (fun l => s.bondEligible g l c) || !(s.bond g).credit.any (fun e => e.1 == i) then s
    else s.updBond g fun b => { b with credit := b.credit.filter fun e => e.1 != i }

/-- The halted state of a queue follows its shapers, and an entry is counted (R189). -/
def updateHalt (s : State) (q : Nat) : State :=
  let h := s.haltedNow q
  let x := s.queue q
  if h && !x.halted then (s.updQueue q fun x => { x with halted := true }).bumpQ q .haltEntries
  else if !h && x.halted then s.updQueue q fun x => { x with halted := false }
  else s

/-- The queues of a channel that an allocation, or the whole channel, halts. -/
def updateHalts (s : State) (c : Nat) : State := (List.range 128).foldl (fun s l => s.updateHalt (128 * c + l)) s

end State

end Sys2Proof.Machine
end

