-- ==== Sys2Proof/Machine/Operands.lean ====
section
/-! DEFINITION. The operand forms of a host command: the fields of its payload (R6, R538), little-endian, by byte offset. -/

namespace Sys2Proof.Machine

/-! ### Payload fields (R6, R538) -/

def u8 (p : List Byte) (i : Nat) : Nat := (p.getD i 0).toNat
def u16 (p : List Byte) (i : Nat) : Nat := leVal (slice p i 2)
def u24 (p : List Byte) (i : Nat) : Nat := leVal (slice p i 3)
def u32 (p : List Byte) (i : Nat) : Nat := leVal (slice p i 4)
def u64 (p : List Byte) (i : Nat) : Nat := leVal (slice p i 8)
def i8 (p : List Byte) (i : Nat) : Int := signedOf 1 (u8 p i)
def i16 (p : List Byte) (i : Nat) : Int := signedOf 2 (u16 p i)
def i32 (p : List Byte) (i : Nat) : Int := signedOf 4 (u32 p i)
def bitAt (p : List Byte) (i b : Nat) : Bool := (p.getD i 0).getLsbD b
/-- A TIME field (R538). -/
def timeAt (p : List Byte) (i : Nat) : TimeVal := mkTime (leVal (slice p i 6)) (u32 p (i + 6)) (u16 p (i + 10))
/-- A signed number in n bytes. -/
def sBytes (n : Nat) (x : Int) : List Byte := leBytes n (satS (8 * n) x)

end Sys2Proof.Machine
end

