-- ==== Sys2Proof/Machine/Host.lean ====
section
/-! DEFINITION. What every host command shares (chapters 17 and 18): its result, reading payload fields, and the checks of
R528, R538 and R539 in their order. -/

namespace Sys2Proof.Machine

/-- The result of applying a command: the state, STATUS (Table 17.10), DETAIL and the reply. -/
structure CmdResult where
  state : State
  status : Nat
  detail : Nat
  reply : List Byte
  deriving DecidableEq, Repr

/-! ### Status codes (Table 17.10) -/

def stOk : Nat := 0x0000
def stPending : Nat := 0x0001
def stBadOpcode : Nat := 0x0010
def stBadParam : Nat := 0x0011
def stNoRight : Nat := 0x0012
def stState : Nat := 0x0013
def stNoResource : Nat := 0x0014
def stBusy : Nat := 0x0015
def stAbandoned : Nat := 0x0016
def stTimeout : Nat := 0x0017
def stInternal : Nat := 0x0020
/-- Not a code: the command applies and has not completed (R90, R550). -/
def stApplying : Nat := 0xFFFF
/-- DETAIL of a header field or of PLEN (R528, R539). -/
def noOff : Nat := 0xFFFFFFFF

/-- OK with a reply. -/
def done (s : State) (reply : List Byte := []) : CmdResult := ⟨s, stOk, 0, reply⟩
/-- A code with no effect (R527). -/
def fail (s : State) (code : Nat) (detail : Nat := 0) : CmdResult := ⟨s, code, detail, []⟩
/-- Accepted; the operation continues (R530). -/
def pending (s : State) : CmdResult := ⟨s, stPending, 0, []⟩

/-- A boolean byte. -/
def bByte (b : Bool) : Byte := if b then 1 else 0

/-- The reserved bytes of a payload that are not zero (R11). -/
def rsvBad (p : List Byte) (rsv : List (Nat × Nat)) : List Nat :=
  rsv.flatMap fun r => (List.range r.2).filterMap fun j => if p.getD (r.1 + j) 0 ≠ 0 then some (r.1 + j) else none

/-- The offset of the first wrong field, among fields with their fault and reserved bytes (R528). -/
def firstBad (p : List Byte) (fields : List (Bool × Nat)) (rsv : List (Nat × Nat)) : Option Nat :=
  ((fields.filterMap fun f => if f.1 then some f.2 else none) ++ rsvBad p rsv).min?

/-- The checks in the order of R528: PLEN (R539), the right (R540) with the index refused, then the payload's fields. -/
def checked (s : State) (plen : Bool) (right : Option Nat) (bad : Option Nat) (k : CmdResult) : CmdResult :=
  if !plen then fail s stBadParam noOff
  else match right with
    | some i => fail s stNoRight i
    | none => match bad with
      | some o => fail s stBadParam o
      | none => k

/-- The index refused unless the resource is the partition's; an index out of range names no resource (R43). -/
def own (owned : Bool) (i : Nat) : Option Nat := if owned then none else some i
/-- Partition 0 only (R540). -/
def right0 (k : Nat) : Option Nat := if k = 0 then none else some 0
/-- The first refusal. -/
def firstOf : List (Option Nat) → Option Nat
  | [] => none
  | some i :: _ => some i
  | none :: l => firstOf l

namespace State

def ownsChan (s : State) (k c : Nat) : Option Nat := own (decide (64 ≤ c) || (s.chan c).owner == k) c
def ownsPort (s : State) (k p : Nat) : Option Nat := own (decide (32 ≤ p) || (s.port p).owner == k) p
def ownsMac (s : State) (k m : Nat) : Option Nat := own (s.macOwner m == k) m
def ownsQueue (s : State) (k q : Nat) : Option Nat := own (decide (10240 ≤ q) || s.queueOwner q == k) q
def ownsLane (s : State) (k l : Nat) : Option Nat := own (decide (512 ≤ l) || s.laneOwner l == k) l
def ownsTrig (s : State) (k t : Nat) : Option Nat := own (decide (8 ≤ t) || (s.trig t).owner == k) t
def ownsCapt (s : State) (k t : Nat) : Option Nat := own (decide (4 ≤ t) || (s.capt t).owner == k) t
/-- A bond group belongs to the owner of its first member's channel; one that is absent belongs to whom it was assigned. -/
def ownsBond (s : State) (k g : Nat) : Option Nat := own (decide (32 ≤ g) || (s.bond g).owner == k) g
/-- An absent LAG group belongs to whom sets it (R247). -/
def ownsLag (s : State) (k g : Nat) : Option Nat := own (decide (64 ≤ g) || (s.lag g).members.isEmpty || (s.lag g).owner == k) g
/-- A local index lies in the partition's quota of an item of Table 16.9 (R507, R540). -/
def inQuota (s : State) (k item i : Nat) : Option Nat := own (decide (i < s.quota k item)) i

end State

/-- Counters of a group in table order, 8 bytes each (R542). -/
def ctrBytes (t : Ctrs) (n : Nat) : List Byte := (List.range n).flatMap fun i => leBytes 8 (Ctrs.get t i)

end Sys2Proof.Machine
end

