-- ==== Sys2Proof/Machine/Queues.lean ====
section
/-! DEFINITION. Queues, allocations, shapers and policers (05_queues_shaping.md): the shaper tick, sampling, and what the
commands of Table 18.4 apply. -/

namespace Sys2Proof.Machine

/-! ### Record rings in host memory (R203, R337) -/

/-- Records of a kind written so far in the second at hand, which the shaper ticks number. That the limit is counted over such
seconds is a DESIGN CHOICE (log 99). -/
def State.recCount (s : State) (ts : Bool) : Nat :=
  let r := Tab.get {} s.recRates ts.toNat
  if r.second = s.now / 10 ^ 12 then r.count else 0

/-- A record is written in the sample or timestamp ring of partition k, or counted lost when the ring is full, the link down, or
50,000,000 have been written in this second; the bytes are made from the loss flag and RSEQ. -/
def State.writeRecord (s : State) (k : Nat) (ts : Bool) (mk : Bool → Nat → List Byte) : State :=
  let e := s.ep k
  let r := if ts then e.ts else e.smp
  let set := fun (r : RecRing) (e : EpSt) => if ts then { e with ts := r } else { e with smp := r }
  if r.base = 0 then s
  else if e.link ∧ (r.pi - r.ci).toNat < 2 ^ r.log2 ∧ s.recCount ts < 50000000 then
    let s := { s with
      recRates := Tab.set {} s.recRates ts.toNat { second := s.now / 10 ^ 12, count := s.recCount ts + 1 } }
    let s := s.emit (.record k ts (mk r.lossFlag r.rseq.toNat))
    let s := s.updEp k (set { r with pi := r.pi + 1, rseq := r.rseq + 1, lossFlag := false })
    (s.writeIndex k).emit (.vector k r.vec)
  else s.updEp k (set { r with lost := min (r.lost + 1) ctrMax, lossFlag := true })

/-- A ring of 2^log2 records is set up, its indices at 0, or stopped with base 0 (R203). -/
def setRing (r : RecRing) (base log2 vec : Nat) : RecRing := { r with base, log2, vec, pi := 0, ci := 0 }

/-- What SAMPLE.RING.SET and TS.RING.SET check and set (R203, R337). -/
def ringSet (ts : Bool) (k : Nat) (p : List Byte) (s : State) : CmdResult :=
  let base := u64 p 0
  checked s (p.length == 12) none
    (firstBad p [(base % 4096 != 0, 0), (base != 0 && (u8 p 8 < 8 || 20 < u8 p 8), 8), (decide (15 < u8 p 9), 9)] [(10, 2)])
    (done ((s.updEp k fun e =>
      if ts then { e with ts := setRing e.ts base (u8 p 8) (u8 p 9) } else { e with smp := setRing e.smp base (u8 p 8) (u8 p 9) })))

def applySampleRingSet (k : Nat) (p : List Byte) (s : State) : CmdResult := ringSet false k p s

/-! ### QUEUE.SET (R172, R173, R180) -/

/-- The configuration last commanded for a queue. -/
def QueueSt.told (x : QueueSt) : QCfg := x.cfgNext.getD x.cfg

/-- The queues of channel c told to serve context a. -/
def State.members (s : State) (c a : Nat) : List Nat :=
  ((List.range 128).map fun l => 128 * c + l).filter fun q => (s.queue q).told.alloc == some a

/-- A new configuration is in force; leaving an allocation clears the deficit counter (R178). -/
def State.putCfg (s : State) (q : Nat) (new : QCfg) : State :=
  let old := (s.queue q).cfg
  let s := match old.alloc with
    | some a => if new.alloc = some a then s
        else s.updAlloc (allocIdx (q / 128) a) fun x => { x with dc := x.dc.set old.member 0 }
    | none => s
  ((s.updQueue q fun x => { x with cfg := new, cfgNext := none }).updateHalt q).bondLapse (q / 128)

/-- Whether a channel plans upstream frames now, so that a change of service waits for the next window 0 plan (R180). -/
def State.planning (s : State) (c : Nat) : Bool := match (s.chan c).tc.st with
  | .ranging | .watch | .doze => (s.chan c).tc.opened
  | _ => false

/-- A QUEUE.SET that passed its checks: what waits for a window 0 plan and what takes effect now (R180). -/
def State.setQueue (s : State) (q : Nat) (new : QCfg) : State :=
  if s.planning (q / 128) then
    let old := (s.queue q).cfg
    s.updQueue q fun x => { x with
      cfg := { old with adj := new.adj, discard := new.discard, enable := old.enable || new.enable }
      cfgNext := some new }
  else s.putCfg q new

def applyQueueSet (k : Nat) (p : List Byte) (s : State) : CmdResult :=
  let q := u16 p 0
  let a := u8 p 2
  let new : QCfg := { alloc := if a = 255 then none else some a, member := u8 p 3, weight := u16 p 4, flow := u8 p 6,
                      adj := i16 p 8, discard := u8 p 7 == 1, enable := u8 p 10 == 1 }
  let others := (s.members (q / 128) a).filter fun r => r != q
  checked s (p.length == 12) (s.ownsQueue k q)
    (firstBad p [(decide (8192 ≤ q), 0), (decide (63 < a) && a != 255, 2), (decide (7 < u8 p 3), 3), (decide (1 < u8 p 7), 7),
      (decide (new.adj < -64) || decide (255 < new.adj), 8), (decide (1 < u8 p 10), 10)] [(11, 1)])
    (if a ≠ 255 ∧ 8 ≤ others.length then fail s stNoResource
     else if a ≠ 255 ∧ others.any fun r => (s.queue r).told.member == new.member then fail s stBadParam 3
     else if a ≠ 255 ∧ Tab.get .none (s.chan (q / 128)).trib.binds a ≠ .none then fail s stState
     else done (s.setQueue q new))

/-! ### Shapers (R184 to R189) -/

def burstBad (p : List Byte) (i : Nat) : Bool := u32 p i == 0 || decide (16777215 < u32 p i)
def rateBad (p : List Byte) (i : Nat) : Bool := decide (100000000000 < u64 p i)

/-- The shaper fields at bytes 2 to 15 of a shaper command. -/
def shaperFields (p : List Byte) : List (Bool × Nat) :=
  [(decide (1 < u8 p 2), 2), (decide (1 < u8 p 3), 3), (burstBad p 4, 4), (rateBad p 8, 8)]

/-- The shaper as a shaper command leaves it. -/
def shaperFrom (p : List Byte) (h : Shaper) : Shaper := h.configure (u8 p 2 == 1) (u8 p 3 == 1) (u32 p 4) (u64 p 8)

def applyQueueShaperSet (k : Nat) (p : List Byte) (s : State) : CmdResult :=
  let q := u16 p 0
  checked s (p.length == 16) (s.ownsQueue k q) (firstBad p ((decide (8192 ≤ q), 0) :: shaperFields p) [])
    (done ((s.updQueue q fun x => { x with shaper := shaperFrom p x.shaper }).updateHalt q))

def applyAllocShaperSet (k : Nat) (p : List Byte) (s : State) : CmdResult :=
  let c := u8 p 0
  let a := u8 p 1
  checked s (p.length == 16) (s.ownsChan k c)
    (firstBad p ((decide (63 < c), 0) :: (decide (63 < a), 1) :: shaperFields p) [])
    (done ((s.updAlloc (allocIdx c a) fun x => { x with shaper := shaperFrom p x.shaper }).updateHalts c))

def applyChanPeakSet (k : Nat) (p : List Byte) (s : State) : CmdResult :=
  let c := u8 p 0
  checked s (p.length == 16) (s.ownsChan k c) (firstBad p ((decide (63 < c), 0) :: shaperFields p) [(1, 1)])
    (done ((s.updPeak c (shaperFrom p)).updateHalts c))

/-- Every enabled shaper and every policer refills (R185, R192). -/
def State.tickBuckets (s : State) : State :=
  { s with
    queues := Tab.mapVals {} (fun _ x => { x with shaper := x.shaper.tick }) s.queues
    allocs := Tab.mapVals {} (fun _ x => { x with shaper := x.shaper.tick }) s.allocs
    peaks := Tab.mapVals {} (fun _ x => x.tick) s.peaks
    policers := Tab.mapVals {} (fun _ x => x.tick) s.policers }

/-! ### The other commands of queues (Table 18.4) -/

def applyQueueDropSet (k : Nat) (p : List Byte) (s : State) : CmdResult :=
  let q := u16 p 0
  let d := (List.range 8).map fun i => u64 p (20 + 8 * i)
  let pr := (List.range 8).map fun i => u32 p (84 + 4 * i)
  let max := u64 p 4
  checked s (p.length == 116) (s.ownsQueue k q)
    (firstBad p ([(decide (10240 ≤ q), 0), (decide (1 < u8 p 2), 2), (decide (2 ^ 40 - 1 < max), 4), (decide (max < u64 p 12), 12)]
      ++ ((List.range 8).map fun i => (decide (max < d.getD i 0) || (i != 0 && decide (d.getD i 0 < d.getD (i - 1) 0)), 20 + 8 * i))
      ++ ((List.range 8).map fun i => (decide (65536 < pr.getD i 0), 84 + 4 * i))) [(3, 1)])
    (done (s.updQueue q fun x => { x with drop := { max, ymax := u64 p 12, curve := u8 p 2 == 1, d := d, p := pr } }))

def applyQueueSampleSet (k : Nat) (p : List Byte) (s : State) : CmdResult :=
  let q := u16 p 0
  let per := u32 p 4
  checked s (p.length == 16) (s.ownsQueue k q)
    (firstBad p [(decide (10240 ≤ q), 0), (decide (1 < u8 p 2), 2), (decide (1000000 < per), 4), (decide (max per 1 ≤ u32 p 8), 8),
      (u16 p 12 == 0, 12)] [(3, 1), (14, 2)])
    (done (s.updQueue q fun x => { x with
      samp := { post := u8 p 2 == 1, period := per, phase := u32 p 8, base := u16 p 12 } }))

def applyQueueSpillSet (k : Nat) (p : List Byte) (s : State) : CmdResult :=
  let q := u16 p 0
  checked s (p.length == 8) (s.ownsQueue k q)
    (firstBad p [(decide (8192 ≤ q), 0), (decide (1 < u8 p 2), 2), (decide (1 < u8 p 3), 3),
      (decide (u32 p 4 < 32768) || decide (16777216 < u32 p 4), 4)] [])
    (done ((s.updQueue q fun x => { x with
      spillCfg := { spill := u8 p 2 == 1, pressure := u8 p 3 == 1, onMax := u32 p 4 }
      pressured := x.pressured && u8 p 2 == 1 && u8 p 3 == 1 }).pressureTest q))

/-- QUEUE.FC.SET: priority none names no pause point (R377). -/
def applyQueueFcSet (k : Nat) (p : List Byte) (s : State) : CmdResult :=
  let q := u16 p 0
  let prio := u8 p 3
  checked s (p.length == 20) (firstOf [s.ownsQueue k q, s.ownsMac k (u8 p 2)])
    (firstBad p [(decide (8192 ≤ q), 0), (decide (7 < prio) && prio != 255, 3),
      (prio != 255 && decide (u64 p 4 ≤ u64 p 12), 12)] [])
    (let old := (s.queue q).fc
     let s := s.updQueue q fun x => { x with fc := some { mac := u8 p 2, prio, xoff := u64 p 4, xon := u64 p 12 } }
     let s := match old with
       | some f => s.updatePoint f.mac f.prio
       | none => s
     done (s.queueChanged q))

def applyQueueFlush (k : Nat) (p : List Byte) (s : State) : CmdResult :=
  let q := u16 p 0
  checked s (p.length == 2) (s.ownsQueue k q) (firstBad p [(decide (10240 ≤ q), 0)] []) (done (s.flush q))

/-- A shaper as a shaper command names it, clear-debt read as 0 (R541). -/
def shaperBytes (h : Shaper) : List Byte := [bByte h.en, 0] ++ leBytes 4 h.burst ++ leBytes 8 h.rate

/-- The configuration record of a queue (R534, R552). -/
def queueRecord (s : State) (q : Nat) : List Byte :=
  let x := s.queue q
  let g := x.told
  let up := q < 8192
  let z := fun (b : List Byte) => if up then b else zeros b.length
  z (leBytes 2 q ++ leBytes 1 (g.alloc.getD 255) ++ leBytes 1 g.member ++ leBytes 2 g.weight
      ++ leBytes 1 g.flow ++ [bByte g.discard] ++ sBytes 2 g.adj ++ [bByte g.enable, 0])
  ++ z (leBytes 2 q ++ shaperBytes x.shaper)
  ++ leBytes 2 q ++ [bByte x.drop.curve, 0] ++ leBytes 8 x.drop.max ++ leBytes 8 x.drop.ymax
  ++ (x.drop.d.flatMap (leBytes 8)) ++ (x.drop.p.flatMap (leBytes 4))
  ++ leBytes 2 q ++ [bByte x.samp.post, 0] ++ leBytes 4 x.samp.period ++ leBytes 4 x.samp.phase ++ leBytes 2 x.samp.base ++ zeros 2
  ++ z (leBytes 2 q ++ [bByte x.spillCfg.spill, bByte x.spillCfg.pressure] ++ leBytes 4 x.spillCfg.onMax)
  ++ z (match x.fc with
      | some f => leBytes 2 q ++ leBytes 1 f.mac ++ leBytes 1 f.prio ++ leBytes 8 f.xoff ++ leBytes 8 f.xon
      | none => leBytes 2 q ++ [0, 255] ++ zeros 16)

def applyQueueGet (k : Nat) (p : List Byte) (s : State) : CmdResult :=
  let q := u16 p 0
  let n := u16 p 2
  let qs := (List.range n).map (q + ·)
  checked s (p.length == 4) (if 348 < n then s.ownsQueue k q else firstOf (qs.map (s.ownsQueue k)))
    (firstBad p [(decide (10240 ≤ q), 0), (n == 0 || decide (348 < n) || decide (10240 < q + n), 2)] [])
    (done s (qs.flatMap (queueRecord s)))

def applyQueueStatsGet (k : Nat) (p : List Byte) (s : State) : CmdResult :=
  let q := u16 p 0
  checked s (p.length == 3) (s.ownsQueue k q) (firstBad p [(decide (10240 ≤ q), 0), (decide (1 < u8 p 2), 2)] [])
    (let r := ctrBytes (s.queue q).ctr (if q < 8192 then 21 else 15)
     done (if u8 p 2 = 1 then s.updQueue q fun x => { x with ctr := Tab.set 0 [] QCtr.peakBytes.ctorIdx x.bytes } else s) r)

def applyQueueLatGet (k : Nat) (p : List Byte) (s : State) : CmdResult :=
  let q := u16 p 0
  checked s (p.length == 3) (s.ownsQueue k q) (firstBad p [(decide (10240 ≤ q), 0), (decide (1 < u8 p 2), 2)] [])
    (let l := (s.queue q).lat
     done (if u8 p 2 = 1 then s.updQueue q fun x => { x with lat := {} } else s)
       (([l.dMin, l.dMax, l.dSum, l.sMin, l.sMax, l.sSum, l.samples].flatMap (leBytes 8)) ++ ctrBytes l.bins 16))

def applyAllocSet (k : Nat) (p : List Byte) (s : State) : CmdResult :=
  let c := u8 p 0
  let w := u8 p 2 == 1
  checked s (p.length == 3) (s.ownsChan k c)
    (firstBad p [(decide (63 < c), 0), (decide (63 < u8 p 1), 1), (decide (1 < u8 p 2), 2)] [])
    (done (s.updAlloc (allocIdx c (u8 p 1)) fun x =>
      if s.planning c then { x with weightedNext := some w } else { x with weighted := w, weightedNext := none }))

/-- The configuration record of an allocation context (R534). -/
def allocRecord (s : State) (c a : Nat) : List Byte :=
  let x := s.alloc (allocIdx c a)
  leBytes 1 c ++ leBytes 1 a ++ [bByte (x.weightedNext.getD x.weighted), 0] ++ leBytes 1 c ++ leBytes 1 a ++ shaperBytes x.shaper

def applyAllocGet (k : Nat) (p : List Byte) (s : State) : CmdResult :=
  checked s (p.length == 2) (s.ownsChan k (u8 p 0))
    (firstBad p [(decide (63 < u8 p 0), 0), (decide (63 < u8 p 1), 1)] []) (done s (allocRecord s (u8 p 0) (u8 p 1)))

/-! ### Policers (R191 to R194) -/

def polAct (n : Nat) : PolAct := match n with
  | 0 => .pass | 1 => .mark | _ => .drop

def applyPolicerSet (k : Nat) (p : List Byte) (s : State) : CmdResult :=
  let i := u16 p 0
  let (cir, pir, cbs, pbs) := (u64 p 8, u64 p 16, u32 p 24, u32 p 28)
  checked s (p.length == 32) (s.inQuota k 5 i)
    (firstBad p [(decide (1 < u8 p 2), 2), (decide (1 < u8 p 3), 3), (decide (2 < u8 p 4), 4), (decide (2 < u8 p 5), 5),
      (decide (2 < u8 p 6), 6), (rateBad p 8 || decide (pir < cir), 8), (rateBad p 16, 16), (burstBad p 24, 24),
      (burstBad p 28, 28)] [(7, 1)])
    (done (s.updPolicer (partIdx k i) fun x => { x with
      aware := u8 p 2 == 1, deiYellow := u8 p 3 == 1, actG := polAct (u8 p 4), actY := polAct (u8 p 5), actR := polAct (u8 p 6)
      cir := cir, pir := pir, cbs := cbs, pbs := pbs, tc := min x.tc cbs, tp := min x.tp pbs }))

def applyPolicerStatsGet (k : Nat) (p : List Byte) (s : State) : CmdResult :=
  let i := u16 p 0
  checked s (p.length == 3) (s.inQuota k 5 i) (firstBad p [(decide (1 < u8 p 2), 2)] [])
    (done (if u8 p 2 = 1 then s.updPolicer (partIdx k i) fun x => { x with ctr := [] } else s)
      (ctrBytes (s.policer (partIdx k i)).ctr 7))

/-! ### Sampling (R200 to R203) -/

/-- The histogram bin of a sojourn (Table 5.9). -/
def sojournBin (base soj : Nat) : Nat := if soj < base then 0 else min 15 (Nat.log2 (soj / base) + 1)

/-- A sample enters the record (R202). -/
def LatRec.note (l : LatRec) (base depth soj : Nat) : LatRec :=
  { dMin := if l.samples = 0 then depth else min l.dMin depth
    dMax := max l.dMax depth
    dSum := min (l.dSum + depth) ctrMax
    sMin := if l.samples = 0 then soj else min l.sMin soj
    sMax := max l.sMax soj
    sSum := min (l.sSum + soj) ctrMax
    samples := min (l.samples + 1) ctrMax
    bins := l.bins.add (sojournBin base soj) 1 }

/-- A queue is sampled (R200 to R203). A queue that holds claimed frames alone has no head: its sojourn is 0, and the sample is not
marked empty, since the queue is not (a DESIGN CHOICE; log 100). -/
def doQueueSample (q : Nat) (s : State) : State :=
  let x := s.queue q
  if x.samp.period = 0 then s
  else
    let depth := x.bytes
    let soj := match x.headFrame with
      | some f => (s.now - f.enq) / 6400
      | none => 0
    let spilled : Bool := match x.headFrame with
      | some f => f.place != .head
      | none => false
    let s' := s.updQueue q fun x => { x with lat := x.lat.note x.samp.base depth soj }
    if x.samp.post then
      s'.writeRecord (s.queueOwner q) false fun lost rseq =>
        leBytes 2 q ++ leBytes 1 ((if lost then 8 else 0) + (if 0xFFFFFFFF < soj then 4 else 0)
          + (if spilled then 2 else 0) + (if x.frames.isEmpty then 1 else 0)) ++ [0]
        ++ leBytes 4 (min soj 0xFFFFFFFF) ++ leBytes 8 depth ++ leBytes 6 s.presented.sec ++ leBytes 4 s.presented.ns
        ++ zeros 2 ++ leBytes 4 rseq
    else s'

/-- QUEUE_SAMPLE (R200). -/
def execQueueSample (q : QueueId) (s : State) : Host.Outcome State Fault Refusal := .next (doQueueSample q s)

end Sys2Proof.Machine
end

