-- ==== Sys2Proof/Machine/TcOps.lean ====
section
/-! DEFINITION. The operations of the terminal controller (03_activation_ranging.md): state changes (R95 to R98), the terminal
context (R94), profile epochs (R105), the upstream TCM queue (R109 to R112), alarms to the head end (R133), early wakes (R123),
and what a change of state does to bursts (R124, R167). -/

namespace Sys2Proof.Machine

/-- Code of a terminal state (Table 17.14). -/
def TState.code : TState → Nat
  | .listen => 1 | .locked => 2 | .announced => 3 | .ranging => 4 | .watch | .doze => 5 | .holdover => 6 | .silenced => 7

/-- Why a channel changes state (R98). The spec gives the cause no code: `causeCode` is free. -/
inductive Cause where
  | opened | closed | reset | ready | identSent | assigned | ranged | timer | lockLost | returned | returnFailed
  | deactivated (reason : Nat) | silenced | guard | unsilenced
  deriving DecidableEq, Repr

/-- The number the device reports for a cause: a free value (R98 names none). -/
def causeCode (x : Cause) : Nat := (Config.open64 1 x.ctorIdx).toNat % 4294967296

/-- What CHAN_STATE says of a change: the states and the cause, after it the head end's REASON of a DEACTIVATE, which is reported
and not interpreted (Table 3.6, Table 17.14). The place of REASON is a DESIGN CHOICE (log 95). -/
def Cause.detail (x : Cause) (old new : Nat) : List Byte :=
  det3 old new (causeCode x) ++ match x with
    | .deactivated r => [BitVec.ofNat 8 r]
    | _ => []

/-- An epoch with all four profiles (R105). -/
def Epoch.complete (e : Epoch) : Bool := (List.range 4).all fun i => e.profs.any fun p => p.1 == i

/-- The lane word of coded data word d of a burst whose header leaves at word w: parity words are counted (R146, R285). -/
def laneWord (fec : Bool) (w d : Nat) : Nat := if fec then w + 17 * (d / 16) + d % 16 else w + d

/-- Data words that precede the bodies: header, control field and reports (R149). -/
def Burst.overhead (b : Burst) : Nat :=
  4 + (if b.grants.any (·.ctrl) || b.kind != .data then 3 else 0) + ceilDiv (4 * (b.grants.filter (·.rpt)).length) 16

/-- Word of the burst header (Table 4.1). -/
def Burst.hdrWord (b : Burst) : Nat := b.start + b.prof.guard + b.prof.preLen + 4

/-- The frames of a body with the byte offset of each header after body byte 16. -/
def segOffsets : Nat → List TxSeg → List (TxSeg × Nat)
  | _, [] => []
  | o, g :: l => (g, o) :: segOffsets (o + g.span) l

/-- Every segment of a burst with the lane word that holds the first byte of its header (R285). -/
def Burst.segWords (b : Burst) : List (TxSeg × Nat) :=
  ((b.grants.zip b.segs).foldl (fun (acc : Nat × List (TxSeg × Nat)) gs =>
    let here := (segOffsets 16 gs.2).map fun so => (so.1, laneWord b.prof.fec b.hdrWord (acc.1 + so.2 / 16))
    (acc.1 + gs.1.body, acc.2 ++ here)) (b.overhead, [])).2

/-- Severity of an ALARM.RPT code (Table 3.9). -/
def rptSev (code : Nat) : Nat := [0, 1, 2, 0, 2, 1, 3, 0].getD code 0

namespace State

/-- The frame in progress has this SFC (Table 2.5). -/
def curSfc (s : State) (c : Nat) : Option (BitVec 48) := (s.chan c).rx.cur.map (·.sfc)
/-- Frame lock and multiframe alignment both hold (R61). -/
def synced (s : State) (c : Nat) : Bool := (s.chan c).rx.lock && (s.chan c).rx.aligned
/-- A complete profile epoch is held (R105). -/
def hasEpoch (s : State) (c : Nat) : Bool := (s.chan c).tc.epochs.any Epoch.complete
/-- Either silence latch is set (R127). -/
def latched (s : State) (c : Nat) : Bool := (s.chan c).heath.headLatch || (s.chan c).heath.guardLatch
/-- The owner of a channel, as the partitions an event of it goes to (R43). -/
def chanParts (s : State) (c : Nat) : List Nat := [(s.chan c).owner]

/-- An event of channel c to its owner (Table 17.12, RKIND 1). -/
def chanEvent (s : State) (c code sev : Nat) (detail : List Byte) (raised : Bool := false) : State :=
  s.event code sev 1 c detail (s.chanParts c) raised

/-- CHAN_STATE (R98). -/
def postChanState (s : State) (c old new : Nat) (x : Cause) : State := s.chanEvent c 0x2010 0 (x.detail old new)

/-- A channel that leaves OPERATING ends its doze, if any, and wakes from its sleep (R123); its domain and its converter
triggers go on without it (R323, R334). -/
def leaveOperating (s : State) (c : Nat) : State :=
  let slept := (s.chan c).tc.doze.any fun d => !d.awake
  let s := s.updTc c fun t => { t with doze := none, wakeNext := false }
  let s := if slept then s.requestWake 0 (dsDom c) else s
  ((s.chanLosesTime c).trigFree c).bondLapse c

/-- The channel takes a state and posts CHAN_STATE when Table 17.14 shows a change; the lock alarm clears on LOCKED (R98,
Table 3.2). WATCH and DOZE are one state there. -/
def setState (s : State) (c : Nat) (new : TState) (x : Cause) : State :=
  let old := if (s.chan c).tc.opened then (s.chan c).tc.st.code else 0
  let s := s.updTc c fun t => { t with opened := true, st := new }
  let s := if new = .watch ∨ new = .doze then s else s.leaveOperating c
  let s := if old = new.code then s else s.postChanState c old new.code x
  if new = .locked then s.clearAlarm 0x2011 1 c else s

/-- The alarm of suspect keys follows the registers (Table 3.9, R297). -/
def anySuspect (k : ChanKeys) : Bool :=
  k.ds1.suspect || k.ds2.suspect || k.us1.suspect || k.us2.suspect || k.bc.suspect || k.pend.suspect

/-- The keys of a channel are marked suspect or erased while a burst is under way: each of its segments under a key that has not
begun to leave is sent as fill, and its frame is dropped (R299). That a segment reaches the cipher with its header word is a
DESIGN CHOICE (log 98). -/
def fillKeyed (s : State) (c : Nat) : State :=
  ((s.chan c).us.bursts.filter fun b => b.phase == .underWay).foldl (fun s b =>
    let late := (b.segWords.filter fun x => !x.1.filled && x.1.keyIdx != 0 && decide (s.now < b.tLane + x.2 * 160)).map (·.1)
    let s := late.foldl (fun s g => (s.takeOut g.q (fun f => f.id == g.fid) (countDeq g.q)).bump c .ckUsKeyFill) s
    let fill := fun (g : TxSeg) => if late.contains g then { g with filled := true } else g
    s.updUs c fun u => { u with bursts := u.bursts.map fun x => if x.id == b.id then { x with segs := x.segs.map (·.map fill) } else x }) s

/-- Every key register is EMPTY, and HIGH with them (R287, R296). -/
def clearKeys (s : State) (c : Nat) : State :=
  ((s.fillKeyed c).updKeys c fun _ => {}).clearAlarm 0x2004 1 c

/-- The terminal context is cleared, and BSEQ with it (R94, Table 4.4). -/
def clearContext (s : State) (c : Nat) : State :=
  ((s.clearKeys c).updUs c fun u => { u with holAt := none }).updTc c fun t => { t with
    tid := 0, defAlloc := none, defFrom := 0, eqd := 0, eqdNext := [], allocs := [], allocNext := [], flows := [],
    flowNext := none, dups := [], upQ := [], await := [], revoke := none, doze := none, sleepAt := none, wakeNext := false,
    mute := none, bseq := 0 }

/-- The profile epochs are dropped (R96). -/
def dropEpochs (s : State) (c : Nat) : State := s.updTc c fun t => { t with epochs := [] }

/-! ### Bursts that a change of state cancels or cuts (R124, R167) -/

/-- Claimed frames that a test selects return to their queue, in order (R167). -/
def unclaim (s : State) (q : Nat) (sel : Frame → Bool) : State := s.updQueue q fun x => { x with
  frames := x.frames.map fun f => if sel f then { f with claimed := false } else f }

/-- Every segment of a burst returns to its queue untouched. -/
def returnSegs (s : State) (b : Burst) : State :=
  b.segs.flatten.foldl (fun s g => s.unclaim g.q fun f => f.id == g.fid) s

/-- A lane of the channel is in a test mode (R400). -/
def inTest (s : State) (c : Nat) : Bool := (List.range 4).any fun i => (s.lane (4 * c + i)).test != 0

/-- Stream bytes go out on the active transmit lanes of a channel, each whole group of four stream blocks on the four lanes at once, under
the activation's lane map and inversions (R384 to R387, R394, R395). -/
def sendStream (s : State) (c : Nat) (bytes : List Byte) : State :=
  let u := (s.chan c).us
  let all := u.laneTail ++ bytes
  let n := all.length / 64
  let runs := (List.range 4).map fun l => laneRun l u.laneBlocks (u.laneRegs.getD l 0) (laneShare l (all.take (64 * n)))
  let pins := (List.range 4).map fun p =>
    invertLevels (u.invNow.testBit p) (runs.getD (u.mapNow.findIdx fun q => q == p) ([], 0)).1
  let s' := s.updUs c fun u => { u with
    laneBlocks := u.laneBlocks + n, laneTail := all.drop (64 * n), laneRegs := runs.map (·.2) }
  if n = 0 then s' else s'.emit (.lanes c (u.txSince + 640 * u.laneBlocks) pins)

/-- A burst goes out on the lanes from its first word on; the stream before it carries zero bytes (R137, R394). -/
def sendBurst (s : State) (c start : Nat) (bytes : List Byte) : State :=
  let u := (s.chan c).us
  if !u.txActive then s
  else s.sendStream c (zeros (16 * ((start - u.txSince) / 160 - (4 * u.laneBlocks + u.laneTail.length / 16))) ++ bytes)

/-- The activation of the transmit lanes ends with the group of blocks begun (R394). -/
def endActivation (s : State) (c : Nat) : State :=
  let u := (s.chan c).us
  let s := if u.txActive && !u.laneTail.isEmpty then s.sendStream c (zeros (64 - u.laneTail.length)) else s
  s.updUs c fun u => { u with txActive := false }

/-- The upstream domain is released when no burst, live predicted wake or lane test needs it (R166). -/
def releaseUs (s : State) (c : Nat) : State :=
  if (s.chan c).us.bursts.any (fun b => b.woken || b.phase == .underWay) || (s.chan c).us.preds.any (·.wake) || s.inTest c then s
  else (s.endActivation c).requestRelease (usDom c)

/-- Every burst that is not under way is cancelled; its claimed segments return and its wake becomes a release (R167). -/
def cancelBursts (s : State) (c : Nat) : State :=
  let gone := (s.chan c).us.bursts.filter fun b => b.phase != .underWay
  let s := gone.foldl returnSegs s
  let s := s.updUs c fun u => { u with bursts := u.bursts.filter fun b => b.phase == .underWay, plans := [], running := none }
  if gone.isEmpty then s else s.releaseUs c

/-- BGATEcc is driven to a level (R131, R165). -/
def driveBgate (s : State) (c : Nat) (level : Bool) (t : Nat) : State :=
  if (s.chan c).heath.bgate = level then s
  else (s.updHeath c fun h => { h with bgate := level }).emit (.bgate c level t)

/-- A burst under way is cut at the model's time: a segment that has not begun to leave returns to its queue, one that had
is lost and counted as departed (R167). -/
def cutBurst (s : State) (c : Nat) (b : Burst) : State :=
  let s := b.segWords.foldl (fun s sw =>
    if s.now < b.tLane + sw.2 * 160 then s.unclaim sw.1.q fun f => f.id == sw.1.fid
    else s.takeOut sw.1.q (fun f => f.id == sw.1.fid) (countDeq sw.1.q)) s
  ((s.bump c .usBurstCut).emit (.burstCut c b.frame))

/-- No burst of the channel is under way. -/
def burstsOver (s : State) (c : Nat) : Bool := (s.chan c).us.bursts.all fun b => b.phase != .underWay

/-- A silence latch or a reset stops the upstream: bursts under way are cut, the others cancelled, BGATE falls (R127, R167). -/
def stopUpstream (s : State) (c : Nat) : State :=
  let s := ((s.chan c).us.bursts.filter fun b => b.phase == .underWay).foldl (fun s b => s.cutBurst c b) s
  let s := s.cancelBursts c
  let s := s.updUs c fun u => { u with bursts := [], txActive := false }
  (s.driveBgate c false s.now).releaseUs c

/-! ### The upstream TCM queue (R109 to R112) -/

end State

/-- Class of an upstream TCM, 1 the highest (R111). -/
def UpTcm.cls : UpTcm → Nat
  | .ack .. => 1
  | .keyRpt .. => 2
  | .alarm _ sev _ _ => if 2 ≤ sev then 3 else 6
  | .wakeReq _ => 4
  | .sleepReq _ _ => 5
  | .identRsp .. | .rangeRsp .. => 1

/-- The head end acknowledges it, and it is sent again without an ACK; code 0x0006 is not resent (R112, Table 3.9). -/
def UpTcm.wantsAck : UpTcm → Bool
  | .keyRpt .. | .sleepReq .. | .wakeReq _ => true
  | .alarm code sev _ _ => 2 ≤ sev && code != 6
  | _ => false

/-- The withdrawal notice, which goes ahead of every class (R111, R426). -/
def UpTcm.withdrawal : UpTcm → Bool
  | .alarm 6 _ _ _ => true
  | _ => false

/-- TYPE (Table 3.5). -/
def UpTcm.type : UpTcm → Nat
  | .identRsp .. => 0x03 | .rangeRsp .. => 0x06 | .keyRpt .. => 0x0B | .sleepReq .. => 0x0F | .wakeReq _ => 0x10
  | .alarm .. => 0x11 | .ack .. => 0x16

/-- The place of the newest entry of the lowest class present. -/
def dropIndex (l : List UpEntry) : Nat :=
  let low := (l.map fun e => e.msg.cls).foldl max 0
  (List.range l.length).foldl (fun k i => match l[i]? with
    | some e => if e.msg.cls == low then i else k
    | none => k) 0

namespace State

/-- An entry joins the upstream TCM queue, which drops the newest of its lowest class when it is full (R111). -/
def queueEntry (s : State) (c : Nat) (e : UpEntry) : State :=
  let q := (s.chan c).tc.upQ
  if q.length < 32 then
    s.updTc c fun t => { t with upQ := if e.msg.withdrawal then e :: t.upQ else t.upQ ++ [e] }
  else if e.msg.withdrawal then
    (s.updTc c fun t => { t with upQ := e :: t.upQ.eraseIdx (dropIndex t.upQ) }).bump c .tcUpDrop
  else
    let l := q ++ [e]
    (s.updTc c fun t => { t with upQ := l.eraseIdx (dropIndex l) }).bump c .tcUpDrop

/-- A new upstream TCM, ready from a frame or at once (R110, R111). -/
def queueTcm (s : State) (c : Nat) (m : UpTcm) (ready : Option (BitVec 48)) : State :=
  s.queueEntry c { msg := m, seq := 0, ready, sent := 0, lastFrame := 0 }

/-- The channel answers a message of the frame in progress with an ACK, and the duplicate record keeps its RESULT (R109,
R110). -/
def ackTcm (s : State) (c type : Nat) (seq : Byte) (result : Nat) (n : BitVec 48) : State :=
  let s := s.updTc c fun t => { t with dups := t.dups.map fun d =>
    if d.type == type && d.seq == seq then { d with result := some result } else d }
  s.queueTcm c (.ack (BitVec.ofNat 8 type) seq (BitVec.ofNat 8 result)) (some (n + 2))

/-- The entry that a control field of upstream frame n takes: the oldest of the highest class among the ready ones, the
withdrawal notice ahead of all (R110, R111). -/
def pickEntry (q : List UpEntry) (n : BitVec 48) : Option UpEntry :=
  let ok := q.filter fun e => match e.ready with
    | none => true
    | some r => decide (0 ≤ sfcDiff n r)
  match ok.find? fun e => e.msg.withdrawal with
  | some e => some e
  | none =>
    let top := (ok.map fun e => e.msg.cls).foldl min 7
    ok.find? fun e => e.msg.cls == top

/-- A control field takes an entry: it gets its SEQ at its first sending, and awaits its ACK where it wants one (R109, R112). -/
def takeTcm (s : State) (c : Nat) (n : BitVec 48) : Option UpEntry × State :=
  match pickEntry (s.chan c).tc.upQ n with
  | none => (none, s)
  | some e =>
    let sent := { e with seq := if e.sent = 0 then (s.chan c).tc.upSeq else e.seq, sent := e.sent + 1, lastFrame := n }
    let s := s.updTc c fun t => { t with
      upQ := t.upQ.erase e
      upSeq := if e.sent = 0 then t.upSeq + 1 else t.upSeq
      await := if e.msg.wantsAck then t.await ++ [sent] else t.await }
    (some sent, s.bump c (if e.sent = 0 then .tcTx else .tcRetx))

/-- ALARM.RPT of a channel condition, sent only in RANGING and OPERATING (R133). -/
def alarmRpt (s : State) (c code : Nat) (raised : Bool) (detail : Nat) (ready : Option (BitVec 48) := none) : State :=
  if (s.chan c).tc.opened && ((s.chan c).tc.st == .ranging || s.operating c) then
    s.queueTcm c (.alarm code (rptSev code) raised detail) ready
  else s

/-- A condition of Table 3.9 that passes at once: the host's event and the head end's report, ready from a frame when a message
caused it (R110). -/
def chanCondition (s : State) (c code detail : Nat) (ready : Option (BitVec 48) := none) : State :=
  (s.chanEvent c (0x2000 + code) (rptSev code) (det1 detail)).alarmRpt c code true detail ready

/-- A condition of Table 3.9 is raised as an alarm of the open list (R133, R496). -/
def raiseChan (s : State) (c code detail : Nat) : State :=
  (s.raiseAlarm (0x2000 + code) (rptSev code) 1 c (det1 detail) (s.chanParts c)).alarmRpt c code true detail

/-- It clears, with the DETAIL that Table 3.9 gives its code. -/
def clearChan (s : State) (c code detail : Nat) : State :=
  if s.alarmOpen (0x2000 + code) 1 c then
    (s.clearAlarm (0x2000 + code) 1 c (det1 detail)).alarmRpt c code false detail
  else s

/-! ### State changes (Table 3.3) -/

/-- LISTEN to LOCKED when lock, alignment and a complete epoch are there (R95). -/
def tryLocked (s : State) (c : Nat) : State :=
  if (s.chan c).tc.opened && (s.chan c).tc.st == .listen && s.synced c && s.hasEpoch c then s.setState c .locked .ready else s

/-- The channel enters LISTEN: later plans are cancelled, context and epochs are gone (R95, R96). -/
def enterListen (s : State) (c : Nat) (x : Cause) : State :=
  (((s.cancelBursts c).clearContext c).dropEpochs c).setState c .listen x

/-- OPERATING to HOLDOVER (R124): the values that a return is tested with are those of the last frame. -/
def enterHoldover (s : State) (c : Nat) (h : HoldInfo) : State :=
  let s := s.cancelBursts c
  let s := s.updTc c fun t => { t with hold := some h }
  let s := (s.setState c .holdover .lockLost).bump c .tcHoldover
  s.chanEvent c 0x2012 2 (det1 (h.sfc.toNat % 4294967296))

/-- Any state to SILENCED (R127). -/
def enterSilenced (s : State) (c : Nat) (x : Cause) : State :=
  (s.stopUpstream c).setState c .silenced x

/-- SILENCED ends when both latches are clear: to LOCKED or LISTEN with the context cleared (R128). -/
def leaveSilenced (s : State) (c : Nat) : State :=
  if (s.chan c).tc.opened && (s.chan c).tc.st == .silenced && !s.latched c then
    let s := s.clearContext c
    if s.synced c && s.hasEpoch c then s.setState c .locked .unsilenced
    else (s.dropEpochs c).setState c .listen .unsilenced
  else s

/-- The upstream traffic or a host command ends DOZE early: the downstream domain wakes at once in the committed class and
WAKE.REQ is queued (R123, R433). -/
def earlyWake (s : State) (c reason : Nat) : State :=
  match (s.chan c).tc.doze with
  | some d =>
    if (s.chan c).tc.st = .doze ∧ !d.early then
      -- the first frame whose predicted T_ds falls at least DOZE_LEAD after the request (R433)
      let m := ceilDiv (s.now + (s.chan c).cfg.dozeLeadUs * 1000000 - d.recTds) 125000000
      -- an awake multiframe that begins before it is still awaited (R121)
      let d' := if d.awake || decide (d.nextTds ≤ d.recTds + m * 125000000) then d else
        { d with nextSfc := d.recSfc + BitVec.ofNat 48 m, nextTds := d.recTds + m * 125000000 }
      let s := s.updTc c fun t => { t with doze := some { d' with early := true } }
      (s.queueTcm c (.wakeReq reason) none).requestWake 0 (dsDom c)
    else s
  | none => s

end State

end Sys2Proof.Machine
end

