-- ==== Sys2Proof/Machine/Cipher.lean ====
section
/-! DEFINITION. Line cipher and keys (08_line_cipher_keys.md): the cipher on the line (R280 to R285), key registers, exchanges and
switches (R286 to R295), suspect keys (R296), and the key-wrap engine (R303 to R307). -/

namespace Sys2Proof.Machine

/-! ### Cipher (R280 to R285) -/

/-- The 96-bit IV of a segment (Table 8.1). -/
def segIv (sfc : BitVec 48) (up : Bool) (pos : Nat) : BitVec 96 :=
  sfc ++ BitVec.ofBool up ++ BitVec.ofNat 24 pos ++ (0 : BitVec 23)

/-- A live slot decrypts (R286). -/
def KeyReg.live (k : KeyReg) : Bool := k.ph != .empty

/-- The register that a downstream KEY_IDX names (Table 8.2). -/
def ChanKeys.ds (k : ChanKeys) (idx : Nat) : KeyReg := if idx = 1 then k.ds1 else if idx = 2 then k.ds2 else k.bc

/-- The upstream slot current for an upstream frame (R294), 0 when there is none. -/
def ChanKeys.usSlot (k : ChanKeys) (n : BitVec 48) : Nat :=
  match k.usOld with
  | some (slot, f) => if sfcDiff n f < 0 then slot else if slot = 1 then 2 else 1
  | none => if k.us1.ph = .current then 1 else if k.us2.ph = .current then 2 else 0

/-- An upstream slot's register. -/
def ChanKeys.us (k : ChanKeys) (slot : Nat) : KeyReg := if slot = 1 then k.us1 else if slot = 2 then k.us2 else {}

/-- Upstream encryption is possible for a frame: its slot is current and not suspect (R298). -/
def ChanKeys.canEncrypt (k : ChanKeys) (n : BitVec 48) : Bool :=
  let r := k.us (k.usSlot n)
  r.ph == .current && !r.suspect

/-- A unicast register by direction and slot. -/
def ChanKeys.uni (k : ChanKeys) (kdir slot : Nat) : KeyReg :=
  if kdir = 0 then (if slot = 1 then k.ds1 else k.ds2) else (if slot = 1 then k.us1 else k.us2)

/-- A unicast register replaced. -/
def ChanKeys.setUni (k : ChanKeys) (kdir slot : Nat) (r : KeyReg) : ChanKeys :=
  if kdir = 0 then (if slot = 1 then { k with ds1 := r } else { k with ds2 := r })
  else (if slot = 1 then { k with us1 := r } else { k with us2 := r })

/-- Every register of Table 8.2 is EMPTY. -/
def ChanKeys.allEmpty (k : ChanKeys) : Bool := !([k.ds1, k.ds2, k.us1, k.us2, k.bc, k.pend].any KeyReg.live)

/-- HIGH is cleared with the last register (R296). -/
def ChanKeys.fixHigh (k : ChanKeys) : ChanKeys := if k.allEmpty then { k with high := none } else k

/-- The broadcast wrapping key (R291). -/
def bwk (kb : BitVec 256) : BitVec 256 := aes256 kb 1#128 ++ aes256 kb 2#128

namespace State

/-! ### The key-wrap engine (R303 to R307) -/

/-- DONE sets: the engine raises the vector of the owner's endpoint (Table 17.4, R307). -/
def kweVector (s : State) : State :=
  let k := s.gorse.kwe.owner
  if k < 8 then s.emit (.vector k ((s.ep k).vec.toNat / 256 % 16)) else s

/-- An operation ends with an error and changes nothing (R306). -/
def kweErr (s : State) (e : Nat) : State :=
  (s.updKwe fun x => { x with done := true, err := e, busy := false, job := none, din := [], outLen := 0, dout := [] }).kweVector

/-- An operation ends with an output. -/
def kweOut (s : State) (out : List Byte) : State :=
  (s.updKwe fun x => { x with
    done := true, err := 0, busy := false, job := none, din := [], outLen := out.length, dout := out }).kweVector

/-- The input of the operation: KWE_LEN bytes of those written since the last GO (R306). -/
def kweIn (s : State) : List Byte := Machine.slice s.gorse.kwe.din 0 s.gorse.kwe.len

/-- A user reaches the key-wrap window: Gorse is powered and out of reset, and a partition's endpoint answers (R17, R303). -/
def kweReach (s : State) (u : Nat) : Bool := s.alive 1 && (decide (8 ≤ u) || s.epUp u)

/-- GO with an operation: ignored while the window is out of reach (R17), from another user than the owner, and while BUSY (R303, R307); refused at once when the user
or the length does not fit (R306); otherwise the operation is in progress until KWE_OP_DONE. -/
def kweGo (s : State) (u op : Nat) (handle : BitVec 12) (users lens : Bool) (err : Nat) (job : Nat × Nat × Nat) : State :=
  if !s.kweReach u ∨ s.gorse.kwe.owner ≠ u ∨ s.gorse.kwe.busy then s
  else
    let s := s.updKwe fun x => { x with op := BitVec.ofNat 4 op, handle }
    if !users then s.kweErr 3
    else if !lens then s.kweErr 2
    else if err ≠ 0 then s.kweErr err
    else s.updKwe fun x => { x with busy := true, job := some (op, job) }

/-- The ownership is cut; an operation that it abandons ends with ERR 7, and its DONE raises the vector (R305, R307). -/
def kweCut (s : State) : State :=
  if s.gorse.kwe.owner = 0xFF then s
  else (if s.gorse.kwe.busy then s.kweVector else s).updKwe fun x => { x with
    owner := 0xFF, lost := true, key := 0, len := 0, din := [], dout := [], outLen := 0, busy := false, job := none
    done := x.done || x.busy, err := if x.busy then 7 else x.err, cuts := min (x.cuts + 1) ctrMax }

/-! ### Line keys -/

/-- The condition of code 0x0004 clears when no register is suspect. -/
def suspectCheck (s : State) (c : Nat) : State := if State.anySuspect (s.chan c).keys then s else s.clearChan c 4 (s.chan c).keys.suspectAt

/-- Two KEY.RPT messages carry a wrapped key (R289, step 4). -/
def queueRpts (s : State) (c kdir slot : Nat) (keySeq : Byte) (w : List Byte) (ready : BitVec 48) : State :=
  let m := fun (i : Nat) => UpTcm.keyRpt (BitVec.ofNat 8 kdir) (BitVec.ofNat 8 slot) keySeq (BitVec.ofNat 8 i) 2 (Machine.slice w (20 * i) 20)
  (s.queueTcm c (m 0) (some ready)).queueTcm c (m 1) (some ready)

/-- The wrapped key of an exchange, if it has been wrapped. -/
def wrappedOf (k : ChanKeys) (kdir slot : Nat) (keySeq : Byte) : Option (List Byte) :=
  (k.wrapped.find? fun w => w.1 == kdir && w.2.1 == slot && w.2.2.1 == keySeq).map fun w => w.2.2.2

/-- The KEK of a channel is loaded and the root derived (R288). -/
def kekReady (s : State) (c : Nat) : Bool := s.gorse.drk && (Tab.get none s.gorse.kek c).isSome

/-- The management firmware runs the oldest exchange of the lowest waiting channel through the free engine as user 8 (R290). -/
def serveKeyJobs (s : State) : State :=
  if s.fw.ready && !s.fw.restarting && s.alive 1 && s.gorse.kwe.owner == 0xFF then
    match s.chans.find? fun p => !p.2.keys.jobs.isEmpty with
    | some (c, x) => match x.keys.jobs with
      | j :: _ => s.updKwe fun y => { y with
          owner := 8, lost := false, op := if j.kdir = 2 then 11 else 10, busy := true, done := false, err := 0
          len := j.blob.length, din := j.blob, job := some (if j.kdir = 2 then 11 else 10, c, j.kdir, j.slot) }
      | [] => s
    | none => s
  else s

/-- The wrap of an exchange has ended: its KEY.RPT messages are queued, and those of every request that asked for them again while it
waited (R289, R290). -/
def finishWrap (s : State) (c kdir slot : Nat) (w : List Byte) : State :=
  let mine := fun (j : KeyJob) => j.kdir == kdir && j.slot == slot
  match (s.chan c).keys.jobs.filter mine with
  | [] => s
  | j :: l =>
    let s := s.updKeys c fun k => { k with
      jobs := k.jobs.filter fun j => !mine j
      wrapped := (k.wrapped.filter fun x => !(x.1 == kdir && x.2.1 == slot)) ++ [(kdir, slot, j.keySeq, w)] }
    (j :: l).foldl (fun s j => s.queueRpts c kdir slot j.keySeq w (j.frame + 2)) s

/-- The unwrap of a broadcast key has ended (R292). -/
def finishUnwrap (s : State) (c : Nat) (key : Option (BitVec 256)) : State :=
  match (s.chan c).keys.jobs.find? fun j => j.kdir == 2 with
  | none => s
  | some j =>
    let s := s.updKeys c fun k => { k with jobs := k.jobs.erase j }
    match key with
    | some v =>
      let s := (s.updKeys c fun k => { k with pend := { ph := .filled, key := v, seq := j.keySeq } }).suspectCheck c
      if j.toTid then s.ackTcm c 0x0A j.seq 0 j.frame else s
    | none =>
      let s := s.bump c .ckUnwrapFail
      if j.toTid then s.ackTcm c 0x0A j.seq 2 j.frame else s

/-- A 32-byte result as a key. -/
def keyOf (bs : List Byte) : BitVec 256 := BitVec.ofNat 256 (beVal bs)

/-- An operation of the key-wrap engine ends (R306, R307). -/
def doKweOpDone (s : State) : State :=
  let x := s.gorse.kwe
  match x.job with
  | none => s
  | some (op, a, b, d) =>
    let inp := s.kweIn
    let u := x.owner
    let s' := match op with
      | 1 => (s.updKwe fun x => { x with key := keyOf inp }).kweOut []
      | 2 => s.kweOut (kw x.key inp)
      | 3 => match kwInv x.key inp with | some o => s.kweOut o | none => s.kweErr 1
      | 4 => s.kweOut (kwp x.key inp)
      | 5 => match kwpInv x.key inp with | some o => s.kweOut o | none => s.kweErr 1
      | 6 => s.kweOut (kw (sealKey Config.drk u) inp)
      | 7 => match kwInv (sealKey Config.drk u) inp with
        | some o => ({ s with gorse := { s.gorse with ps := Tab.set none s.gorse.ps u (some (keyOf o)) } }).kweOut []
        | none => s.kweErr 1
      | 8 => match Tab.get none s.gorse.ps u with
        | none => s.kweErr 4
        | some ps => match kwInv ps inp with
          | some o => ({ s with gorse := { s.gorse with kek := Tab.set none s.gorse.kek a (some (keyOf o)) } }).kweOut []
          | none => s.kweErr 1
      | 10 => match Tab.get none s.gorse.kek a with
        | none => s.kweErr 4
        | some kek =>
          let r := (s.chan a).keys.uni b d
          if r.live then
            let w := kw kek (beBytes 32 r.key.toNat)
            (s.kweOut w).finishWrap a b d w
          else s.kweErr 4
      | _ =>
        let j := (s.chan a).keys.jobs.find? fun j => j.kdir == 2
        let wrapKey := match j with
          | some j => if j.toTid then Tab.get none s.gorse.kek a else some (bwk (s.chan a).keys.bc.key)
          | none => if b = 1 then some (bwk (s.chan a).keys.bc.key) else Tab.get none s.gorse.kek a
        match wrapKey with
        | none => s.kweErr 4
        | some wk => match kwInv wk inp with
          | some o => (s.kweOut []).finishUnwrap a (some (keyOf o))
          | none => (s.kweErr 1).finishUnwrap a none
    -- the firmware holds the lock for single exchanges and goes on with the next one
    if u = 8 then (s'.updKwe fun x => { x with owner := 0xFF }).serveKeyJobs else s'

/-- CLAIM with a user number, or 0xFE; without effect while the window is out of reach (R17, R304). -/
def kweWriteClaim (s : State) (u v : Nat) : State :=
  if !s.kweReach u then s
  else if v = 0xFE then
    if s.gorse.kwe.owner = u then (s.updKwe fun x => { x with owner := 0xFF }).serveKeyJobs else s
  else if v = u then
    if s.gorse.kwe.owner = 0xFF then s.updKwe fun x => { x with owner := u } else s
  else if u < 8 then s.updKwe fun x => { x with claimBad := min (x.claimBad + 1) ctrMax }
  else s

/-- What a read of KWE_LOCK by a user does: LOST clears with the owner's first read (Table 8.5). -/
def kweLockRead (s : State) (u : Nat) : State :=
  if s.kweReach u && s.gorse.kwe.owner == u then s.updKwe fun x => { x with lost := false } else s

/-- Every volatile key is zeroed (R309): line keys, the engine's key and buffers, PS, KEK and DRK. -/
def eraseKeys (s : State) : State :=
  let s := s.chans.foldl (fun s p => (s.fillKeyed p.1).updKeys p.1 fun _ => {}) s
  { s with gorse := { s.gorse with
      drk := false, ps := [], kek := []
      kwe := { s.gorse.kwe with key := 0, din := [], dout := [], len := 0, outLen := 0 } } }

/-! ### Suspect keys (R296) -/

/-- HIGH rises with a frame received in LOCK while a register is not EMPTY. -/
def noteHigh (s : State) (c : Nat) (sfc : BitVec 48) : State :=
  let k := (s.chan c).keys
  if k.allEmpty then s
  else s.updKeys c fun k => { k with high := match k.high with
    | some h => some (if h.toNat < sfc.toNat then sfc else h)
    | none => some sfc }

/-- A register is marked suspect unless it is EMPTY. -/
def KeyReg.mark (r : KeyReg) : KeyReg := if r.ph = .empty then r else { r with suspect := true }

/-- A discontinuity, or the first good frame after lock, at or below HIGH marks every register suspect (R296). -/
def suspectTest (s : State) (c : Nat) (sfc : BitVec 48) : State :=
  match (s.chan c).keys.high with
  | some h =>
    if sfc.toNat ≤ h.toNat ∧ !(s.chan c).keys.allEmpty then
      let s := (s.fillKeyed c).updKeys c fun k => { k with
        ds1 := KeyReg.mark k.ds1, ds2 := KeyReg.mark k.ds2, us1 := KeyReg.mark k.us1
        us2 := KeyReg.mark k.us2, bc := KeyReg.mark k.bc, pend := KeyReg.mark k.pend, suspectAt := sfc.toNat % 4294967296 }
      (s.bump c .ckKeySuspect).raiseChan c 4 (sfc.toNat % 4294967296)
    else s
  | none => s

/-! ### Switching (R293 to R295) -/

/-- The old upstream slot empties once no burst of a frame before the switch remains (R294). -/
def emptyUsOld (s : State) (c : Nat) : State :=
  match (s.chan c).keys.usOld with
  | some (slot, f) =>
    if (s.chan c).us.bursts.any fun b => sfcDiff b.frame f < 0 then s
    else
      -- the slot before the switch empties if it was current; one that was not holds nothing of the old frames
      (s.updKeys c fun k =>
        let k' : ChanKeys := if (k.us slot).ph == .current then k.setUni 1 slot {} else k
        ({ k' with usOld := none }).fixHigh).suspectCheck c
  | none => s

/-- A retiring downstream slot empties at the start of its frame (R294). -/
def emptyRetired (s : State) (c : Nat) (sfc : BitVec 48) : State :=
  match (s.chan c).keys.retire with
  | some (slot, f) =>
    if 0 ≤ sfcDiff sfc f then
      (s.updKeys c fun k => ({ k.setUni 0 slot {} with retire := none }).fixHigh).suspectCheck c
    else s
  | none => s

/-- One switch takes effect at frame f (R294). -/
def applySwitch (s : State) (c : Nat) (f : BitVec 48) (w : KeySwitchPend) : State :=
  let k := (s.chan c).keys
  let s := s.updKeys c fun k => { k with switches := k.switches.erase w }
  let other := if w.slot = 1 then 2 else 1
  if w.kdir = 2 then
    if k.pend.ph = .filled ∧ k.pend.seq = w.keySeq then
      ((s.updKeys c fun k => { k with bc := { k.pend with ph := .current }, pend := {} }).suspectCheck c).bump c .ckKeySwitch
    else s
  else
    let r := k.uni w.kdir w.slot
    if r.ph = .filled ∧ r.seq = w.keySeq then
      let s := s.updKeys c fun k => k.setUni w.kdir w.slot { r with ph := .current }
      let old := k.uni w.kdir other
      -- bursts of frames before f keep the slot that was current for them, if any was
      let s := if w.kdir ≠ 0 then s.updKeys c fun k => { k with usOld := some (other, f) }
        else if old.ph ≠ .current then s
        else s.updKeys c fun k => { k.setUni 0 other { old with ph := .retiring } with retire := some (other, f + 8) }
      (s.emptyUsOld c).bump c .ckKeySwitch
    else s

/-- At an aligned multiframe boundary of an OPERATING channel every switch whose frame has come takes effect; one that is later
than its frame is reported (R294, R295). -/
def applySwitches (s : State) (c : Nat) (sfc : BitVec 48) : State :=
  if s.operating c && s.synced c && sfc.toNat % 8 == 0 then
    ((s.chan c).keys.switches.filter fun w => decide (0 ≤ sfcDiff sfc w.frame)).foldl (fun s w =>
      let s := s.applySwitch c sfc w
      if sfc = w.frame then s else s.chanCondition c 5 (sfc.toNat % 4294967296)) s
  else s

/-- The first multiframe boundary at or after a frame. -/
def nextBoundary (n : BitVec 48) : BitVec 48 := BitVec.ofNat 48 (n.toNat + (8 - n.toNat % 8) % 8)

/-- What KEY.SWITCH answers in frame n, and the state with the switch accepted (R293). -/
def keySwitchApply (s : State) (c : Nat) (b : KeySwitchBody) (n : BitVec 48) : Nat × State :=
  let kdir := b.kdir.toNat
  let slot := b.kslot.toNat
  let r := if kdir = 2 then (s.chan c).keys.pend else (s.chan c).keys.uni kdir slot
  let d := sfcDiff b.swSfc n
  if !((kdir < 2 ∧ (slot = 1 ∨ slot = 2)) ∨ (kdir = 2 ∧ slot = 3)) then (2, s)
  else if b.swSfc.toNat % 8 ≠ 0 then (2, s)
  else if !(r.ph = .filled ∧ r.seq = b.keySeq) then (2, s)
  else if r.suspect then (3, s)
  else if 255 < d then (2, s)
  else
    let late := d < 2
    let f := if late then nextBoundary (n + 2) else b.swSfc
    let s := s.updKeys c fun k => { k with switches := k.switches ++ [{ kdir, slot, keySeq := b.keySeq, frame := f }] }
    if late then (1, s.chanCondition c 5 (f.toNat % 4294967296) (some (n + 2))) else (0, s)

/-! ### KEY.REQ (R288 to R292) -/

/-- What becomes of a KEY.REQ: an ACK with a RESULT, an exchange that answers with KEY.RPT, or no answer yet. -/
inductive KeyAnswer where
  | ack (result : Nat)
  | rpt
  | later
  deriving DecidableEq, Repr

/-- The first condition of R288 that fails, as its RESULT. -/
def keyReqCheck (s : State) (c : Nat) (b : KeyReqBody) : Option Nat :=
  let kdir := b.kdir.toNat
  let slot := b.kslot.toNat
  let k := (s.chan c).keys
  if !(s.chan c).cfg.enc then some 5
  else if !((kdir < 2 ∧ (slot = 1 ∨ slot = 2)) ∨ (kdir = 2 ∧ slot = 3)) then some 2
  else if kdir < 2 ∧ b.fragCnt ≠ 0 then some 2
  else if kdir = 2 ∧ !(2 ≤ b.fragCnt.toNat ∧ b.fragCnt.toNat ≤ 40 ∧ b.fragIdx.toNat < b.fragCnt.toNat) then some 2
  else if !s.kekReady c then some 4
  else if kdir < 2 ∧ ((k.uni kdir slot).ph = .current ∨ (k.uni kdir slot).ph = .retiring
      ∨ (k.switches.any fun w => w.kdir == kdir && w.slot == slot)) then some 3
  else none

/-- The unicast exchange of R289. -/
def unicastReq (s : State) (c : Nat) (b : KeyReqBody) (seq : Byte) (n : BitVec 48) : KeyAnswer × State :=
  let kdir := b.kdir.toNat
  let slot := b.kslot.toNat
  let r := (s.chan c).keys.uni kdir slot
  if r.ph = .filled ∧ r.seq = b.keySeq then
    match wrappedOf (s.chan c).keys kdir slot b.keySeq with
    | some w => (.rpt, s.queueRpts c kdir slot b.keySeq w (n + 2))
    | none =>
      -- the wrap still waits: its messages go once more for this request when it ends
      (.rpt, (s.updKeys c fun k => { k with
        jobs := k.jobs ++ [{ kdir, slot, keySeq := b.keySeq, seq, frame := n, toTid := true, blob := [] }] }).serveKeyJobs)
  else if !s.gorse.drbgRun then (.ack 4, s)
  else
    let (v, s) := s.draw
    let s := s.updKeys c fun k => { k.setUni kdir slot { ph := .filled, key := v, seq := b.keySeq } with
      jobs := (k.jobs.filter fun j => !(j.kdir == kdir && j.slot == slot)) ++
        [{ kdir, slot, keySeq := b.keySeq, seq, frame := n, toTid := true, blob := [] }] }
    (.rpt, (((s.suspectCheck c).bump c .ckKeyFilled).serveKeyJobs))

/-- A fragment of a broadcast key (R291, R292). -/
def broadcastReq (s : State) (c : Nat) (b : KeyReqBody) (toTid : Bool) (seq : Byte) (n : BitVec 48) : KeyAnswer × State :=
  let cnt := b.fragCnt.toNat
  let old : FragSet := match (s.chan c).keys.frags with
    | some f => if f.keySeq = b.keySeq ∧ f.toTid = toTid ∧ f.cnt = cnt then f
        else { toTid, keySeq := b.keySeq, cnt, frags := [], first := n }
    | none => { toTid, keySeq := b.keySeq, cnt, frags := [], first := n }
  let set := { old with frags := (old.frags.filter fun f => f.1 != b.fragIdx.toNat) ++ [(b.fragIdx.toNat, b.frag)] }
  if set.frags.length < cnt then
    (.ack 0, s.updKeys c fun k => { k with frags := some set })
  else
    let blob := (List.range cnt).flatMap fun i => match set.frags.find? fun f => f.1 == i with
      | some f => f.2
      | none => []
    let s := s.updKeys c fun k => { k with frags := none }
    if blob.length ≠ 40 then (.ack 2, s.bump c .ckUnwrapFail)
    else
      let s := s.updKeys c fun k => { k with
        jobs := k.jobs ++ [{ kdir := 2, slot := 3, keySeq := b.keySeq, seq, frame := n, toTid, blob }] }
      (.later, s.serveKeyJobs)

/-- A KEY.REQ that passed R103 and is no duplicate (R288 to R292). -/
def keyReqApply (s : State) (c : Nat) (b : KeyReqBody) (toTid : Bool) (seq : Byte) (n : BitVec 48) : KeyAnswer × State :=
  match s.keyReqCheck c b with
  | some r => (.ack r, s)
  | none =>
    if b.kdir = 2 then
      if !toTid ∧ ((s.chan c).keys.bc.ph = .empty ∨ (s.chan c).keys.bc.suspect) then (.later, s.bump c .ckBwkMiss)
      else s.broadcastReq c b toTid seq n
    else s.unicastReq c b seq n

/-- A broadcast collection has not been completed in 64 frames (R292). -/
def doFragCollectionExpiry (s : State) (c : Nat) : State :=
  if (s.chan c).keys.frags.isSome then (s.updKeys c fun k => { k with frags := none }).bump c .ckFragExpired else s

end State

/-! ### Commands of the engine's users and of the channel -/

/-- A length from lo to hi that is a multiple of m. -/
def lenFits (n lo hi m : Nat) : Bool := decide (lo ≤ n) && decide (n ≤ hi) && n % m == 0

def execFragCollectionExpiry (c : Chan) (s : State) : Host.Outcome State Fault Refusal := .next (s.doFragCollectionExpiry c)
/-- A user writes CLAIM and then reads KWE_LOCK, which clears LOST when it owns the lock (R303, R304). -/
def execKweClaim (u : Fin 10) (v : Byte) (s : State) : Host.Outcome State Fault Refusal :=
  .next ((s.kweWriteClaim u v.toNat).kweLockRead u)
def execKweRelease (u : Fin 10) (s : State) : Host.Outcome State Fault Refusal := .next (s.kweWriteClaim u 0xFE)
/-- 100 ms without an operation of the owner (R305). -/
def execKweLockCut (s : State) : Host.Outcome State Fault Refusal :=
  .next (if s.gorse.kwe.busy then s else s.kweCut.serveKeyJobs)
def execKweLoadk (u : Fin 10) (s : State) : Host.Outcome State Fault Refusal :=
  .next (s.kweGo u 1 0 true (lenFits s.gorse.kwe.len 32 32 1) 0 (0, 0, 0))
def execKweWrap (u : Fin 10) (s : State) : Host.Outcome State Fault Refusal :=
  .next (s.kweGo u 2 0 true (lenFits s.gorse.kwe.len 16 1024 8) 0 (0, 0, 0))
def execKweUnwrap (u : Fin 10) (s : State) : Host.Outcome State Fault Refusal :=
  .next (s.kweGo u 3 0 true (lenFits s.gorse.kwe.len 24 1024 8) 0 (0, 0, 0))
def execKweWrapp (u : Fin 10) (s : State) : Host.Outcome State Fault Refusal :=
  .next (s.kweGo u 4 0 true (lenFits s.gorse.kwe.len 1 1016 1) 0 (0, 0, 0))
def execKweUnwrapp (u : Fin 10) (s : State) : Host.Outcome State Fault Refusal :=
  .next (s.kweGo u 5 0 true (lenFits s.gorse.kwe.len 16 1024 8) 0 (0, 0, 0))
def execKweSeal (u : Fin 10) (s : State) : Host.Outcome State Fault Refusal :=
  .next (s.kweGo u 6 0 (decide (u.val < 8)) (lenFits s.gorse.kwe.len 32 32 1) (if s.gorse.drk then 0 else 5) (0, 0, 0))
def execKweLoadPs (u : Fin 10) (s : State) : Host.Outcome State Fault Refusal :=
  .next (s.kweGo u 7 0 (decide (u.val < 8)) (lenFits s.gorse.kwe.len 40 40 1) (if s.gorse.drk then 0 else 5) (0, 0, 0))
/-- LOAD_KEK: HANDLE 0x100 + c names a channel of the user's partition, and its PS is loaded (Table 8.8). -/
def execKweLoadKek (u : Fin 10) (handle : BitVec 12) (s : State) : Host.Outcome State Fault Refusal :=
  let c := handle.toNat - 256
  let named := decide (256 ≤ handle.toNat) && decide (c < 64)
  .next (s.kweGo u 8 handle (decide (u.val < 8) && named && (s.chan c).owner == u.val) (lenFits s.gorse.kwe.len 40 40 1)
    (if (Tab.get none s.gorse.ps u.val).isSome then 0 else 4) (c, 0, 0))
/-- CLEAR zeroes the working key and the buffers (Table 8.8). -/
def execKweClear (u : Fin 10) (s : State) : Host.Outcome State Fault Refusal :=
  .next (if !s.kweReach u ∨ s.gorse.kwe.owner ≠ u.val ∨ s.gorse.kwe.busy then s
    else (s.updKwe fun x => { x with op := 9, handle := 0, key := 0 }).kweOut [])
def execKweLineWrap (u : Fin 10) (c : Chan) (kdir slot : Byte) (s : State) : Host.Outcome State Fault Refusal :=
  .next (s.kweGo u 10 0 (u.val == 8) (s.gorse.kwe.len == 0) (if (Tab.get none s.gorse.kek c.val).isSome then 0 else 4)
    (c, kdir.toNat, slot.toNat))
def execKweBcastUnwrap (u : Fin 10) (c : Chan) (b : Bool) (s : State) : Host.Outcome State Fault Refusal :=
  .next (s.kweGo u 11 0 (u.val == 8) (lenFits s.gorse.kwe.len 40 40 1)
    (if b || (Tab.get none s.gorse.kek c.val).isSome then 0 else 4) (c, b.toNat, 3))
def execKweOpDone (s : State) : Host.Outcome State Fault Refusal := .next s.doKweOpDone

/-! ### Key commands (Table 18.8) -/

def applyKeyChanSet (k : Nat) (p : List Byte) (s : State) : CmdResult :=
  let c := u8 p 0
  checked s (p.length == 2) (s.ownsChan k c) (firstBad p [(decide (63 < c), 0), (decide (1 < u8 p 1), 1)] [])
    (done (s.updChan c fun x => { x with cfg := { x.cfg with enc := u8 p 1 == 1 } }))

def KeyPhase.code : KeyPhase → Nat
  | .empty => 0 | .filled => 1 | .current => 2 | .retiring => 3

def keyBytes (r : KeyReg) : List Byte := [BitVec.ofNat 8 r.ph.code, r.seq, bByte r.suspect, 0]

def applyKeyStateGet (k : Nat) (p : List Byte) (s : State) : CmdResult :=
  let c := u8 p 0
  let x := (s.chan c).keys
  checked s (p.length == 1) (s.ownsChan k c) (firstBad p [(decide (63 < c), 0)] [])
    (done s (([x.ds1, x.ds2, x.us1, x.us2, x.bc, x.pend].flatMap keyBytes) ++ leBytes 6 (x.high.map (·.toNat) |>.getD 0) ++ zeros 2
      ++ (if k = 0 then leBytes 8 s.gorse.kwe.cuts ++ leBytes 8 s.gorse.kwe.claimBad else zeros 16)))

end Sys2Proof.Machine
end

