-- ==== Sys2Proof/Machine/Parse.lean ====
section
/-! DEFINITION. The parser of a classifier slice (R209 to R211, Table 6.1) and the key fields it gives (Table 6.3). -/

namespace Sys2Proof.Machine

/-- What a parse gives: the fields by ID (Table 6.3), the flags of Table 6.2 below LINE, the offsets after the VXLAN, GTP-U and
bottom-of-stack headers, and the places of the outer tag's TCI, of the IP header and of the PTP header. -/
structure Parsed where
  fld : Tab Nat := []
  flags : BitVec 16 := 0
  vxEnd : Option Nat := none
  gtpEnd : Option Nat := none
  mplsEnd : Option Nat := none
  tci : Option Nat := none
  ip4 : Option Nat := none
  ip6 : Option Nat := none
  udp : Option Nat := none
  ptp : Option Nat := none
  deriving DecidableEq, Repr

namespace Parsed

def put (x : Parsed) (id v : Nat) : Parsed := { x with fld := Tab.set 0 x.fld id v }
def flag (x : Parsed) (b : Nat) : Parsed := { x with flags := x.flags ||| BitVec.ofNat 16 (2 ^ b) }
/-- The parse ended other than at a terminal point (Table 6.2). -/
def unparsed (x : Parsed) : Parsed := x.flag 15
def has (x : Parsed) (b : Nat) : Bool := x.flags.getLsbD b
def get (x : Parsed) (id : Nat) : Nat := Tab.get 0 x.fld id

end Parsed

/-- The packet with the end of its parse window (R209), and the ports of the source (Table 6.4). -/
structure ParseCtx where
  bytes : List Byte
  stop : Nat
  vxlanPort : Nat
  ecpriPort : Nat

namespace ParseCtx

/-- A header of n bytes at an offset ends within the window and the packet (R209). -/
def fit (k : ParseCtx) (pos n : Nat) : Bool := decide (pos + n ≤ k.stop)
/-- n bytes at an offset as a number, most significant first. -/
def num (k : ParseCtx) (pos n : Nat) : Nat := beVal (slice k.bytes pos n)

/-- PTP header (IEEE 1588-2019): messageType and domainNumber. -/
def ptp (k : ParseCtx) (x : Parsed) (pos : Nat) : Parsed :=
  if !k.fit pos 34 then x.unparsed
  else { (x.flag 0).put 26 ((k.num pos 1 % 16) * 4096 + k.num (pos + 4) 1) with ptp := some pos }

/-- eCPRI common header: message type and the first two payload bytes. -/
def ecpri (k : ParseCtx) (x : Parsed) (pos : Nat) : Parsed :=
  if !k.fit pos 6 || k.num pos 1 / 16 != 1 then x.unparsed
  else (x.flag 1).put 25 (k.num (pos + 1) 1 * 65536 + k.num (pos + 4) 2)

/-- VXLAN header (RFC 7348). -/
def vxlan (k : ParseCtx) (x : Parsed) (pos : Nat) : Parsed :=
  if !k.fit pos 8 || k.num pos 1 / 8 % 2 == 0 then x.unparsed
  else { (x.flag 3).put 23 (k.num (pos + 4) 3) with vxEnd := some (pos + 8) }

/-- The GTP-U extension headers from an offset, with the type of the next: the offset after them, if at most n. -/
def gtpExts (k : ParseCtx) : Nat → Nat → Nat → Option Nat
  | n, next, pos =>
    if next = 0 then some pos
    else match n with
      | 0 => none
      | n + 1 =>
        let l := 4 * k.num pos 1
        if l = 0 || !k.fit pos l then none else k.gtpExts n (k.num (pos + l - 1) 1) (pos + l)

/-- GTP-U header with its optional fields and at most 4 extension headers (3GPP TS 29.281). -/
def gtpu (k : ParseCtx) (x : Parsed) (pos : Nat) : Parsed :=
  let b := k.num pos 1
  if !k.fit pos 8 then x.unparsed
  else if b / 32 ≠ 1 ∨ b / 16 % 2 ≠ 1 then x
  else
    let x := x.put 24 (k.num (pos + 4) 4)
    if b % 8 = 0 then { x.flag 2 with gtpEnd := some (pos + 8) }
    else if !k.fit pos 12 then x.unparsed
    else match k.gtpExts 4 (if b / 4 % 2 = 1 then k.num (pos + 11) 1 else 0) (pos + 12) with
      | some e => { x.flag 2 with gtpEnd := some e }
      | none => x.unparsed

/-- UDP and the headers its destination port selects. -/
def udp (k : ParseCtx) (x : Parsed) (pos : Nat) : Parsed :=
  if !k.fit pos 8 then x.unparsed
  else
    let d := k.num (pos + 2) 2
    let x := { ((x.flag 5).put 20 (k.num pos 2)).put 21 d with udp := some pos }
    if d = k.vxlanPort then k.vxlan x (pos + 8)
    else if d = 2152 then k.gtpu x (pos + 8)
    else if d = 319 ∨ d = 320 then k.ptp x (pos + 8)
    else if k.ecpriPort ≠ 0 ∧ d = k.ecpriPort then k.ecpri x (pos + 8)
    else x

/-- TCP. -/
def tcp (k : ParseCtx) (x : Parsed) (pos : Nat) : Parsed :=
  let off := k.num (pos + 12) 1 / 16
  if !k.fit pos 20 || decide (off < 5) || !k.fit pos (4 * off) then x.unparsed
  else (((x.flag 4).put 20 (k.num pos 2)).put 21 (k.num (pos + 2) 2)).put 22 (k.num (pos + 13) 1)

/-- What follows an IP header: UDP, TCP, or a terminal point (R210). -/
def l4 (k : ParseCtx) (x : Parsed) (proto pos : Nat) : Parsed :=
  if proto = 17 then k.udp x pos else if proto = 6 then k.tcp x pos else x

/-- IPv4 (R211). -/
def ipv4 (k : ParseCtx) (x : Parsed) (pos : Nat) : Parsed :=
  let b := k.num pos 1
  let ihl := b % 16
  if !k.fit pos 20 || b / 16 != 4 || decide (ihl < 5) || !k.fit pos (4 * ihl) then x.unparsed
  else
    let proto := k.num (pos + 9) 1
    let x := ((((x.flag 9).put 13 (k.num (pos + 12) 4)).put 14 (k.num (pos + 16) 4)).put 17 proto).put 18 (k.num (pos + 1) 1)
    let x := { x with ip4 := some pos }
    let x := if ihl > 5 then x.flag 7 else x
    if k.num (pos + 6) 2 % 8192 ≠ 0 then x.flag 6 else k.l4 x proto (pos + 4 * ihl)

/-- The IPv6 extension headers of types 0, 43, 44 and 60, at most n more (R211). -/
def ipv6Ext (k : ParseCtx) : Nat → Parsed → Nat → Nat → Parsed
  | n, x, next, pos =>
    if next = 0 ∨ next = 43 ∨ next = 44 ∨ next = 60 then
      match n with
      | 0 => x.unparsed
      | n + 1 =>
        let l := if next = 44 then 8 else 8 * (k.num (pos + 1) 1 + 1)
        if !k.fit pos 8 || !k.fit pos l then x.unparsed
        else
          let x' := x.put 17 (k.num pos 1)
          if next = 44 ∧ k.num (pos + 2) 2 / 8 ≠ 0 then x'.flag 6
          else k.ipv6Ext n x' (k.num pos 1) (pos + l)
    else k.l4 x next pos

/-- IPv6. -/
def ipv6 (k : ParseCtx) (x : Parsed) (pos : Nat) : Parsed :=
  let w := k.num pos 4
  if !k.fit pos 40 || w / 268435456 != 6 then x.unparsed
  else
    let next := k.num (pos + 6) 1
    let x := ((((x.flag 8).put 15 (k.num (pos + 8) 16)).put 16 (k.num (pos + 24) 16)).put 17 next).put 18 (w / 1048576 % 256)
    k.ipv6Ext 2 { x.put 19 (w % 1048576) with ip6 := some pos } next (pos + 40)

/-- IPv4 or IPv6 by the first nibble. -/
def byNibble (k : ParseCtx) (x : Parsed) (pos : Nat) : Parsed :=
  if !k.fit pos 1 then x.unparsed
  else if k.num pos 1 / 16 = 4 then k.ipv4 x pos
  else if k.num pos 1 / 16 = 6 then k.ipv6 x pos
  else x.unparsed

/-- The MPLS label stack, at most 4 labels; i labels have been read. -/
def mpls (k : ParseCtx) : Nat → Parsed → Nat → Nat → Parsed
  | 0, x, _, _ => x.unparsed
  | n + 1, x, i, pos =>
    if !k.fit pos 4 then x.unparsed
    else
      let v := k.num pos 3
      let x := if i < 2 then x.put (11 + i) v else x
      if v % 2 = 1 then k.byNibble { x with mplsEnd := some (pos + 4) } (pos + 4) else k.mpls n x (i + 1) (pos + 4)

/-- What an EtherType selects (Table 6.1). -/
def etype (k : ParseCtx) (x : Parsed) (et pos : Nat) : Parsed :=
  if et = 0x0800 then k.ipv4 x pos
  else if et = 0x86DD then k.ipv6 x pos
  else if et = 0x8847 ∨ et = 0x8848 then k.mpls 4 (x.flag 10) 0 pos
  else if et = 0xAEFE then k.ecpri x pos
  else if et = 0x88F7 then k.ptp x pos
  else x.unparsed

/-- The VLAN tags, at most n more, then the EtherType at pos; i tags have been read. -/
def tags (k : ParseCtx) : Nat → Parsed → Nat → Nat → Parsed
  | n, x, i, pos =>
    let et := k.num pos 2
    if et = 0x8100 ∨ et = 0x88A8 then
      match n with
      | 0 => x.unparsed
      | n + 1 =>
        if !k.fit pos 6 then x.unparsed
        else
          let x := (x.put (9 + i) (k.num (pos + 2) 2)).flag (12 - i)
          k.tags n (if i = 0 then { x with tci := some (pos + 2) } else x) (i + 1) (pos + 4)
    else k.etype (x.put 8 et) et (pos + 2)

/-- An Ethernet frame from an offset. -/
def ethernet (k : ParseCtx) (x : Parsed) (pos : Nat) : Parsed :=
  if !k.fit pos 14 then x.unparsed
  else k.tags 2 ((x.put 6 (k.num pos 6)).put 7 (k.num (pos + 6) 6)) 0 (pos + 12)

end ParseCtx

/-- The parse of a packet from an offset: as an Ethernet frame, or as IP by the first nibble (R209, R224). -/
def parsePacket (bytes : List Byte) (start vxlanPort ecpriPort : Nat) (asIp : Bool) (x : Parsed) : Parsed :=
  let k : ParseCtx := { bytes, stop := min bytes.length (start + 256), vxlanPort, ecpriPort }
  if asIp then k.byNibble x start else k.ethernet x start

/-! ### Keys (R212, R213) -/

/-- Widths of the key fields (Table 6.3). -/
def fieldWidth : List Nat :=
  [8, 8, 8, 16, 4, 16, 48, 48, 16, 16, 16, 24, 24] ++ [32, 32, 128, 128, 8, 8, 20, 16, 16]
    ++ [8, 24, 32, 24, 16]

/-- The key of a profile of total width w: fields packed from the top bit down (R213). -/
def packKey (w : Nat) (fields : List Nat) (x : Parsed) : Nat :=
  (fields.foldl (fun (acc : Nat × Nat) id =>
    let fw := fieldWidth.getD id 0
    let low := acc.1 - fw
    (low, acc.2 + (x.get id % 2 ^ fw) * 2 ^ low)) (w, 0)).2

/-- The bond hash of a packet (R244). -/
def bondHash (h : HashCfg) (x : Parsed) : BitVec 32 :=
  crc32 (beBytes 4 h.seed.toNat ++ ((List.range 27).filter fun i => h.fields.getLsbD i).flatMap fun i =>
    beBytes (ceilDiv (fieldWidth.getD i 0) 8) (x.get i))

end Sys2Proof.Machine
end

