-- ==== Sys2Proof/Machine/Time.lean ====
section
/-! DEFINITION. Time recovery, domains and triggers (09_time_domains.md): announces and measurements (R315 to R323), the shaper
tick as the model's clock, outputs and inputs of the time unit, timestamps (R336 to R339), gate lists (R341 to R343), and what
the commands of Table 18.9 apply. -/

namespace Sys2Proof.Machine

namespace State

/-! ### Delays in force (R117, R120) -/

/-- FE_DS and FE_US in force for the frame in progress (R120). -/
def feNow (s : State) (c : Nat) : Nat × Nat :=
  match (s.chan c).tc.feOld with
  | (d, u, _) :: _ => (d, u)
  | [] => ((s.chan c).cfg.feDs, (s.chan c).cfg.feUs)

/-- The instant, in ps, at which the upstream frame of a downstream frame leaves the lane (R117). -/
def laneInstant (s : State) (c tds : Nat) : Nat :=
  let (d, u) := s.feNow c
  tds + 40000000 + (s.chan c).tc.eqd * 20 - (d + u) * 20

/-! ### Announces and measurements -/

/-- TIME.ANNOUNCE as R103 has accepted it in frame n (R315). -/
def announceApply (s : State) (c : Nat) (b : AnnounceBody) (n : BitVec 48) : State :=
  let count := fun (k : TmCtr) => [0, 1].foldl (fun s d => if (s.dom d).chan = some c then s.bumpTm d k else s) s
  let d := sfcDiff b.tSfc n
  if !b.valid || b.teq == 0 then count .annInvalid
  else if d < -65536 ∨ 65536 < d then count .annRange
  else if !s.operating c then count .annState
  else (count .annOk).updTc c fun t => { t with announceNext := some b }

/-- The round-trip fibre delay TEQ − TR − EqD in eighth-words (R317). -/
def roundTrip (s : State) (c : Nat) (b : AnnounceBody) : Int := (b.teq.toNat : Int) - 2000000 - (s.chan c).tc.eqd

/-- The arrival delay D, computed to 1 fs (R317); none when the announce cannot be used. -/
def arrivalDelay (s : State) (c : Nat) : Option TimeVal :=
  match (s.chan c).tc.announceCur with
  | none => none
  | some b =>
    let r := s.roundTrip c b
    if r ≤ 0 then none
    else
      let fs := (r * 20000 * 68719476736).ediv (137438953472 + b.asym.toInt)
      some ((fs * psT 1).ediv 1000 + psT ((s.feNow c).1 * 20))

/-- A delay applied to 20 ps (R317), to the nearest. -/
def onPs20 (d : TimeVal) : TimeVal := (d + psT 10).ediv (psT 20) * psT 20

/-- The head-end departure time of frame n by an announce (R316). -/
def departure (b : AnnounceBody) (n : BitVec 48) : TimeVal :=
  mkTime b.tSec.toNat b.tNs.toNat b.tFrac.toNat + sfcDiff n b.tSfc * psT 125000000

/-- A domain's counter some 20 ps units after the last tick (R313, R314). -/
def domAt (s : State) (d off20 : Nat) : TimeVal := (s.dom d).t + psT (off20 * 20) + ((s.dom d).corr * 125 * off20).ediv 80

/-- Presented time some 20 ps units after the last tick. -/
def presentedAt (s : State) (off20 : Nat) : TimeVal := s.domAt s.time.active off20 + s.time.ofs

/-- The counter of a domain steps to the expected value (R322), which ends a run of good measurements (Table 9.2); of the active domain
this is a discontinuity (R325). -/
def stepDomain (s : State) (d : Nat) (err : TimeVal) : State :=
  let s := (s.updDom d fun x => { x with t := x.t - err, large := none, goodRun := 0 }).bumpTm d .domainStep
  if s.time.active = d then s.discontinuity (-err) else s

/-- The servo takes the error of a measurement made some frames after the one before (R321): a proportional-integral loop in which a
positive error lowers the correction, with the proportional gain 2·0.7·ω and the integral gain ω², which is the damping factor 0.7. -/
def servo (x : DomainSt) (err : TimeVal) (frames : Nat) : DomainSt :=
  let w := Config.servoOmega x.bw
  let e := err.tdiv fracU
  let lim : Int := 90071992547
  -- e is in 2^-16 ns, w in 2^-32 rad/s, a frame is 125 µs and a cycle 1.6 ns
  let integ := x.integ - (2 * (w * w * frames : Nat) * e).ediv 10000000000000
  { x with integ, corr := max (-lim) (min lim (integ.ediv 4294967296 - (224 * (w : Int) * e).ediv 100000000000)) }

/-- The servo and the run lengths of Table 9.2 take an error (R321). -/
def steer (s : State) (d : Nat) (err : TimeVal) (frames : Nat) : State :=
  let x := s.dom d
  let s := s.updDom d fun x => servo x err frames
  match x.ph with
  | .acquiring =>
    if absT err ≤ x.lockThr * nsU then
      if 999 ≤ x.goodRun then s.updDom d fun x => { x with ph := .locked, goodRun := 0, badRun := 0 }
      else s.updDom d fun x => { x with goodRun := x.goodRun + 1 }
    else s.updDom d fun x => { x with goodRun := 0 }
  | .locked =>
    if x.unlockThr * nsU < absT err then
      if 7 ≤ x.badRun then (s.updDom d fun x => { x with ph := .acquiring, goodRun := 0, badRun := 0 }).bumpTm d .lockLoss
      else s.updDom d fun x => { x with badRun := x.badRun + 1 }
    else s.updDom d fun x => { x with badRun := 0 }
  | _ => s

/-- A measurement that is no first one: a large error waits for its confirmation, others go to the servo (R322). -/
def takeError (s : State) (d : Nat) (err : TimeVal) (frames : Nat) : State :=
  if (s.dom d).dstep * nsU < absT err then s.updDom d fun x => { x with large := some err } else s.steer d err frames

/-- One measurement of a domain, some frames after the one before (R318, R321, R322). -/
def measureDom (s : State) (d : Nat) (err : TimeVal) (frames : Nat) (hold : Bool) : State :=
  if !s.fw.ready || s.fw.restarting then s.bumpTm d .measDrop
  else
    let x := s.dom d
    let s := (s.updDom d fun x => { x with srcHold := hold, errs := (err.tdiv fracU :: x.errs).take 8 }).bumpTm d .meas
    match x.ph with
    | .unbound => s
    | .holdover =>
      let good := decide (absT err ≤ x.lockThr * nsU)
      let s := s.updDom d fun x => { x with ph := if good then .locked else .acquiring, goodRun := 0, badRun := 0, first := false }
      if x.first then s.stepDomain d err else if good then s.steer d err frames else s.takeError d err frames
    | _ =>
      if x.first then (s.updDom d fun x => { x with first := false }).stepDomain d err
      else match x.large with
        | some e =>
          if absT (err - e) ≤ x.lockThr * nsU then s.stepDomain d err
          else ((s.updDom d fun x => { x with large := none }).bumpTm d .annOutlier).takeError d err frames
        | none => s.takeError d err frames

/-- The measurements of frame n of an OPERATING channel with a current announce (R318). -/
def measure (s : State) (c : Nat) (n : BitVec 48) (off20 : Nat) (hold : Bool) : State :=
  match (s.chan c).tc.announceCur with
  | none => s
  | some b =>
    [0, 1].foldl (fun s d =>
      if (s.dom d).chan ≠ some c then s
      else match s.arrivalDelay c with
        | none => if (s.chan c).tc.annBad then s else (s.bumpTm d .annInvalid).updTc c fun t => { t with annBad := true }
        | some delay =>
          let frames := match (s.dom d).lastSfc with | some m => (n - m).toNat | none => 1
          let s' := s.measureDom d (s.domAt d off20 - (departure b n + delay)) frames hold
          keepEstimate s ((s'.updDom d fun x => { x with lastSfc := some n }).reselect)) s

/-- ANN_TIMEOUT without a current announce (R323). -/
def doAnnTimeout (s : State) (d : Nat) : State :=
  match (s.dom d).chan with
  | some c => (s.updTc c fun t => { t with announceCur := none }).loseSource d
  | none => s

/-- The preferred domain has held the top rank for REVERT (R324). -/
def doRevertExpiry (s : State) : State :=
  let p := s.time.preferred
  if s.time.mode = 2 ∧ s.time.revert ≠ 0 ∧ s.time.active ≠ p ∧ 0 < s.rank p ∧ s.rank (1 - p) ≤ s.rank p then
    keepEstimate s (s.setActive p)
  else s

/-! ### The tick: 6.4 ns, four cycles of the time clock (R185, R313, R326) -/

/-- OFS moves toward 0 by at most a step (R326). -/
def slewToward (ofs step : TimeVal) : TimeVal := if 0 ≤ ofs then max 0 (ofs - step) else min 0 (ofs + step)

/-- What the slew limit allows in four cycles: whole units of 2^-48 ns in each (R312, R326). -/
def slewStep (slew : Nat) : TimeVal := ((4 * (slew * 16 * 281474976710656 / 10000000000) * 125 : Nat) : Int)

/-- A capture record is posted in its owner's timestamp ring (Table 9.6). -/
def postCapture (s : State) (i : Nat) (r : CaptRec) : State :=
  s.writeRecord (s.capt i).owner true fun lost rseq =>
    [0xFF#8, 0xFF#8, BitVec.ofNat 8 ((if lost then 128 else 0) + (if r.unsure then 64 else 0) + (if r.rising then 0 else 1)),
     BitVec.ofNat 8 i, 0, BitVec.ofNat 8 r.pstate, 0, 0] ++ timeBytes r.t ++ zeros 8 ++ leBytes 4 rseq

/-- One record of each capture pin is posted (R335). -/
def postPending (s : State) : State :=
  (List.range 4).foldl (fun s i => match (s.capt i).pend with
    | r :: l => (s.updCapt i fun x => { x with pend := l }).postCapture i r
    | [] => s) s

/-- A tick of a lane under test (R401, R402): a locked checker counts the bits of 6.4 ns at the lane's rate; of injection at a rate, whose
positions are independent, a free number of bits is inverted. -/
def tickLane (s : State) (l : Nat) : State :=
  let x := s.lane l
  let bits := if l < 256 then 1300 else 1360
  let s := if x.prbsLock then s.bumpLane l .prbsBits bits else s
  if x.test = 1 ∧ x.injM ≠ 0 then
    { s with draws := s.draws + 1 }.bumpLane l .injected ((Config.open64 24 s.draws).toNat % (bits + 1))
  else s

/-- A tick of a MAC: the paused time (index 36), and with the link up the codewords of 5,440 bits that its lanes bring (index 37). -/
def tickMac (s : State) (m : Nat) : State :=
  let x := s.mac m
  let s := if x.paused.isEmpty then s else s.bumpMac m 36
  if x.link then
    let q := x.cwPart + 8 / 2 ^ (s.port (m / 8)).mode
    (s.updMac m fun x => { x with cwPart := q % 4 }).bumpMac m 37 (q / 4)
  else s

/-- The tick of the model's clock: buckets refill, the time counters advance, OFS slews, the counters of time at MACs and lanes count. It is four
cycles of the time clock, which runs from the end of the COLD stretch (R36): before it nothing moves. -/
def doShaperTick (s : State) : State :=
  if !s.clockRuns .time then s
  else
  let s := { s.tickBuckets with now := s.now + 6400 }
  let s := if s.clockRuns .datapath then arbClocks 10 s else s
  let s := [0, 1].foldl (fun s d => s.updDom d fun x => { x with t := x.t + psT 6400 + 500 * x.corr }) s
  let s := if s.time.waiting || s.time.held then s
    else s.updTime fun t => { t with ofs := slewToward t.ofs (slewStep t.slew) }
  let s := s.lanes.foldl (fun s l => s.tickLane l.1) (s.macs.foldl (fun s m => s.tickMac m.1) s)
  s.postPending

/-! ### Pulses, time of day, triggers, captures (R329 to R335) -/

/-- SQUELCH keeps PPS_OUT inactive (R329). -/
def squelched (s : State) : Bool := match s.time.ppsSquelch with
  | 0 => false
  | 1 => s.pstate == 3
  | _ => decide (2 ≤ s.pstate)

/-- The level of PPS_OUT (R329): active while its pulse lasts, else the inactive level, at which it rests while squelched. -/
def ppsLevel (s : State) : Bool :=
  (s.time.ppsEn && !s.squelched && decide (s.now < s.time.ppsEnd)) == (s.time.ppsPol == 0)

/-- The instant in ps at which an edge falls whose instant presented time gives. -/
def edgeAt (s : State) (t : TimeVal) : Nat := s.now + ((t - s.presented).ediv (psT 1)).toNat

/-- PPS_OUT's leading edge at a whole presented second, and its trailing edge WIDTH later (R329); the time-of-day message of the
second is due (R331). -/
def doPpsEdge (s : State) : State :=
  let t : TimeVal := s.presented.ediv secU * secU
  let width := s.time.ppsWidth * 1000000
  let s := s.updTime fun x => { x with ppsSec := some t.sec }
  if s.time.ppsEn && !s.squelched then
    (s.updTime fun x => { x with ppsEnd := s.now + width }).emit (.pps t (t + psT width) (s.time.ppsPol == 0))
  else s

/-- Bounds of clockAccuracy 0x20 to 0x30 in ns (IEEE 1588-2019, named by R331); 0x31 is above 10 s. -/
def accBounds : List Int := [25, 100, 250, 1000, 2500, 10000, 25000, 100000, 250000, 1000000, 2500000, 10000000, 25000000,
  100000000, 250000000, 1000000000, 10000000000]

/-- clockAccuracy for the estimate E (R340). -/
def accCode (s : State) : Nat := match s.estimate with
  | none => 0xFE
  | some e => 0x20 + (accBounds.findIdx fun b => decide (e ≤ b * nsU))

/-- The time-of-day message of the second under way (Table 9.4). -/
def todBytes (s : State) : List Byte :=
  let b := [0xC3#8, 0x5E#8, 0x01#8, BitVec.ofNat 8 ((if s.time.steppedLast then 8 else 0) + (if s.time.active = 1 then 4 else 0) + s.pstate)]
    ++ beBytes 6 (s.time.ppsSec.getD s.presented.sec) ++ beBytes 2 s.time.utcOfs.toNat ++ [s.time.leap, BitVec.ofNat 8 s.accCode]
    ++ beBytes 4 (satS 32 (inNs s.time.ofs)) ++ zeros 8
  b ++ beBytes 2 (crc16 b).toNat

/-- The baud rate of TOD_OUT (R331). -/
def todBaud (s : State) : Nat := [9600, 115200, 921600].getD s.time.todRate 115200

/-- A byte as a UART frame: start bit, eight data bits from the least significant on, one stop bit (R331). -/
def uartFrame (b : Byte) : List Bool := [false] ++ (List.range 8).map b.getLsbD ++ [true]

/-- TOD_OUT sends its message (R331). -/
def doTodMessage (s : State) : State :=
  let s := if s.time.todEn then s.emit (.tod s.todBaud (s.todBytes.flatMap uartFrame)) else s
  s.updTime fun t => { t with steppedLast := false, ppsSec := none }

/-- The level of a trigger pin: active while a pulse lasts, at the polarity of that pulse (R330, R332). -/
def trigLevel (s : State) (i : Nat) : Bool :=
  match (s.trig i).pulse with
  | some (fin, high) => decide (s.now < fin) == high
  | none => (s.trig i).pol != 0

/-- A trigger pin gives the next pulse of its schedule, WIDTH long, both edges on the grid (R314, R333, R334). -/
def doTriggerPulse (s : State) (i : Nat) : State :=
  let s := if (s.trig i).mode = 2 ∧ !(s.operating (s.trig i).chan && s.synced (s.trig i).chan)
      ∧ (s.chan (s.trig i).chan).tc.st ≠ .doze then s.trigFree (s.trig i).chan else s
  let x := s.trig i
  match x.next with
  | none => s
  | some t =>
    let fin := onGrid (t + x.width * fracU)
    (s.updTrig i fun x => { x with
      idx := x.idx + 1, sub := x.sub + 1, done := x.done + 1, pulse := some (s.edgeAt fin, x.pol == 0) }).emit
      (.trig i (onGrid t) fin (x.pol == 0))

/-- A capture pin takes an edge (R335). -/
def doCaptureEdge (s : State) (i : Nat) (rising : Bool) (off100 : Nat) : State :=
  let x := s.capt i
  if !x.en || !(x.edge == 2 || (x.edge == 0) == rising) then s
  else if 64 ≤ x.pend.length then s.updCapt i fun x => { x with overflow := min (x.overflow + 1) ctrMax }
  else s.updCapt i fun x => { x with
    pend := x.pend ++ [{ rising, t := s.presentedAt (5 * off100), pstate := s.pstate, unsure := s.time.ofs != 0 }] }

/-! ### PTP (R336 to R339) -/

end State

/-- What a timestamp needs of a PTP event message: its place, messageType, domainNumber, sequenceId, clockIdentity. -/
structure PtpMsg where
  pos : Nat
  type : Nat
  domain : Nat
  seqId : Nat
  clock : List Byte
  twoStep : Bool
  ip4 : Option Nat
  udp : Option Nat
  deriving DecidableEq, Repr

/-- The PTP event message of a frame, as the parser recognises it (Table 6.1, R336). -/
def ptpEvent (bytes : List Byte) : Option PtpMsg :=
  let x := parsePacket bytes 0 4789 0 false {}
  match x.ptp with
  | none => none
  | some p =>
    let t := u8 bytes p % 16
    if 3 < t then none
    else some { pos := p, type := t, domain := u8 bytes (p + 4), seqId := beVal (slice bytes (p + 30) 2),
                clock := slice bytes (p + 20) 8, twoStep := bitAt bytes (p + 6) 1, ip4 := x.ip4, udp := x.udp }

/-- Bytes replaced from an offset. -/
def patch (bytes : List Byte) (off : Nat) (new : List Byte) : List Byte :=
  bytes.take off ++ new ++ bytes.drop (off + new.length)

/-- One's complement sum of a byte string in 16-bit words. -/
def onesSum : List Byte → Nat
  | a :: b :: l => a.toNat * 256 + b.toNat + onesSum l
  | [a] => a.toNat * 256
  | [] => 0

/-- A sum folded to 16 bits with end-around carry. -/
def fold16 (n : Nat) : Nat := let a := n / 65536 + n % 65536; let b := a / 65536 + a % 65536; b / 65536 + b % 65536

/-- A checksum corrected incrementally for bytes that change from old to new (R219, R338): RFC 1624. -/
def fixSum (sum : Nat) (old new : List Byte) : Nat :=
  65535 - fold16 ((65535 - sum) + (65535 * (old.length + 1) - onesSum old) + onesSum new)

/-- A one-step message with its originTimestamp and correctionField written (R338). -/
def oneStep (bytes : List Byte) (m : PtpMsg) (t : TimeVal) : List Byte :=
  let old := slice bytes (m.pos + 8) 36
  let corr := (beVal (slice bytes (m.pos + 8) 8) + t.frac) % 18446744073709551616
  let new := patch bytes (m.pos + 8) (beBytes 8 corr)
  let new := patch new (m.pos + 34) (beBytes 6 t.sec ++ beBytes 4 t.ns)
  match m.udp with
  | some u =>
    let sum := beVal (slice bytes (u + 6) 2)
    if sum = 0 then new else
      let v := fixSum sum old (slice new (m.pos + 8) 36)
      patch new (u + 6) (beBytes 2 (if v = 0 then 65535 else v))
  | none => new

namespace State

/-- A timestamp is posted in the ring of the MAC's owner (Table 9.6). -/
def postStamp (s : State) (m : Nat) (rx : Bool) (p : PtpMsg) (t : TimeVal) : State :=
  s.writeRecord (s.macOwner m) true fun lost rseq =>
    leBytes 2 m ++ [BitVec.ofNat 8 ((if lost then 128 else 0) + (if s.time.ofs ≠ 0 then 64 else 0) + (if rx then 1 else 0)),
      BitVec.ofNat 8 (p.type * 16), BitVec.ofNat 8 p.domain, BitVec.ofNat 8 s.pstate] ++ leBytes 2 p.seqId
    ++ timeBytes t ++ p.clock ++ leBytes 4 rseq

/-- A received event message is timestamped in TWO_STEP and ONE_STEP (R337). -/
def stampRx (s : State) (m : Nat) (bytes : List Byte) (off100 : Nat) : State :=
  if (s.mac m).tsMode = 0 then s
  else match ptpEvent bytes with
    | none => s
    | some p => s.postStamp m true p (s.presentedAt (5 * off100) + (s.mac m).rxAdj * psT 1)

/-- A transmitted event message: rewritten in ONE_STEP when it is a one-step Sync or Delay_Req, else timestamped (R337, R338). The
timestamp point is the end of the start delimiter, 8 bytes after the take instant (R336, R373), captured to 100 ps (R314). -/
def stampTx (s : State) (m : Nat) (bytes : List Byte) (off100 : Nat) : List Byte × State :=
  let x := s.mac m
  if x.tsMode = 0 then (bytes, s)
  else match ptpEvent bytes with
    | none => (bytes, s)
    | some p =>
      let t := onGrid (s.presentedAt (5 * off100) + 64 * s.bitTime m) + x.txAdj * psT 1
      if x.tsMode = 2 ∧ p.type ≤ 1 ∧ !p.twoStep then (oneStep bytes p t, s)
      else (bytes, s.postStamp m false p t)

/-- SA of a MAC (Table 11.2). -/
def macSa (s : State) (m : Nat) : BitVec 48 := (s.mac m).sa.getD (Config.baseMac + BitVec.ofNat 48 m)

/-- The header of a PTP message of a source instance (IEEE 1588-2019); the clockIdentity is the device's, a free value. -/
def ptpHeader (x : PtpSrc) (type len seq : Nat) (ctrl : Byte) (logInt : Int) : List Byte :=
  [BitVec.ofNat 8 type, 0x12#8] ++ beBytes 2 len ++ [BitVec.ofNat 8 x.domain, 0] ++ beBytes 2 0 ++ zeros 8 ++ zeros 4
    ++ beBytes 8 (Config.open64 2 0).toNat ++ beBytes 2 1 ++ beBytes 2 seq ++ [ctrl] ++ sBytes 1 logInt

/-- A PTP message in its Ethernet frame, by the instance's transport (R339). -/
def ptpFrame (s : State) (x : PtpSrc) (event : Bool) (msg : List Byte) : List Byte :=
  if x.udp then
    let udpLen := 8 + msg.length
    let ip := [0x45#8, 0#8] ++ beBytes 2 (20 + udpLen) ++ zeros 4 ++ [1#8, 17#8, 0#8, 0#8] ++ beBytes 4 x.ip.toNat ++ [224, 0, 1, 129]
    let ip := patch ip 10 (beBytes 2 (65535 - fold16 (onesSum ip)))
    let port := if event then 319 else 320
    [0x01, 0x00, 0x5E, 0x00, 0x01, 0x81] ++ beBytes 6 (s.macSa x.mac).toNat ++ beBytes 2 0x0800 ++ ip
      ++ beBytes 2 port ++ beBytes 2 port ++ beBytes 2 udpLen ++ zeros 2 ++ msg
  else [0x01, 0x1B, 0x19, 0x00, 0x00, 0x00] ++ beBytes 6 (s.macSa x.mac).toNat ++ beBytes 2 0x88F7 ++ msg

/-- A frame as the device builds it, for enqueue. -/
def builtFrame (bytes : List Byte) (stream : Option Nat) : Frame :=
  { id := 0, bytes := bytes ++ zeros (60 - bytes.length), flow := none, colour := .green, enq := 0, bond := none, cells := [],
    fromReserve := false, place := .head, claimed := false, reserved := false, stream }

/-- A source instance is running: enabled, its management firmware serving (R339). -/
def ptpRuns (s : State) (i : Nat) : Bool := (s.ptp i).en && s.fw.ready && !s.fw.restarting

/-- A source instance sends Sync, one-step (R339), through class 7 of its MAC (R375). -/
def doPtpSync (s : State) (i : Nat) : State :=
  let x := s.ptp i
  if !s.ptpRuns i then s
  else
    let msg := ptpHeader x 0 44 x.syncSeq.toNat 0 x.logSync ++ zeros 10
    let s := s.updPtp i fun x => { x with syncSeq := x.syncSeq + 1 }
    s.enqueue (egressQ x.mac 7) (builtFrame (s.ptpFrame x true msg) none)

/-- clockClass (Table 9.8). -/
def clockClass (s : State) : Nat :=
  if s.pstate = 1 then (if s.rank s.time.active = 2 then 6 else 7)
  else if s.pstate = 2 then (if s.estimate.getD 0 ≤ 1000 * nsU then 7 else 52)
  else 248

/-- A source instance sends Announce (R339, R340). -/
def doPtpAnnounce (s : State) (i : Nat) : State :=
  let x := s.ptp i
  if !s.ptpRuns i then s
  else
    let msg := ptpHeader x 11 64 x.annSeq.toNat 5 x.logAnn ++ zeros 10 ++ beBytes 2 s.time.utcOfs.toNat ++ [0, 128]
      ++ [BitVec.ofNat 8 s.clockClass, BitVec.ofNat 8 s.accCode] ++ beBytes 2 (if s.pstate = 1 then 0x4E5D else 0xFFFF) ++ [128]
      ++ beBytes 8 (Config.open64 2 0).toNat ++ beBytes 2 0 ++ [if s.pstate = 3 then 0xA0 else 0x90]
    let s := s.updPtp i fun x => { x with annSeq := x.annSeq + 1 }
    s.enqueue (egressQ x.mac 7) (builtFrame (s.ptpFrame x false msg) none)

/-- The instances of a MAC answer a Delay_Req of their domain with Delay_Resp (R339). -/
def answerDelayReq (s : State) (m : Nat) (bytes : List Byte) (off100 : Nat) : State :=
  match ptpEvent bytes with
  | none => s
  | some p =>
    if p.type ≠ 1 then s
    else
      let t := s.presentedAt (5 * off100) + (s.mac m).rxAdj * psT 1
      (s.time.ptp.filter fun y => y.2.en && y.2.mac == m && y.2.domain == p.domain && y.2.udp == p.udp.isSome).foldl
        (fun s y =>
          if !s.ptpRuns y.1 then s
          else
            let msg := (ptpHeader y.2 9 54 p.seqId 3 0) ++ beBytes 6 t.sec ++ beBytes 4 t.ns ++ Machine.slice bytes (p.pos + 20) 10
            let msg := patch msg 8 (beBytes 8 ((beVal (Machine.slice bytes (p.pos + 8) 8) + 18446744073709551616 - t.frac) % 18446744073709551616))
            s.enqueue (egressQ m 7) (builtFrame (s.ptpFrame y.2 false msg) none)) s

/-! ### Gate lists (R341 to R343) -/

/-- The gate of class k is open at presented time p and stays open for a time (R343). -/
def gateAllows (s : State) (m k : Nat) (p t : TimeVal) : Bool :=
  let x := s.mac m
  let later := fun (have_ : Option TimeVal) => match x.gateNext with
    | none => match have_ with | none => true | some h => decide (t ≤ h)
    | some (g', at_) =>
      let w := at_ - p
      match have_ with
      | some h => if h < w then decide (t ≤ h) else match g' with
        | none => true
        | some g' => match g'.run k g'.count 0 with | none => true | some h' => decide (t ≤ w + h')
      | none => match g' with
        | none => true
        | some g' => match g'.run k g'.count 0 with | none => true | some h' => decide (t ≤ w + h')
  match x.gate with
  | none => later none
  | some g =>
    if !x.gateMask.getLsbD k then false
    else
      let pos := (p - g.base).emod (g.cycle * nsU)
      let lo := g.off x.gateIdx
      let left := if lo ≤ pos ∧ pos < lo + g.dur x.gateIdx then lo + g.dur x.gateIdx - pos else g.dur x.gateIdx
      later ((g.run k g.count ((x.gateIdx + 1) % g.count)).map (left + ·))

/-- The pending list of a MAC takes effect at its switch instant (R342). -/
def doGateSwitch (s : State) (m : Nat) : State :=
  match (s.mac m).gateNext with
  | none => s
  | some (g, _) => (List.range 8).foldl (fun s k => s.settleHeads (egressQ m k)) (s.updMac m fun x => { x with
      gate := g, gateNext := none, gateIdx := 0
      gateMask := match g with | some g => (g.entries.getD 0 (0xFF, 0)).1 | none => 0xFF
      gateSwitches := min (x.gateSwitches + 1) ctrMax })

/-- The next entry of the running list begins (R341). -/
def doGateEntryStart (s : State) (m : Nat) : State :=
  match (s.mac m).gate with
  | none => s
  | some g =>
    let i := ((s.mac m).gateIdx + 1) % max 1 g.count
    s.updMac m fun x => { x with gateIdx := i, gateMask := (g.entries.getD i (0xFF, 0)).1 }

end State

/-! ### The block's own events -/

def execAnnTimeout (d : DomId) (s : State) : Host.Outcome State Fault Refusal := .next (s.doAnnTimeout d)
def execRevertExpiry (s : State) : Host.Outcome State Fault Refusal := .next s.doRevertExpiry
def execShaperTick (s : State) : Host.Outcome State Fault Refusal := .next s.doShaperTick
def execPpsEdge (s : State) : Host.Outcome State Fault Refusal := .next s.doPpsEdge
def execTodMessage (s : State) : Host.Outcome State Fault Refusal := .next s.doTodMessage
def execTriggerPulse (t : Fin 8) (s : State) : Host.Outcome State Fault Refusal := .next (s.doTriggerPulse t)
def execCaptureEdge (i : Fin 4) (rising : Bool) (off : Nat) (s : State) : Host.Outcome State Fault Refusal :=
  .next (s.doCaptureEdge i rising off)
def execPtpSyncSend (i : Fin 64) (s : State) : Host.Outcome State Fault Refusal := .next (s.doPtpSync i)
def execPtpAnnounceSend (i : Fin 64) (s : State) : Host.Outcome State Fault Refusal := .next (s.doPtpAnnounce i)
def execGateSwitch (m : Mac) (s : State) : Host.Outcome State Fault Refusal := .next (s.doGateSwitch m)
def execGateEntryStart (m : Mac) (s : State) : Host.Outcome State Fault Refusal := .next (s.doGateEntryStart m)

/-! ### Time commands (Table 18.9) -/

/-- A TIME field is out of range: nanoseconds from 0 to 999,999,999 (R312). -/
def timeBad (p : List Byte) (i : Nat) : Bool := decide (999999999 < u32 p (i + 6))

def applyTimeDomainBind (k : Nat) (p : List Byte) (s : State) : CmdResult :=
  let d := u8 p 0
  let c := u8 p 1
  checked s (p.length == 2) (right0 k)
    (firstBad p [(decide (1 < d), 0), ((decide (63 < c) && c != 255) || (c != 255 && (s.dom (1 - d)).chan == some c), 1)] [])
    (let s' := (s.dropLarge d).updDom d fun x => { x with
       chan := if c = 255 then none else some c
       ph := if c = 255 then .unbound else .acquiring
       first := c != 255, lastSfc := none, goodRun := 0, badRun := 0, srcHold := false, errs := [] }
     let s' := if (s.dom d).ph = .locked then s'.bumpTm d .lockLoss else s'
     done (State.keepEstimate s s'.reselect))

def applyTimeDomainSet (k : Nat) (p : List Byte) (s : State) : CmdResult :=
  let d := u8 p 0
  let out := fun (i lo hi : Nat) => (decide (u32 p i < lo) || decide (hi < u32 p i), i)
  checked s (p.length == 24) (right0 k)
    (firstBad p [(decide (1 < d), 0), out 4 1 10000, out 8 1 1000, out 12 10 100000, out 16 1000 60000, out 20 100 1000000] [(1, 3)])
    (done (s.updDom d fun x => { x with
      bw := u32 p 4, lockThr := u32 p 8, unlockThr := u32 p 12, annTimeout := u32 p 16, dstep := u32 p 20 }))

def applyTimeSelectSet (k : Nat) (p : List Byte) (s : State) : CmdResult :=
  checked s (p.length == 12) (right0 k)
    (firstBad p [(decide (2 < u8 p 0), 0), (decide (1 < u8 p 1), 1), (decide (3600 < u16 p 2), 2),
      (u32 p 4 == 0 || decide (1000 < u32 p 4), 4), (u32 p 8 == 0 || decide (1000000 < u32 p 8), 8)] [])
    (done (State.keepEstimate s ((s.updTime fun t => { t with
      mode := u8 p 0, preferred := u8 p 1, revert := u16 p 2, slew := u32 p 4, stepThr := u32 p 8 }).reselect)))

def applyTimeResolve (k : Nat) (p : List Byte) (s : State) : CmdResult :=
  checked s (p.length == 1) (right0 k) (firstBad p [(decide (1 < u8 p 0), 0)] [])
    (if !s.time.waiting then fail s stState
     else if u8 p 0 = 0 then done (s.updTime fun t => { t with waiting := false })
     else
       let q := s.presented
       done ((s.updTime fun t => { t with waiting := false, ofs := 0 }).presentedStep q))

def applyTimeSet (k : Nat) (p : List Byte) (s : State) : CmdResult :=
  checked s (p.length == 12) (right0 k) (firstBad p [(timeBad p 0, 6)] [])
    (if (s.dom 0).ph = .locked ∨ (s.dom 1).ph = .locked then fail s stState
     else
       let q := s.presented
       done ((s.updTime fun t => { t with
         ofs := timeAt p 0 - (s.dom s.time.active).t, held := true, waiting := false, everSet := true
         eBase := 1000000 * nsU, eSince := s.now, eSet := true }).presentedStep q))

/-- State byte of a domain (T_A_STATE, Table 17.13). -/
def domStateByte (s : State) (d : Nat) : Byte := BitVec.ofNat 8 (s.rank d * 16 + (s.dom d).ph.ctorIdx)

/-- A frequency correction in 10^-6 ppm, signed. -/
def corrPpm (x : Int) : Int := (x * 625000000000).ediv 281474976710656

def applyTimeGet (_ : Nat) (p : List Byte) (s : State) : CmdResult :=
  let err := fun d => sBytes 4 (((s.dom d).errs.headD 0).tdiv 65536)
  checked s (p.length == 0) none none
    (done s (timeBytes s.presented ++ timeBytes (s.dom 0).t ++ timeBytes (s.dom 1).t ++ sBytes 8 (s.time.ofs.tdiv fracU)
      ++ [BitVec.ofNat 8 s.time.active, BitVec.ofNat 8 s.pstate, domStateByte s 0, domStateByte s 1]
      ++ err 0 ++ err 1 ++ sBytes 4 (corrPpm (s.dom 0).corr) ++ sBytes 4 (corrPpm (s.dom 1).corr)))

/-- Whether a partition may read the time counters of a kind and index (R344, Table 18.9). -/
def timeStatsRight (k kind i : Nat) (s : State) : Option Nat := match kind with
  | 0 => right0 k
  | 1 => s.ownsTrig k i
  | 2 => s.ownsCapt k i
  | 3 => own (decide (7 < i) || i == k) i
  | 4 => s.ownsMac k i
  | _ => none

def applyTimeStatsGet (k : Nat) (p : List Byte) (s : State) : CmdResult :=
  let kind := u8 p 0
  let i := u8 p 1
  let clear := u8 p 2 == 1
  checked s (p.length == 3) (timeStatsRight k kind i s)
    (firstBad p [(decide (4 < kind), 0), (decide ([1, 7, 3, 7, 255].getD kind 255 < i), 1), (decide (1 < u8 p 2), 2)] [])
    (match kind with
     | 0 => done (if clear then s.updDom i fun x => { x with ctr := [] } else s) (ctrBytes (s.dom i).ctr 12)
     | 1 => done (if clear then s.updTrig i fun x => { x with ctrSkipped := 0, ctrFree := 0 } else s)
         (leBytes 8 (s.trig i).ctrSkipped ++ leBytes 8 (s.trig i).ctrFree)
     | 2 => done (if clear then s.updCapt i fun x => { x with overflow := 0 } else s) (leBytes 8 (s.capt i).overflow)
     | 3 => done (if clear then s.updEp i fun e => { e with ts := { e.ts with lost := 0 } } else s) (leBytes 8 (s.ep i).ts.lost)
     | _ => done (if clear then s.updMac i fun x => { x with gateDrops := 0, gateSwitches := 0 } else s)
         (leBytes 8 (s.mac i).gateDrops ++ leBytes 8 (s.mac i).gateSwitches))

def applyPpsSet (k : Nat) (p : List Byte) (s : State) : CmdResult :=
  checked s (p.length == 8) (right0 k)
    (firstBad p [(decide (1 < u8 p 0), 0), (decide (1 < u8 p 1), 1), (decide (2 < u8 p 2), 2),
      (u32 p 4 == 0 || decide (500000 < u32 p 4), 4)] [(3, 1)])
    (done ((s.updTime fun t => { t with ppsEn := u8 p 0 == 1, ppsPol := u8 p 1, ppsSquelch := u8 p 2, ppsWidth := u32 p 4 }).setPin 0 4))

def applyTodSet (k : Nat) (p : List Byte) (s : State) : CmdResult :=
  checked s (p.length == 8) (right0 k)
    (firstBad p [(decide (1 < u8 p 0), 0), (decide (2 < u8 p 1), 1), (decide (3 < u8 p 4), 4)] [(5, 3)])
    (done ((s.updTime fun t => { t with
      todEn := u8 p 0 == 1, todRate := u8 p 1, utcOfs := BitVec.ofNat 16 (u16 p 2), leap := BitVec.ofNat 8 (u8 p 4) }).setPin 1 4))

/-- The trigger a TRIG.SET describes (Table 9.5); a pulse in progress goes on (R332). -/
def trigFrom (p : List Byte) (owner : Nat) (x : TrigSt) : TrigSt :=
  { owner, mode := u8 p 1, pol := u8 p 2, chan := u8 p 3, start := timeAt p 4, period := u64 p 16, width := u64 p 24,
    count := u32 p 32, offset := u64 p 36, pulse := x.pulse, ctrSkipped := x.ctrSkipped, ctrFree := x.ctrFree }

def applyTrigSet (k : Nat) (p : List Byte) (s : State) : CmdResult :=
  let i := u8 p 0
  let mode := u8 p 1
  let per := u64 p 16
  let w := u64 p 24
  let kk := (65536000000 + per / 2) / per
  let convBad := kk == 0 || decide (1000 < kk) || decide (per * kk > 65536000000 + kk) || decide (per * kk + kk < 65536000000)
  checked s (p.length == 44) (firstOf [s.ownsTrig k i, if mode = 2 then s.ownsChan k (u8 p 3) else none])
    (firstBad p [(decide (7 < i), 0), (decide (2 < mode), 1), (decide (1 < u8 p 2), 2),
      (if mode = 2 then decide (63 < u8 p 3) else u8 p 3 != 255, 3), (timeBad p 4, 4),
      (per != 0 && mode != 0 && (decide (per < 65536000) || decide (65536000000000 < per) || (mode == 2 && convBad)), 16),
      (per != 0 && (decide (w < 655360) || (if mode = 0 then decide (32768000000000 < w) else decide (per < w + 655360))), 24),
      (mode == 2 && per != 0 && decide (per ≤ u64 p 36), 36)] [])
    (let s := (s.updTrig i fun x => trigFrom p x.owner x).setPin (2 + i) 4
     -- a pulse in progress completes first (R332)
     let left := match (s.trig i).pulse with | some (fin, _) => fin - s.now | none => 0
     done (s.updTrig i fun x => if x.mode = 2 then x else x.resume true (s.presented + psT left)))

def applyCaptSet (k : Nat) (p : List Byte) (s : State) : CmdResult :=
  let i := u8 p 0
  checked s (p.length == 3) (s.ownsCapt k i)
    (firstBad p [(decide (3 < i), 0), (decide (1 < u8 p 1), 1), (decide (2 < u8 p 2), 2)] [])
    (done (s.updCapt i fun x => { x with en := u8 p 1 == 1, edge := u8 p 2 }))

def adjBad (p : List Byte) (i : Nat) : Bool := decide (i32 p i < -65536) || decide (65535 < i32 p i)

def applyPtpPortSet (k : Nat) (p : List Byte) (s : State) : CmdResult :=
  let m := u8 p 0
  checked s (p.length == 12) (s.ownsMac k m)
    (firstBad p [(decide (2 < u8 p 1), 1), (adjBad p 4, 4), (adjBad p 8, 8)] [(2, 2)])
    (if u8 p 1 ≠ 2 ∧ s.time.ptp.any fun y => y.2.en && y.2.mac == m then fail s stState
     else done (s.updMac m fun x => { x with tsMode := u8 p 1, txAdj := i32 p 4, rxAdj := i32 p 8 }))

def applyPtpSourceSet (k : Nat) (p : List Byte) (s : State) : CmdResult :=
  let i := u8 p 0
  let m := u8 p 2
  checked s (p.length == 12) (right0 k)
    (firstBad p [(decide (63 < i), 0), (decide (1 < u8 p 1), 1), (decide (i8 p 4 < -7) || decide (0 < i8 p 4), 4),
      (decide (i8 p 5 < -3) || decide (3 < i8 p 5), 5), (decide (1 < u8 p 6), 6)] [(7, 1)])
    (if u8 p 1 = 1 ∧ (s.mac m).tsMode ≠ 2 then fail s stState
     else done (s.updPtp i fun x => { x with
       en := u8 p 1 == 1, mac := m, domain := u8 p 3, logSync := i8 p 4, logAnn := i8 p 5, udp := u8 p 6 == 1
       ip := BitVec.ofNat 32 (beVal (slice p 8 4)) }))

def applyTsRingSet (k : Nat) (p : List Byte) (s : State) : CmdResult := ringSet true k p s

/-- The switch instant: the first cycle start at least 2 µs ahead (R342). -/
def switchInstant (now base : TimeVal) (cycle : Nat) : TimeVal :=
  let c : Int := cycle * nsU
  let n := (now + 2000 * nsU - base + (c - 1)).ediv c
  base + max 0 n * c

/-- The gate list a GATE.SET describes; none removes the list. -/
def gateFrom (p : List Byte) : Option GateList :=
  let n := u16 p 2
  if n = 0 then none
  else some { base := timeAt p 4, cycle := u32 p 16, entries := (List.range n).map fun i => (p.getD (20 + 8 * i) 0, u32 p (24 + 8 * i)) }

def applyGateSet (k : Nat) (p : List Byte) (s : State) : CmdResult :=
  let m := u8 p 0
  let n := u16 p 2
  checked s (p.length == 20 + 8 * n) (s.ownsMac k m)
    (firstBad p ([(decide (256 < n), 2), (timeBad p 4, 4), (decide (u32 p 16 < 1000), 16)]
      ++ (List.range n).map fun i => (decide (u32 p (24 + 8 * i) < 64), 24 + 8 * i))
      ((1, 1) :: (List.range n).map fun i => (21 + 8 * i, 3)))
    (done (s.updMac m fun x => { x with gateNext := some (gateFrom p, switchInstant s.presented (timeAt p 4) (u32 p 16)) }))

/-- A gate list as GATE.SET lays it out, n = 0 when there is none. -/
def gateBytes (m : Nat) (g : Option GateList) : List Byte := match g with
  | none => [BitVec.ofNat 8 m, 0, 0, 0] ++ zeros 16
  | some g => [BitVec.ofNat 8 m, 0] ++ leBytes 2 g.entries.length ++ timeBytes g.base ++ leBytes 4 g.cycle
      ++ g.entries.flatMap fun e => [e.1, 0, 0, 0] ++ leBytes 4 e.2

def applyGateGet (k : Nat) (p : List Byte) (s : State) : CmdResult :=
  let m := u8 p 0
  let x := s.mac m
  checked s (p.length == 1) (s.ownsMac k m) none
    (let run := gateBytes m x.gate
     done s (leBytes 4 run.length ++ run ++ (match x.gateNext with
       | some (g, t) => timeBytes t ++ gateBytes m g
       | none => zeros 12 ++ gateBytes m none)))

end Sys2Proof.Machine
end

