-- ==== Sys2Proof/Machine/Classify.lean ====
section
/-! DEFINITION. Classification, rule versions and bonding (06_classification_bonding.md): lookup and merge (R217, R218), actions
(R219 to R225), versions (R226 to R233), the bond spreader (R237 to R239, R244 to R246), the reorder engine (R240 to R243), host
LAG spreading (R247), and what the commands of Tables 18.5 and 18.7 apply. -/

namespace Sys2Proof.Machine

/-! ### Rules and versions -/

/-- An entry lives in a version (R227); `died` 0 is unset. -/
def liveAt (born died v : Nat) : Bool := decide (born ≤ v) && (died == 0 || decide (v < died))

/-- Bit of an action in AMASK, in the order of Table 6.5. -/
def ActionSet.has (a : ActionSet) (n : Nat) : Bool := a.mask.getLsbD n

/-- Slice that serves a source (R206). -/
def sliceOf (src : Nat) : Nat := if src < 64 then src / 4 else (src - 64) / 2

/-- Two sets merged field by field, the first winning where both set a field (R218, R225). -/
def ActionSet.overlay (w l : ActionSet) : ActionSet :=
  let p := fun {α : Type} (n : Nat) (f : ActionSet → α) => if w.has n then f w else f l
  { mask := w.mask ||| l.mask
    queue := p 0 (·.queue), allocC := p 1 (·.allocC), allocA := p 1 (·.allocA), allocM := p 1 (·.allocM)
    bondG := p 2 (·.bondG), bondL := p 2 (·.bondL), flow := p 3 (·.flow), mac := p 4 (·.mac), lag := p 4 (·.lag)
    cls := p 5 (·.cls), policer := p 6 (·.policer), markY := p 6 (·.markY), markR := p 6 (·.markR), mark := p 7 (·.mark)
    mirror := p 8 (·.mirror), counter := p 10 (·.counter), decap := p 11 (·.decap) }

/-- What the tables give for a pass: the merged set, and the sets whose police and count actions all apply, in order (R218,
R220). -/
structure Found where
  act : ActionSet
  each : List ActionSet
  deriving DecidableEq, Repr

namespace State

def cl (s : State) (k : Nat) : PartCl := (s.part k).cl
def updCl (s : State) (k : Nat) (f : PartCl → PartCl) : State := s.updPart k fun p => { p with cl := f p.cl }

/-- Owner of a source (R42). -/
def srcOwner (s : State) (src : Nat) : Nat := if src < 64 then (s.chan src).owner else (s.port (src - 64)).owner

/-- A key profile of partition k in version v. -/
def profileAt (s : State) (k i v : Nat) : Option KeyProfile :=
  ((s.cl k).profiles.find? fun e => e.1 == i && liveAt e.2.2.1 e.2.2.2 v).map (·.2.1)

/-- The configuration of a source in version v (R214). -/
def sourceAt (s : State) (k src v : Nat) : SourceCfg :=
  (((s.cl k).sources.find? fun e => e.1 == src && liveAt e.2.2.1 e.2.2.2 v).map (·.2.1)).getD {}

/-- The entries of partition k that a packet of a source meets in a pass of version v (R215, R227). -/
def entriesFor (s : State) (k src pass v prof : Nat) (ternary : Bool) : List Rule :=
  s.rules.filter fun r => r.part == k && r.ternary == ternary && r.profile == prof && liveAt r.born r.died v
    && r.scope.getLsbD src && !r.lost.contains src && (r.pass == 3 || r.pass == pass)

/-- The ternary entry that wins: highest priority, then lowest handle (R217). -/
def bestTernary (l : List Rule) : Option Rule :=
  l.foldl (fun b r => match b with
    | none => some r
    | some b => if b.prio < r.prio ∨ (b.prio = r.prio ∧ r.handle < b.handle) then some r else some b) none

/-- Lookup in both tables (R217) and merge (R218); none when neither matches. -/
def lookup (s : State) (k src pass v : Nat) (exp tep : Option Nat) (x : Parsed) : Option Found :=
  let e := match exp with
    | none => none
    | some i => match s.profileAt k i v with
      | none => none
      | some p =>
        let key := BitVec.ofNat 320 (packKey 128 p.fields x)
        (s.entriesFor k src pass v i false).find? fun (r : Rule) => r.value == key
  let t := match tep with
    | none => none
    | some i => match s.profileAt k i v with
      | none => none
      | some p =>
        let key := BitVec.ofNat 320 (packKey 320 p.fields x)
        bestTernary ((s.entriesFor k src pass v i true).filter fun (r : Rule) => (key ^^^ r.value) &&& r.mask == 0)
  match e, t with
  | none, none => none
  | some e, none => some { act := e.act, each := [e.act] }
  | none, some t => some { act := t.act, each := [t.act] }
  | some e, some t => some { act := if t.act.has 12 then t.act.overlay e.act else e.act.overlay t.act, each := [e.act, t.act] }

end State

/-! ### A packet in its slice -/

/-- A packet (R206, R85): source, receiving MAC, the metadata of a downstream segment, and its bytes without FCS as they stand. -/
structure Pkt where
  src : Nat
  macIn : Nat := 0
  flowCtx : Nat := 0
  flowTag : Nat := 0
  keyx : Nat := 0
  bytes : List Byte
  deriving DecidableEq, Repr

def Pkt.line (p : Pkt) : Bool := decide (p.src < 64)

/-- Length B of R192: with FCS. -/
def Pkt.lenB (p : Pkt) : Nat := p.bytes.length + 4

/-- A mark value rewrites the frame at the places of its outer headers (R219). -/
def applyMark (x : Parsed) (m : Mark) (bs : List Byte) : List Byte :=
  let tci := fun (f : BitVec 16 → BitVec 16) (bs : List Byte) => match x.tci with
    | some o => patch bs o (beBytes 2 (f (BitVec.ofNat 16 (beVal (slice bs o 2)))).toNat)
    | none => bs
  let bs := match m.sel with
    | 1 => tci (fun v => (v &&& 0x1FFF#16) ||| (BitVec.ofNat 16 m.val <<< 13)) bs
    | 2 => tci (fun v => (v &&& 0xEFFF#16) ||| (BitVec.ofNat 16 (m.val % 2) <<< 12)) bs
    | 3 => match x.ip4, x.ip6 with
      | some o, _ =>
        let old := slice bs o 2
        let new := [old.getD 0 0, (old.getD 1 0 &&& 0x03#8) ||| (BitVec.ofNat 8 m.val <<< 2)]
        let sum := beVal (slice bs (o + 10) 2)
        patch (patch bs o new) (o + 10) (beBytes 2 (fixSum sum old new))
      | none, some o =>
        let v := BitVec.ofNat 16 (beVal (slice bs o 2))
        patch bs o (beBytes 2 ((v &&& 0xF03F#16) ||| (BitVec.ofNat 16 m.val <<< 6)).toNat)
      | none, none => bs
    | _ => bs
  if m.setDei then tci (fun v => v ||| 0x1000#16) bs else bs

namespace State

/-- One police action (R192, R193): the state, the colour, the frame, and whether it drops. The bytes of a colour count L (R205). A
police action carries no mark value for green, so that ACT_G = mark applies none (a DESIGN CHOICE; log 101). -/
def police (s : State) (k : Nat) (a : ActionSet) (x : Parsed) (b : Nat) (incoming : Option Colour) (bs : List Byte) :
    State × Colour × List Byte × Bool :=
  let i := partIdx k a.policer
  let p := s.policer i
  let dei := match x.tci with
    | some o => decide (beVal (Machine.slice bs o 2) / 4096 % 2 = 1)
    | none => false
  let inc := incoming.getD (if p.deiYellow && dei then .yellow else .green)
  let (c, p') := p.meter b inc
  let s := s.updPolicer i fun _ => p'
  let (cp, cb, act, mark) : PolCtr × PolCtr × PolAct × Mark := match c with
    | .green => (.greenPkts, .greenBytes, p.actG, {})
    | .yellow => (.yellowPkts, .yellowBytes, p.actY, a.markY)
    | .red => (.redPkts, .redBytes, p.actR, a.markR)
  let s := (s.bumpPol i cp).bumpPol i cb (b - 4)
  match act with
  | .pass => (s, c, bs, false)
  | .mark => (s, c, applyMark x mark bs, false)
  | .drop => (s.bumpPol i .dropPkts, c, bs, true)

/-- The metadata of a mirror copy, which no rule lays out: free values (R222; log 11). -/
def mirrorInfo (n : Nat) : List Byte := [11, 12, 13, 14].flatMap fun place => beBytes 8 (Config.open64 place n).toNat

/-- A mirror copy goes to its cluster's queue, or is discarded when it finds that full (R222). The engine firmware has by then taken
some number of the oldest copies, which is a free value (log 105). -/
def mirror (s : State) (sl src cluster : Nat) (bs : List Byte) : State :=
  let old := Tab.get [] s.fw.mirrors cluster
  let l := old.drop ((Config.open64 10 s.draws).toNat % (old.length + 1))
  let info := mirrorInfo s.draws
  let s := { s with draws := s.draws + 1 }
  if s.alive (engDom cluster) && decide (l.length < 64) then
    s.updFw fun f => { f with mirrors := Tab.set [] f.mirrors cluster (l ++ [{ src, info, bytes := bs.take 256 }]) }
  else s.bumpCl sl .mirrorDrop

/-- A counter of partition k counts a packet (R221). -/
def countPkt (s : State) (k i b : Nat) : State :=
  { s with counters := Tab.upd (0, 0) s.counters (partIdx k i) fun c => (min (c.1 + 1) ctrMax, min (c.2 + b) ctrMax) }

end State

/-- What a pass leaves: the state, the frame as marked, whether it is dropped, and the colour if the pass policed. -/
structure PassOut where
  state : State
  bytes : List Byte
  drop : Bool
  colour : Option Colour

/-- One pass applies its merged set: police, drop, mark, count, mirror (R220). -/
def applyPass (s : State) (k sl src : Nat) (x : Parsed) (b : Nat) (f : Found) (bs : List Byte) : PassOut :=
  let pol := (f.each.filter fun a => a.has 6).foldl (fun (o : PassOut) a =>
    let (s, c, bs, d) := o.state.police k a x b o.colour o.bytes
    { state := s, bytes := bs, drop := o.drop || d, colour := some c })
    { state := s, bytes := bs, drop := false, colour := none }
  let drop := pol.drop || f.each.any fun a => a.has 9
  let bs := if f.act.has 7 then applyMark x f.act.mark pol.bytes else pol.bytes
  let s := (((f.each.filter fun a => a.has 10).map (·.counter)).eraseDups).foldl (fun s i => s.countPkt k i b) pol.state
  let s := if f.act.has 8 then s.mirror sl src f.act.mirror bs else s
  { state := s, bytes := bs, drop, colour := pol.colour }

/-- The result of classification (R223): the final set, the frame, the fields of its last pass, its colour. -/
structure Classified where
  act : ActionSet
  bytes : List Byte
  fields : Parsed
  colour : Colour
  deriving DecidableEq, Repr

namespace State

/-- The parse of one pass with the fields that no header gives (R212). -/
def parsePass (p : Pkt) (cfg : SourceCfg) (start : Nat) (asIp second : Bool) : Parsed :=
  let x := parsePacket p.bytes start cfg.vxlanPort cfg.ecpriPort asIp {}
  let x := ((((x.put 0 p.src).put 1 p.macIn).put 2 p.flowCtx).put 3 p.flowTag).put 4 p.keyx
  let x := if p.line then x.flag 13 else x
  let x := if second then x.flag 14 else x
  x.put 5 x.flags.toNat

/-- Where a second pass parses, and whether as IP (R224); none when the header was not parsed. -/
def decapAt (x : Parsed) (kind : Nat) : Option (Nat × Bool) := match kind with
  | 0 => some (0, false)
  | 1 => x.vxEnd.map fun o => (o, false)
  | 2 => x.gtpEnd.map fun o => (o, true)
  | _ => x.mplsEnd.map fun o => (o, false)

/-- A pass takes a pipeline slot: 8 pipelines of 1.5625 GHz take one each 80 ps (R207). -/
def takeSlot (s : State) (sl : Nat) : State := s.updSlice sl fun y => { y with free := max y.free s.now + 80 }

/-- A packet passes its slice (R217 to R225); none when it is dropped, and counted CL_DROP. Its passes are one step, with the version
that is current when it arrives: no packet stands in a pipeline between two commands (a DESIGN CHOICE; log 102). -/
def classify (s : State) (p : Pkt) : Option Classified × State :=
  let k := s.srcOwner p.src
  let v := (s.cl k).cur
  let sl := sliceOf p.src
  let cfg := s.sourceAt k p.src v
  let b := p.lenB
  let opts := fun (s : State) (x : Parsed) => if x.has 7 then s.bumpCl sl .ipv4Options else s
  let pass := fun (s : State) => ((s.takeSlot sl).bumpCl sl .passes).updSlice sl fun y => { y with srcPasses := y.srcPasses.add p.src 1 }
  let x1 := parsePass p cfg 0 false false
  let s := opts (pass s) x1
  let hit := s.lookup k p.src 1 v cfg.exp1 cfg.tep1 x1
  let s := if hit.isSome then s
    else (s.bumpCl sl .miss).updSlice sl fun y => { y with srcMiss := y.srcMiss.add p.src 1 }
  let f1 := hit.getD { act := cfg.miss, each := [cfg.miss] }
  let o1 := applyPass s k sl p.src x1 b f1 p.bytes
  let last := fun (s : State) (x : Parsed) => if x.has 15 then s.bumpCl sl .unparsed else s
  let finish := fun (s : State) (x : Parsed) (act : ActionSet) (bs : List Byte) (drop : Bool) (c : Option Colour) =>
    let s := last s x
    if drop then (none, s.bumpCl sl .drop)
    else (some { act, bytes := bs, fields := x, colour := c.getD .green }, s)
  if o1.drop || !f1.act.has 11 then finish o1.state x1 f1.act o1.bytes o1.drop o1.colour
  else match decapAt x1 f1.act.decap with
    | none => finish (o1.state.bumpCl sl .recircFail) x1 f1.act o1.bytes false o1.colour
    | some (start, asIp) =>
      let x2 := parsePass { p with bytes := o1.bytes } cfg start asIp true
      let s := opts ((pass o1.state).bumpCl sl .recirc) x2
      match s.lookup k p.src 2 v cfg.exp2 cfg.tep2 x2 with
      | none => finish s x2 f1.act o1.bytes false o1.colour
      | some f2 =>
        let s := if f2.act.has 11 then s.bumpCl sl .recircIgnored else s
        let o2 := applyPass s k sl p.src x1 b f2 o1.bytes
        finish o2.state x2 (f2.act.overlay f1.act) o2.bytes o2.drop (match o2.colour with | some c => some c | none => o1.colour)

/-! ### Bond groups upstream (R237 to R239, R244, R245) -/

/-- A flow context of a channel is bonded (Table 6.6). -/
def bondedFlow (s : State) (c f : Nat) : Option Nat :=
  match s.groupOf c with
  | some g => if (s.bond g).flows.contains f then some g else none
  | none => none

/-- Body words granted in the last WINDOW frames to the allocation of a member's local queue l (R237). -/
def bondGranted (s : State) (g l c : Nat) : Nat :=
  let h := (s.chan c).us.grantHist
  match h.head?, (s.queue (128 * c + l)).cfg.alloc with
  | some (newest, _), some a =>
    ((h.filter fun e => decide (sfcDiff newest e.1 < (s.bond g).window)).map fun e =>
      ((e.2.filter fun w => w.1 == a).map (·.2)).sum).sum
  | _, _ => 0

/-- The weights of a member are computed again at its map hand-off (R237). A group just set has weights of 0 until then (a DESIGN
CHOICE; log 103). -/
def bondReweigh (s : State) (c : Nat) : State := match s.groupOf c with
  | none => s
  | some g => s.updBond g fun b =>
      let i := b.members.idxOf c
      { b with weights := (b.weights.filter fun w => w.1 != i) ++ b.queues.map fun l => (i, l, s.bondGranted g l c) }

/-- The weight of a member position for local queue l as it was last computed (R237). -/
def bondWeight (s : State) (g l i : Nat) : Nat :=
  (((s.bond g).weights.find? fun w => w.1 == i && w.2.1 == l).map (·.2.2)).getD 0

/-- Entry i of an indirection table (R245). -/
def tableAt (t : Tab Nat) (n i : Nat) : Nat := let v := Tab.get 0 t i; if v = 0 then i % n else v - 1

/-- The first eligible entry of a table from an index on, and whether it is a later one (R245). -/
def tableFind (t : Tab Nat) (n idx : Nat) (ok : Nat → Bool) : Option (Nat × Bool) :=
  if n = 0 then none
  else match (List.range 4096).find? fun i => ok (tableAt t n ((idx + i) % 4096)) with
    | some i => some (tableAt t n ((idx + i) % 4096), i != 0)
    | none => none

/-- A frame for an upstream queue; traffic that stays in it wakes a dozing channel (R123, R197). -/
def enqueueUp (s : State) (q : Nat) (f : Frame) : State :=
  let s' := s.enqueue q f
  if (s.queue q).frames.length < (s'.queue q).frames.length then
    s'.earlyWake (q / 128) 1
  else s'

/-- The choice among eligible positions with their weights, and the credits of those positions after it (R238). -/
def bondPick (x : BondSt) (e : List (Nat × Nat)) : Option (Nat × List (Nat × Int)) :=
  let tot := (e.map (·.2)).sum
  let cred := fun (i : Nat) => ((x.credit.find? fun c => c.1 == i).map (·.2)).getD 0
  if e.isEmpty then none
  else if tot = 0 then
    let i := match e.find? fun p => decide (x.lastPick < p.1) with
      | some p => p.1
      | none => (e.headD (0, 0)).1
    some (i, e.map fun p => (p.1, cred p.1))
  else
    let cur := e.map fun p => (p.1, cred p.1 + (p.2 : Int))
    let best := cur.foldl (fun (b : Nat × Int) p => if b.2 < p.2 then p else b) (cur.headD (0, 0))
    some (best.1, cur.map fun p => if p.1 = best.1 then (p.1, p.2 - tot) else p)

/-- The bond spreader takes a host packet for local queue l (R238, R245). -/
def bondSpread (s : State) (g l : Nat) (f : Frame) (x : Parsed) : State :=
  let b := s.bond g
  let n := b.members.length
  let elig := (List.range n).filter fun i => s.bondEligible g l (b.members.getD i 0)
  if n ≤ 8 then
    let e := elig.map fun i => (i, s.bondWeight g l i)
    match bondPick b e with
    | none => s.bumpBond g .usNomember
    | some (i, cred) =>
      let q := 128 * b.members.getD i 0 + l
      let rest := b.credit.filter fun c => !elig.contains c.1
      let s' := s.enqueueUp q { f with bond := some (g, b.seq) }
      if (s.queue q).frames.length < (s'.queue q).frames.length then
        (s'.updBond g fun y => { y with
          credit := rest ++ cred, lastPick := i, seq := (b.seq + 1) % 16777216 }).bumpBond g .usAssigned
      else s'
  else
    match tableFind b.table n ((bondHash b.hash x).toNat % 4096) fun i => elig.contains i with
    | none => s.bumpBond g .usNomember
    | some (i, later) =>
      let s := if later then s.bumpBond g .hashRemap else s
      let q := 128 * b.members.getD i 0 + l
      let s' := s.enqueueUp q { f with bond := some (g, 0) }
      if (s.queue q).frames.length < (s'.queue q).frames.length then s'.bumpBond g .usAssigned else s'

/-- A member enters LISTEN or SILENCED: the unclaimed frames its group placed are dropped (R239). -/
def bondMemberDown (s : State) (c : Nat) : State :=
  match s.groupOf c with
  | none => s
  | some g =>
    (List.range 128).foldl (fun s l =>
      let q := 128 * c + l
      let sel := fun (f : Frame) => !f.claimed && (match f.bond with | some b => b.1 == g | none => false)
      if (s.queue q).frames.any sel then
        s.takeOut q sel fun s _ => (s.bumpQ q .flushed).bumpBond g .usDropMember
      else s) s

/-! ### The reorder engine (R240 to R243) -/

/-- A held segment is delivered: its cells are freed and it is enqueued on its egress queue. -/
def deliverHeld (s : State) (g : Nat) (h : Held) : State := match h.frame with
  | none => s
  | some f => (((if f.cells.isEmpty then s else s.freeFrame f).enqueue h.q { f with cells := [], via := 120 })).bumpBond g .dsInorder

/-- Held arrivals are delivered for as long as one carries NEXT (R241). -/
def drainHeld (g : Nat) : Nat → State → State
  | 0, s => s
  | n + 1, s => match (s.bond g).next with
    | none => s
    | some nx => match (s.bond g).held.find? fun h => h.seq == nx with
      | none => s
      | some h =>
        let s := s.updBond g fun b => { b with held := b.held.erase h, next := some ((nx + 1) % 16777216) }
        drainHeld g n (s.deliverHeld g h)

/-- Distance of a sequence number from NEXT. -/
def seqDist (s nx : Nat) : Nat := (s + 16777216 - nx) % 16777216

/-- NEXT moves to the lowest held sequence, and what it allows is delivered (R243). -/
def forceNext (s : State) (g : Nat) (k : BondCtr) : State :=
  match (s.bond g).next with
  | none => s
  | some nx =>
    let ds := (s.bond g).held.map fun h => seqDist h.seq nx
    match ds.min? with
    | none => s
    | some d =>
      let s := s.updBond g fun b => { b with next := some ((nx + d) % 16777216) }
      let s := (s.bumpBond g k).bumpBond g .dsSkipped d
      drainHeld g (s.bond g).held.length s

/-- Bytes held by a group. -/
def heldBytes (b : BondSt) : Nat := (b.held.map fun h => match h.frame with | some f => f.len | none => 0).sum

/-- An arrival takes its place in the sequence, being neither late nor held already: delivered when NEXT is its number, else held;
while its bytes would exceed 65,536, NEXT first moves to the lowest sequence number among the held ones and it (R241, R243). That an
arrival which finds too few cells outside the reserve is treated in the same way is a DESIGN CHOICE (log 104). -/
def takeArrival (g seq q : Nat) (f : Option Frame) : Nat → State → State
  | 0, s => s
  | n + 1, s =>
    let nx := (s.bond g).next.getD seq
    let d := seqDist seq nx
    let l := (f.map Frame.len).getD 0
    if d = 0 then
      let s := s.updBond g fun b => { b with next := some ((seq + 1) % 16777216) }
      let s := match f with
        | some f => (s.enqueue q f).bumpBond g .dsInorder
        | none => s
      drainHeld g (s.bond g).held.length s
    else if f.isNone ∨ heldBytes (s.bond g) + l ≤ 65536 ∧ headCells l ≤ s.mainFree then
      let (cells, s) := if f.isSome then allocCells (headCells l) s else ([], s)
      let s := s.askBanks ((f.map (·.via)).getD 120) cells
      let s := (s.updBond g fun b => { b with
        held := b.held ++ [{ seq, frame := f.map fun f => { f with cells := cells }, q, at_ := s.now }] }).cellsChanged
      if f.isSome then s.bumpBond g .dsHeld else s
    else
      let low := ((s.bond g).held.map fun h => seqDist h.seq nx).foldl min d
      let s := s.updBond g fun b => { b with next := some ((nx + low) % 16777216) }
      let s := (s.bumpBond g .dsOverflow).bumpBond g .dsSkipped low
      takeArrival g seq q f n (if low = d then s else drainHeld g (s.bond g).held.length s)

/-- An arrival at the engine: a segment for egress queue q, or a skip token (R241, R242). -/
def reorder (s : State) (g seq q : Nat) (f : Option Frame) : State :=
  let s := if f.isNone then s.bumpBond g .dsTokens else s
  let s := match (s.bond g).next with
    | none => s.updBond g fun b => { b with next := some seq }
    | some _ => s
  if seqDist seq ((s.bond g).next.getD seq) < 8388608 ∧ !((s.bond g).held.any fun h => h.seq == seq) then
    takeArrival g seq q f ((s.bond g).held.length + 2) s
  else match f with
    | some f => (s.enqueue q f).bumpBond g .dsLate
    | none => s

/-- The oldest held segment has reached REORDER_TO (R243). -/
def doReorderTimeout (s : State) (g : Nat) : State := s.forceNext g .dsTimeout

/-- Every held segment is delivered in sequence order, and NEXT is undefined (R236). -/
def releaseAll (s : State) (g : Nat) : State :=
  let nx := (s.bond g).next.getD 0
  let l := (s.bond g).held.mergeSort fun a b => decide (seqDist a.seq nx ≤ seqDist b.seq nx)
  l.foldl (fun s h => s.deliverHeld g h) (s.updBond g fun b => { b with held := [], next := none })

/-! ### Targets (R223) -/

/-- A frame as the classification of a slice hands it on, which writes it (Table 7.5). -/
def newFrame (sl : Nat) (bs : List Byte) (c : Colour) (flow : Option Nat) : Frame :=
  { id := 0, bytes := bs, flow, colour := c, enq := 0, bond := none, cells := [], fromReserve := false, place := .head,
    claimed := false, reserved := false, stream := none, via := sl }

/-- The queue at a member position of an allocation context, by the binding in force (R173, R180). -/
def memberQueue (s : State) (c a m : Nat) : Option Nat :=
  ((List.range 128).map fun l => 128 * c + l).find? fun q => (s.queue q).cfg.alloc == some a && (s.queue q).cfg.member == m

/-- A host packet goes to its upstream queue or bond spreader (R219, R223). -/
def toUpstream (s : State) (sl : Nat) (r : Classified) : State :=
  let f := newFrame sl r.bytes r.colour (if r.act.has 3 then some r.act.flow else none)
  if r.act.has 0 then s.enqueueUp r.act.queue f
  else if r.act.has 1 then
    match s.memberQueue r.act.allocC r.act.allocA r.act.allocM with
    | some q => s.enqueueUp q f
    | none => s.bumpCl sl .noTarget
  else if r.act.has 2 then s.bondSpread r.act.bondG r.act.bondL f r.fields
  else s.bumpCl sl .noTarget

/-- The egress queue of a downstream packet (R219, R247); none when it names no MAC or no member of its LAG is up. -/
def egressOf (s : State) (r : Classified) : Option Nat :=
  let cls := if r.act.has 5 then r.act.cls else 0
  if !r.act.has 4 then none
  else if r.act.lag then
    let g := s.lag r.act.mac
    let n := g.members.length
    (tableFind g.table n ((bondHash g.hash r.fields).toNat % 4096) fun i => (s.mac (g.members.getD i 0)).link).map fun p =>
      egressQ (g.members.getD p.1 0) cls
  else some (egressQ r.act.mac cls)

/-- A slice takes packets while it is powered and out of reset; otherwise they are lost at its input (R208). -/
def sliceTakes (s : State) (sl : Nat) : Bool := s.alive (sliceDom sl)

/-- Bytes of a source that wait in its input FIFO (R208). -/
def fifoBytes (s : State) (sl src : Nat) : Nat :=
  (((s.slice sl).fifo.filter fun e => e.src == src && decide (s.now < e.begins)).map (·.bytes)).sum

/-- A packet enters the input FIFO of its source and waits for its first pipeline slot; none when it does not fit in the 64 KiB and is
lost (R208). -/
def fifoEnter (s : State) (sl src n : Nat) : Option State :=
  if 65536 < s.fifoBytes sl src + n then none
  else some (s.updSlice sl fun y => { y with
    fifo := (y.fifo.filter fun e => decide (s.now < e.begins)) ++ [{ src, begins := max y.free s.now, bytes := n }] })

/-- A packet passes its slice unless its input FIFO has no room for it (R208). -/
def sliceRun (s : State) (sl : Nat) (p : Pkt) : Option Classified × State :=
  match s.fifoEnter sl p.src p.bytes.length with
  | none => (none, s.bumpCl sl .overrun)
  | some s => s.classify p

/-- A packet is lost at the input of an absent slice (R208, R457). -/
def sliceLost (s : State) (sl : Nat) : State := (s.bumpCl sl .overrun).absentResponse (sliceDom sl) 1

/-- A host frame enters its slice (R206, R372). -/
def classifyHost (s : State) (m : Nat) (bytes : List Byte) : State :=
  let src := 64 + m / 8
  let sl := sliceOf src
  if !s.sliceTakes sl then s.sliceLost sl
  else match s.sliceRun sl { src, macIn := m, bytes } with
    | (none, s) => s
    | (some r, s) => s.toUpstream sl r

/-- A skip token for a discarded segment of a bonded flow in a sequenced group (R242). -/
def skipToken (s : State) (c flow : Nat) (seq : Option Nat) : State :=
  match s.bondedFlow c flow, seq with
  | some g, some n => if (s.bond g).members.length ≤ 8 then s.reorder g n 0 none else s
  | _, _ => s

/-- A downstream data segment enters its slice, with its bond sequence number if it carries one (R85, R240). -/
def classifyLine (s : State) (p : Pkt) (seq : Option Nat) : State :=
  let sl := sliceOf p.src
  let token := fun (s : State) => s.skipToken p.src p.flowCtx seq
  if !s.sliceTakes sl then token (s.sliceLost sl)
  else match s.sliceRun sl p with
    | (none, s) => token s
    | (some r, s) => match s.egressOf r with
      | none => token (s.bumpCl sl .noTarget)
      | some q =>
        let f := newFrame sl r.bytes r.colour none
        match s.bondedFlow p.src p.flowCtx, seq with
        | some g, some n => if (s.bond g).members.length ≤ 8 then s.reorder g n q (some f) else s.enqueue q f
        | _, _ => s.enqueue q f

/-- A draining version is freed (R230). -/
def doVersionDrained (s : State) (k : Nat) : State :=
  let v := (s.cl k).drain
  if v = 0 then s
  else
    let cur := (s.cl k).cur
    let keep := fun (died : Nat) => died == 0 || decide (cur < died)
    let s := { s with rules := s.rules.filter fun r => r.part != k || keep r.died }
    let s := s.updCl k fun p => { p with
      drain := 0
      profiles := p.profiles.filter fun e => keep e.2.2.2
      sources := p.sources.filter fun e => keep e.2.2.2 }
    s.event 0x5001 0 0 0 (det1 v) [k]

end State

def execReorderTimeout (g : Fin 32) (s : State) : Host.Outcome State Fault Refusal := .next (s.doReorderTimeout g)
def execVersionDrained (k : EpId) (s : State) : Host.Outcome State Fault Refusal := .next (s.doVersionDrained k)

/-! ### Rule commands (Table 18.5) -/

/-- A mark value of an action set (Table 18.6). -/
def markAt (p : List Byte) (i : Nat) : Mark := { sel := u8 p i, val := u8 p (i + 1), setDei := bitAt p (i + 2) 0 }

/-- An action set from its 32 bytes (Table 18.6). -/
def actionAt (p : List Byte) (i : Nat) : ActionSet :=
  { mask := BitVec.ofNat 16 (u16 p i), queue := u16 p (i + 2), allocC := u8 p (i + 4), allocA := u8 p (i + 5), allocM := u8 p (i + 6)
    bondG := u8 p (i + 7), bondL := u8 p (i + 8), flow := u8 p (i + 9), mac := u8 p (i + 10), lag := bitAt p (i + 11) 0
    cls := u8 p (i + 12), mirror := u8 p (i + 13), policer := u16 p (i + 14), markY := markAt p (i + 16), markR := markAt p (i + 19)
    mark := markAt p (i + 22), decap := u8 p (i + 25), counter := u32 p (i + 28) }

def markBytes (m : Mark) : List Byte := [BitVec.ofNat 8 m.sel, BitVec.ofNat 8 m.val, bByte m.setDei]

/-- The 32 bytes of an action set. -/
def actionBytes (a : ActionSet) : List Byte :=
  leBytes 2 a.mask.toNat ++ leBytes 2 a.queue ++ [a.allocC, a.allocA, a.allocM, a.bondG, a.bondL, a.flow, a.mac].map (BitVec.ofNat 8)
    ++ [bByte a.lag, BitVec.ofNat 8 a.cls, BitVec.ofNat 8 a.mirror] ++ leBytes 2 a.policer ++ markBytes a.markY ++ markBytes a.markR
    ++ markBytes a.mark ++ [BitVec.ofNat 8 a.decap, 0, 0] ++ leBytes 4 a.counter

/-- The places an absent action leaves zero (R553): action, offset, length. -/
def actionFields : List (Nat × Nat × Nat) :=
  -- actions 0 to 5 name a target, 6 to 11 act on the packet
  [(0, 2, 2), (1, 4, 3), (2, 7, 2), (3, 9, 1), (4, 10, 2), (5, 12, 1)]
    ++ [(8, 13, 1), (6, 14, 8), (7, 22, 3)] ++ [(11, 25, 1), (10, 28, 4)]

def markBad (p : List Byte) (i : Nat) : List (Bool × Nat) :=
  [(decide (3 < u8 p i), i), (decide ([255, 7, 1, 63].getD (u8 p i) 255 < u8 p (i + 1)), i + 1), (decide (1 < u8 p (i + 2)), i + 2)]

/-- The range faults of an action set for a scope with host sources, line sources, and in a ternary entry (R219, R553). -/
def actionBad (p : List Byte) (i : Nat) (host line ternary : Bool) : List (Bool × Nat) :=
  let a := actionAt p i
  [(decide (8191 < u16 p i) || (!ternary && a.has 12), i), (decide (8191 < a.queue) || (line && a.has 0), i + 2),
    (decide (63 < a.allocC) || (line && a.has 1), i + 4), (decide (63 < a.allocA), i + 5), (decide (7 < a.allocM), i + 6),
    (decide (31 < a.bondG) || (line && a.has 2), i + 7), (decide (127 < a.bondL), i + 8), (line && a.has 3, i + 9),
    ((a.lag && decide (63 < a.mac)) || (host && a.has 4), i + 10), (decide (1 < u8 p (i + 11)), i + 11),
    (decide (7 < a.cls) || (host && a.has 5), i + 12),
    (decide (15 < a.mirror), i + 13), (decide (3 < a.decap), i + 25)]
  ++ markBad p (i + 16) ++ markBad p (i + 19) ++ markBad p (i + 22)
  ++ actionFields.flatMap fun f => if a.has f.1 then [] else
      (List.range f.2.2).map fun j => (u8 p (i + f.2.1 + j) != 0, i + f.2.1 + j)

/-- The first target of an action set that partition k does not own (R219). -/
def actionRight (s : State) (k : Nat) (a : ActionSet) : Option Nat :=
  firstOf [if a.has 0 then s.ownsQueue k a.queue else none, if a.has 1 then s.ownsChan k a.allocC else none,
    if a.has 2 then s.ownsBond k a.bondG else none,
    if a.has 4 then (if a.lag then own (decide (64 ≤ a.mac) || ((s.lag a.mac).owner == k && !(s.lag a.mac).members.isEmpty)) a.mac
      else s.ownsMac k a.mac) else none,
    if a.has 6 then s.inQuota k 5 a.policer else none, if a.has 10 then s.inQuota k 6 a.counter else none]

/-- The entries of partition k as staging holds them: those live in the next version (R226). -/
def State.stagedRules (s : State) (k : Nat) : List Rule :=
  let st := (s.cl k).staged
  let gone := st.filterMap fun e => match e with
    | .mod r => some r.handle
    | .del h => some h
    | _ => none
  (s.rules.filter fun r => r.part == k && r.died == 0 && !gone.contains r.handle)
    ++ st.filterMap fun e => match e with
      | .add r => some r
      | .mod r => some r
      | _ => none

/-- Every entry that takes room: stored ones and staged new ones (R231). -/
def State.storedRules (s : State) : List Rule :=
  s.rules ++ s.parts.flatMap fun p => p.2.cl.staged.filterMap fun e => match e with
    | .add r => some r
    | .mod r => some r
    | _ => none

/-- The slices a rule has an entry in (R215). -/
def Rule.slices (r : Rule) : List Nat := (((List.range 96).filter fun i => r.scope.getLsbD i).map sliceOf).eraseDups

/-- Whether an edit names a handle. -/
def Edit.names (h : Nat) : Edit → Bool
  | .add r => r.handle == h
  | .mod r => r.handle == h
  | .del g => g == h
  | _ => false

/-- A handle that an edit may name: of a rule live in the current version, or added in staging; a staged edit of it would be replaced
(R226). -/
def State.handleKnown (s : State) (k h : Nat) : Bool :=
  (s.rules.any fun r => r.part == k && r.handle == h && r.died == 0)
    || (s.cl k).staged.any fun e => match e with
      | .add r => r.handle == h
      | _ => false

/-- Partition k's staging without the edits that name a handle. -/
def State.unstaged (s : State) (k h : Nat) : State := s.updCl k fun x => { x with staged := x.staged.filter fun e => !e.names h }

/-- Whether a new rule finds room in its slices and in its partition's quota (R215, R216, R231). -/
def State.roomFor (s : State) (k : Nat) (r : Rule) : Bool :=
  let all := s.storedRules.filter fun x => x.ternary == r.ternary
  let cap := if r.ternary then 1024 else 32768
  let used := fun (sl : Nat) => (all.filter fun x => x.slices.contains sl).length
  (r.slices.all fun sl => decide (used sl < cap) &&
      (r.ternary || decide (used sl < 29491) || Config.exactPlaces sl (used sl) s.draws))
    && decide ((((all.filter fun x => x.part == k).map fun x => x.slices.length).sum + r.slices.length)
        ≤ s.quota k (if r.ternary then 3 else 2))

/-- A rule from the payload of RULE.ADD, at an offset (Table 18.5). -/
def ruleAt (p : List Byte) (i k handle born : Nat) : Rule :=
  { part := k, handle, ternary := u8 p i == 1, profile := u8 p (i + 1), pass := u8 p (i + 2)
    scope := BitVec.ofNat 96 (leVal (slice p (i + 4) 12)), prio := u16 p (i + 16), value := BitVec.ofNat 320 (leVal (slice p (i + 20) 40))
    mask := BitVec.ofNat 320 (leVal (slice p (i + 60) 40)), act := actionAt p (i + 100), born, died := 0, lost := [] }

/-- The rights a rule needs: its sources, profile and targets (R215, R219, R540). -/
def ruleRight (s : State) (k : Nat) (r : Rule) : Option Nat :=
  firstOf (((List.range 96).filter fun i => r.scope.getLsbD i).map (fun i => own (s.srcOwner i == k) i)
    ++ [own (decide (64 ≤ r.profile) || decide (r.profile < s.quota k 7)) r.profile, actionRight s k r.act])

/-- Two exact entries would meet one packet with equal keys (R217). -/
def Rule.clash (a b : Rule) : Bool :=
  !a.ternary && !b.ternary && a.handle != b.handle && a.profile == b.profile && a.value == b.value
    && (a.scope &&& b.scope) != 0 && (a.pass == 3 || b.pass == 3 || a.pass == b.pass)

/-- The faults of a rule's fields at an offset of its payload. -/
def ruleBad (s : State) (k : Nat) (p : List Byte) (i : Nat) (r : Rule) : Option Nat :=
  let host := (List.range 32).any fun j => r.scope.getLsbD (64 + j)
  let line := (List.range 64).any fun j => r.scope.getLsbD j
  firstBad p ([(decide (1 < u8 p i), i), (decide (63 < r.profile), i + 1), (r.pass == 0 || decide (3 < r.pass), i + 2),
      ((s.stagedRules k).any r.clash, i + 20)] ++ actionBad p (i + 100) host line r.ternary)
    ([(i + 3, 1), (i + 18, 2), (i + 126, 2)] ++ if r.ternary then [] else [(i + 36, 64)])

def applyRuleAdd (k : Nat) (p : List Byte) (s : State) : CmdResult :=
  let h := (s.cl k).nextHandle
  let r := ruleAt p 0 k h ((s.cl k).cur + 1)
  checked s (p.length == 132) (ruleRight s k r) (ruleBad s k p 0 r)
    (if !s.roomFor k r then fail s stNoResource
     else done ({ s.updCl k fun x => { x with staged := x.staged ++ [.add r], nextHandle := h + 1 } with draws := s.draws + 1 })
       (leBytes 4 h))

/-- A staged edit that names a handle replaces an earlier one; a change of a rule added in staging stays an addition, and its
deletion leaves nothing (R226). -/
def stageEdit (l : List Edit) (h : Nat) (e : Edit) : List Edit :=
  let added := l.any fun x => match x with
    | .add r => r.handle == h
    | _ => false
  let rest := l.filter fun x => !x.names h
  if !added then rest ++ [e]
  else match e with
    | .mod r => rest ++ [.add r]
    | _ => rest

def applyRuleMod (k : Nat) (p : List Byte) (s : State) : CmdResult :=
  let h := u32 p 0
  let r := ruleAt p 4 k h ((s.cl k).cur + 1)
  checked s (p.length == 136) (ruleRight s k r) (if s.handleKnown k h then ruleBad s k p 4 r else some 0)
    (if !(s.unstaged k h).roomFor k r then fail s stNoResource
     else done { s.updCl k fun x => { x with staged := stageEdit x.staged h (.mod r) } with draws := s.draws + 1 })

def applyRuleDel (k : Nat) (p : List Byte) (s : State) : CmdResult :=
  let h := u32 p 0
  checked s (p.length == 4) none (if s.handleKnown k h then none else some 0)
    (done (s.updCl k fun x => { x with staged := stageEdit x.staged h (.del h) }))

/-- A rule as RULE.ADD lays it out (R553). -/
def ruleBytes (r : Rule) : List Byte :=
  [bByte r.ternary, BitVec.ofNat 8 r.profile, BitVec.ofNat 8 r.pass, 0] ++ leBytes 12 r.scope.toNat ++ leBytes 2 r.prio ++ zeros 2
    ++ leBytes 40 r.value.toNat ++ leBytes 40 r.mask.toNat ++ actionBytes r.act

/-- The newest entry of a handle, staged included. -/
def State.newestRule (s : State) (k h : Nat) : Option Rule :=
  let st := (s.cl k).staged
  let stored := (s.rules.filter fun r => r.part == k && r.handle == h).foldl (fun (b : Option Rule) r => match b with
    | some x => if x.born < r.born then some r else some x
    | none => some r) none
  match st.find? fun e => e.names h with
  | some (.add r) => some r
  | some (.mod r) => some r
  | some (.del _) => stored.map fun r => { r with died := if r.died = 0 then (s.cl k).cur + 1 else r.died }
  | _ => stored

def applyRuleGet (k : Nat) (p : List Byte) (s : State) : CmdResult :=
  match s.newestRule k (u32 p 0) with
  | none => checked s (p.length == 4) none (some 0) (done s)
  | some r => checked s (p.length == 4) none none (done s (ruleBytes r ++ leBytes 4 r.born ++ leBytes 4 r.died))

/-- An edit takes effect at version v (R227, R228). -/
def applyEdit (k v : Nat) (s : State) : Edit → State
  | .add r => { s with rules := s.rules ++ [{ r with born := v }] }
  | .mod r => { s with
      rules := (s.rules.map fun x => if x.part = k ∧ x.handle = r.handle ∧ x.died = 0 then { x with died := v } else x)
        ++ [{ r with born := v }] }
  | .del h => { s with
      rules := s.rules.map fun x => if x.part = k ∧ x.handle = h ∧ x.died = 0 then { x with died := v } else x }
  | .profile i q => s.updCl k fun x => { x with
      profiles := (x.profiles.map fun e => if e.1 = i ∧ e.2.2.2 = 0 then (e.1, e.2.1, e.2.2.1, v) else e) ++ [(i, q, v, 0)] }
  | .source i c => s.updCl k fun x => { x with
      sources := (x.sources.map fun e => if e.1 = i ∧ e.2.2.2 = 0 then (e.1, e.2.1, e.2.2.1, v) else e) ++ [(i, c, v, 0)] }

def applyRuleCommit (k : Nat) (p : List Byte) (s : State) : CmdResult :=
  let x := s.cl k
  checked s (p.length == 0) none none
    (if x.staged.isEmpty then done s (leBytes 4 x.cur)
     else if x.drain ≠ 0 then fail s stBusy
     else
       let v := x.cur + 1
       let s := x.staged.foldl (applyEdit k v) s
       done (s.updCl k fun y => { y with cur := v, drain := x.cur, staged := [] }) (leBytes 4 v))

def applyRuleAbort (k : Nat) (p : List Byte) (s : State) : CmdResult :=
  checked s (p.length == 0) none none (done (s.updCl k fun x => { x with staged := [] }))

/-- A key profile as staging holds it. -/
def State.stagedProfile (s : State) (k i : Nat) : Option KeyProfile :=
  match (s.cl k).staged.findSome? fun e => match e with
    | .profile j q => if j = i then some q else none
    | _ => none with
  | some q => some q
  | none => s.profileAt k i (s.cl k).cur

/-- A source configuration as staging holds it. -/
def State.stagedSource (s : State) (k i : Nat) : SourceCfg :=
  match (s.cl k).staged.findSome? fun e => match e with
    | .source j q => if j = i then some q else none
    | _ => none with
  | some q => q
  | none => s.sourceAt k i (s.cl k).cur

def applyClProfileSet (k : Nat) (p : List Byte) (s : State) : CmdResult :=
  let i := u8 p 0
  let tern := u8 p 1 == 1
  let n := u8 p 2
  let fields := (List.range n).map fun j => u8 p (4 + j)
  let named := (List.range 96).any fun src => s.srcOwner src == k &&
    (let c := s.stagedSource k src
     if tern then c.exp1 == some i || c.exp2 == some i else c.tep1 == some i || c.tep2 == some i)
  let wide := decide ((if tern then 320 else 128) < (fields.map fun f => fieldWidth.getD f 0).sum)
  checked s (p.length == 20) (own (decide (64 ≤ i) || decide (i < s.quota k 7)) i)
    (firstBad p ([(decide (63 < i), 0), (decide (1 < u8 p 1) || named, 1), (n == 0 || decide (16 < n), 2), (wide, 4)]
      ++ (List.range (min n 16)).map fun j => (decide (26 < u8 p (4 + j)), 4 + j)) [(3, 1)])
    (done (s.updCl k fun x => { x with
      staged := (x.staged.filter fun e => match e with | .profile j _ => j != i | _ => true) ++ [.profile i { ternary := tern, fields }] }))

def applyClSourceSet (k : Nat) (p : List Byte) (s : State) : CmdResult :=
  let src := u8 p 0
  let prof := fun (j : Nat) => if u8 p j = 255 then none else some (u8 p j)
  let profRight := fun (j : Nat) => if u8 p j = 255 then none
    else own (decide (64 ≤ u8 p j) || decide (u8 p j < s.quota k 7)) (u8 p j)
  let kindBad := fun (j : Nat) (tern : Bool) => (u8 p j != 255 && (decide (63 < u8 p j) ||
    (match s.stagedProfile k (u8 p j) with | some q => q.ternary != tern | none => false)), j)
  checked s (p.length == 44)
    (firstOf [own (decide (96 ≤ src) || s.srcOwner src == k) src, profRight 1, profRight 2, profRight 3, profRight 4,
      actionRight s k (actionAt p 12)])
    (firstBad p ([(decide (95 < src), 0), kindBad 1 false, kindBad 2 true, kindBad 3 false, kindBad 4 true, (u16 p 6 == 0, 6)]
      ++ actionBad p 12 (decide (64 ≤ src)) (decide (src < 64)) false) [(5, 1), (10, 2), (38, 2)])
    (done (s.updCl k fun x => { x with
      staged := (x.staged.filter fun e => match e with | .source j _ => j != src | _ => true) ++
        [.source src { exp1 := prof 1, tep1 := prof 2, exp2 := prof 3, tep2 := prof 4, miss := actionAt p 12,
                       vxlanPort := u16 p 6, ecpriPort := u16 p 8 }] }))

def applyCounterGet (k : Nat) (p : List Byte) (s : State) : CmdResult :=
  let i := partIdx k (u32 p 0)
  let v := Tab.get (0, 0) s.counters i
  checked s (p.length == 5) (s.inQuota k 6 (u32 p 0)) (firstBad p [(decide (1 < u8 p 4), 4)] [])
    (done (if u8 p 4 = 1 then { s with counters := Tab.set (0, 0) s.counters i (0, 0) } else s) (leBytes 8 v.1 ++ leBytes 8 v.2))

def applyClStatsGet (k : Nat) (p : List Byte) (s : State) : CmdResult :=
  let i := u8 p 0
  let x := s.slice i
  let srcs := (List.range 4).map (4 * i + ·) ++ (List.range 2).map (64 + 2 * i + ·)
  checked s (p.length == 2) (if u8 p 1 % 2 = 1 ∧ k ≠ 0 then some i else none)
    (firstBad p [(decide (15 < i), 0), (decide (1 < u8 p 1), 1)] [])
    (done (if u8 p 1 = 1 then s.updSlice i fun y => { y with ctr := [], srcPasses := [], srcMiss := [] } else s)
      (ctrBytes x.ctr 12 ++ srcs.flatMap fun src => leBytes 8 (Ctrs.get x.srcPasses src) ++ leBytes 8 (Ctrs.get x.srcMiss src)))

/-! ### Bond and LAG commands (Table 18.7) -/

/-- Positions of the bits set in a byte string (R6). -/
def bitsSet (p : List Byte) (off n : Nat) : List Nat :=
  (List.range (8 * n)).filter fun i => (p.getD (off + i / 8) 0).getLsbD (i % 8)

/-- Faults of a member list of n entries at an offset of a payload of 64 places: range, repeats, bytes past n (R554). -/
def memberBad (p : List Byte) (off n lim : Nat) : List (Bool × Nat) :=
  (List.range 64).map fun i =>
    (if i < n then decide (lim ≤ u8 p (off + i)) || (List.range i).any fun j => u8 p (off + j) == u8 p (off + i)
     else u8 p (off + i) != 0, off + i)

def applyBondSet (k : Nat) (p : List Byte) (s : State) : CmdResult :=
  let g := u8 p 0
  let n := u8 p 1
  let mem := (List.range (min n 64)).map fun i => u8 p (64 + i)
  checked s (p.length == 128) (firstOf (s.ownsBond k g :: mem.map (s.ownsChan k)))
    (firstBad p ([(decide (31 < g), 0), (n == 1 || decide (64 < n), 1), (n != 0 && (u8 p 3 == 0 || decide (64 < u8 p 3)), 3),
      (n != 0 && (decide (u16 p 52 < 10) || decide (1000 < u16 p 52)), 52), (decide (134217727 < u32 p 60), 60)] ++ memberBad p 64 n 64)
      [(54, 2)])
    (if mem.any fun c => s.bonds.any fun b => b.1 != g && b.2.members.contains c then fail s stState
     else
       let s := s.releaseAll g
       done (s.updBond g fun b =>
         if n = 0 then { owner := b.owner, ctr := b.ctr }
         else { owner := b.owner, ctr := b.ctr, members := mem, lineId := u8 p 2, flows := bitsSet p 4 32, queues := bitsSet p 36 16,
                window := u8 p 3, reorderTo := u16 p 52
                hash := { seed := BitVec.ofNat 32 (u32 p 56), fields := BitVec.ofNat 32 (u32 p 60) } }))

/-- The entries a table command writes. -/
def tableWrite (t : Tab Nat) (p : List Byte) : Tab Nat :=
  (List.range (u16 p 4)).foldl (fun t i => Tab.set 0 t (u16 p 2 + i) (u8 p (6 + i) + 1)) t

/-- Faults of a table command: its range, byte 1, and positions past the members (R246). -/
def tableBad (p : List Byte) (lim n : Nat) : Option Nat :=
  firstBad p ([(decide (lim ≤ u8 p 0), 0), (decide (4096 < u16 p 2 + u16 p 4), 4)]
    ++ (List.range (u16 p 4)).map fun i => (n != 0 && decide (n ≤ u8 p (6 + i)), 6 + i)) [(1, 1)]

def applyBondTableSet (k : Nat) (p : List Byte) (s : State) : CmdResult :=
  let g := u8 p 0
  let n := (s.bond g).members.length
  checked s (p.length == 6 + u16 p 4) (s.ownsBond k g) (tableBad p 32 n)
    (if n ≤ 8 then fail s stState else done (s.updBond g fun b => { b with table := tableWrite b.table p }))

def applyBondStatsGet (k : Nat) (p : List Byte) (s : State) : CmdResult :=
  let g := u8 p 0
  checked s (p.length == 2) (s.ownsBond k g) (firstBad p [(decide (31 < g), 0), (decide (1 < u8 p 1), 1)] [])
    (done (if u8 p 1 = 1 then s.updBond g fun b => { b with ctr := [] } else s) (ctrBytes (s.bond g).ctr 11))

def applyLagSet (k : Nat) (p : List Byte) (s : State) : CmdResult :=
  let g := u8 p 0
  let n := u8 p 1
  let mem := (List.range (min n 64)).map fun i => u8 p (12 + i)
  checked s (p.length == 76) (firstOf (s.ownsLag k g :: mem.map (s.ownsMac k)))
    (firstBad p ([(decide (63 < g), 0), (n == 1 || decide (64 < n), 1), (decide (134217727 < u32 p 8), 8)] ++ memberBad p 12 n 256)
      [(2, 2)])
    (if mem.any fun m => !s.macExists m || s.lags.any fun b => b.1 != g && b.2.members.contains m then fail s stState
     else done (s.updLag g fun _ =>
       if n = 0 then {}
       else { owner := k, members := mem, hash := { seed := BitVec.ofNat 32 (u32 p 4), fields := BitVec.ofNat 32 (u32 p 8) } }))

def applyLagTableSet (k : Nat) (p : List Byte) (s : State) : CmdResult :=
  let g := u8 p 0
  let n := (s.lag g).members.length
  checked s (p.length == 6 + u16 p 4) (s.ownsLag k g) (tableBad p 64 n)
    (if n = 0 then fail s stState else done (s.updLag g fun b => { b with table := tableWrite b.table p }))

end Sys2Proof.Machine
end

