-- ==== Sys2Proof/Machine/Tcm.lean ====
section
/-! DEFINITION. Downstream terminal-control messages (03_activation_ranging.md): their layout (R99, R102), the six checks of R103,
duplicates (R109), what each type applies, and the terminal's timers (R93, R112). -/

namespace Sys2Proof.Machine

/-- A downstream TCM: its type with its body (Table 3.6). -/
inductive DownTcm where
  | profile (b : ProfileBody)
  | assignId (b : AssignIdBody)
  | assignEqd (eqd : BitVec 24) (eff : BitVec 48)
  | allocMap (op : Byte) (es : List AllocMapEntry)
  | flowMap (op : Byte) (es : List FlowMapEntry)
  | keyReq (b : KeyReqBody)
  | keySwitch (b : KeySwitchBody)
  | timeAnnounce (b : AnnounceBody)
  | sleepGrant (k : BitVec 16) (start : BitVec 48)
  | wakeReq (reason : Byte)
  | deactivate (reason : Byte)
  | silence (serial : BitVec 64) (chan : Byte)
  | unsilence (serial : BitVec 64) (chan : Byte)
  | grantRevoke (target : BitVec 48) (ids : List (BitVec 16))
  | ack (type seq result : Byte)
  deriving DecidableEq, Repr

namespace DownTcm

/-- TYPE (Table 3.5). -/
def type : DownTcm → Nat
  | profile _ => 0x01 | assignId _ => 0x04 | assignEqd .. => 0x07 | allocMap .. => 0x08 | flowMap .. => 0x09
  | keyReq _ => 0x0A | keySwitch _ => 0x0C | timeAnnounce _ => 0x0D | sleepGrant .. => 0x0E | wakeReq _ => 0x10
  | deactivate _ => 0x12 | silence .. => 0x13 | unsilence .. => 0x14 | grantRevoke .. => 0x15 | ack .. => 0x16

/-- The addressing of Table 3.5: to the terminal identifier, to 0xFFFE. -/
def toTid : DownTcm → Bool
  | profile _ | assignId _ | silence .. | unsilence .. => false
  | _ => true
def toAll : DownTcm → Bool
  | profile _ | assignId _ | timeAnnounce _ | deactivate _ | silence .. | unsilence .. => true
  | keyReq b => b.kdir == 2
  | keySwitch b => b.kdir == 2
  | _ => false

/-- What a length check leaves to test of a message whose fields stand apart (R103, check 3). -/
def lenOk : DownTcm → Bool
  | profile b => decide (8 ≤ b.preLen.toNat) && decide (b.preLen.toNat ≤ 256)
  | keyReq b => (b.frag.length == 0 && b.fragCnt == 0) || (decide (1 ≤ b.frag.length) && decide (b.frag.length ≤ 35) && b.fragCnt != 0)
  | _ => true

/-- The state permits the type (Table 3.8); LISTEN accepts as LOCKED. -/
def permitted : DownTcm → TState → Bool
  | profile _, st | timeAnnounce _, st | deactivate _, st | silence .., st | unsilence .., st => st != .holdover
  | assignId _, st => st == .announced || st == .ranging || st == .watch || st == .doze
  | assignEqd .., st | allocMap .., st | flowMap .., st | grantRevoke .., st | ack .., st =>
    st == .ranging || st == .watch || st == .doze
  | keyReq _, st | keySwitch _, st | sleepGrant .., st | wakeReq _, st => st == .watch || st == .doze

end DownTcm

/-! ### The layout of a TCM (R99, R102) -/

/-- Why a TCM is discarded before its fields are read. -/
inductive TcmBad where
  | crc | type | len
  deriving DecidableEq, Repr

/-- The body of a downstream TCM of a type; none when its length does not fit. -/
def tcmBody (type : Nat) (b : List Byte) : Option DownTcm :=
  let n := b.length
  let f := fun (o k : Nat) => beVal (slice b o k)
  let byte := fun (o : Nat) => b.getD o 0
  let ok := fun (want : Nat) (m : DownTcm) => if n = want then some m else none
  match type with
  | 0x01 => ok 8 (.profile { epoch := byte 0, idx := (byte 1).setWidth 2, guard := byte 2, preLen := BitVec.ofNat 16 (f 3 2),
                             prePat := (byte 5).setWidth 3, delim := (byte 6).setWidth 2, fec := (byte 7).getLsbD 0 })
  | 0x04 => ok 13 (.assignId { serial := BitVec.ofNat 64 (f 0 8), chan := byte 8, newTid := BitVec.ofNat 16 (f 9 2),
                               defAlloc := BitVec.ofNat 14 (f 11 2) })
  | 0x07 => ok 9 (.assignEqd (BitVec.ofNat 24 (f 0 3)) (BitVec.ofNat 48 (f 3 6)))
  | 0x08 => ok (2 + 3 * (byte 1).toNat) (.allocMap (byte 0) ((List.range (byte 1).toNat).map fun i =>
      ({ id := BitVec.ofNat 14 (f (2 + 3 * i) 2), slot := (byte (4 + 3 * i)).setWidth 6 } : AllocMapEntry)))
  | 0x09 => ok (2 + 4 * (byte 1).toNat) (.flowMap (byte 0) ((List.range (byte 1).toNat).map fun i =>
      let g := byte (5 + 4 * i)
      ({ tag := BitVec.ofNat 16 (f (2 + 4 * i) 2), fslot := byte (4 + 4 * i), up := g.getLsbD 2, down := g.getLsbD 1,
         unicast := g.getLsbD 0 } : FlowMapEntry)))
  | 0x0A => if 5 ≤ n then some (.keyReq { kdir := byte 0, kslot := byte 1, keySeq := byte 2, fragIdx := byte 3,
                                          fragCnt := byte 4, frag := b.drop 5 }) else none
  | 0x0C => ok 9 (.keySwitch { kdir := byte 0, kslot := byte 1, keySeq := byte 2, swSfc := BitVec.ofNat 48 (f 3 6) })
  | 0x0D => ok 27 (.timeAnnounce {
      tSfc := BitVec.ofNat 48 (f 0 6), tSec := BitVec.ofNat 48 (f 6 6), tNs := BitVec.ofNat 32 (f 12 4)
      tFrac := BitVec.ofNat 16 (f 16 2), teq := BitVec.ofNat 32 (f 18 4), asym := BitVec.ofNat 32 (f 22 4)
      valid := (byte 26).getLsbD 0 })
  | 0x0E => ok 8 (.sleepGrant (BitVec.ofNat 16 (f 0 2)) (BitVec.ofNat 48 (f 2 6)))
  | 0x10 => ok 1 (.wakeReq (byte 0))
  | 0x12 => ok 1 (.deactivate (byte 0))
  | 0x13 => ok 9 (.silence (BitVec.ofNat 64 (f 0 8)) (byte 8))
  | 0x14 => ok 9 (.unsilence (BitVec.ofNat 64 (f 0 8)) (byte 8))
  | 0x15 => ok (7 + 2 * (byte 6).toNat) (.grantRevoke (BitVec.ofNat 48 (f 0 6))
      ((List.range (byte 6).toNat).map fun i => BitVec.ofNat 16 (f (7 + 2 * i) 2)))
  | 0x16 => ok 3 (.ack (byte 0) (byte 1) (byte 2))
  | _ => none

/-- The downstream types (Table 3.5). -/
def downTypes : List Nat := [0x01, 0x04, 0x07, 0x08, 0x09, 0x0A, 0x0C, 0x0D, 0x0E, 0x10, 0x12, 0x13, 0x14, 0x15, 0x16]

/-- A TCM read from the payload of a control segment, through checks 1 to 3 of R103 as far as its layout goes. -/
def parseTcm (flowTag : BitVec 16) (p : List Byte) : Except TcmBad (TcmHdr × DownTcm) :=
  let n := p.length
  if crc32 (p.take (n - 4)) ≠ BitVec.ofNat 32 (beVal (slice p (n - 4) 4)) then .error .crc
  else
    let type := (p.getD 0 0).toNat
    if !downTypes.contains type then .error .type
    else match tcmBody type ((p.drop 4).take (n - 8)) with
      | none => .error .len
      | some m => .ok ({ flowTag, tid := BitVec.ofNat 16 (beVal (slice p 1 2)), seq := p.getD 3 0 }, m)

/-- The BODY of a downstream TCM (Table 3.6), as the head end lays it out. -/
def DownTcm.body : DownTcm → List Byte
  | .profile b => [b.epoch, b.idx.setWidth 8, b.guard] ++ beBytes 2 b.preLen.toNat ++ [b.prePat.setWidth 8, b.delim.setWidth 8,
      BitVec.ofNat 8 b.fec.toNat]
  | .assignId b => beBytes 8 b.serial.toNat ++ [b.chan] ++ beBytes 2 b.newTid.toNat ++ beBytes 2 b.defAlloc.toNat
  | .assignEqd eqd eff => beBytes 3 eqd.toNat ++ beBytes 6 eff.toNat
  | .allocMap op es => [op, BitVec.ofNat 8 es.length] ++ es.flatMap fun e => beBytes 2 e.id.toNat ++ [e.slot.setWidth 8]
  | .flowMap op es => [op, BitVec.ofNat 8 es.length] ++ es.flatMap fun e =>
      beBytes 2 e.tag.toNat ++ [e.fslot, BitVec.ofNat 8 (4 * e.up.toNat + 2 * e.down.toNat + e.unicast.toNat)]
  | .keyReq b => [b.kdir, b.kslot, b.keySeq, b.fragIdx, b.fragCnt] ++ b.frag
  | .keySwitch b => [b.kdir, b.kslot, b.keySeq] ++ beBytes 6 b.swSfc.toNat
  | .timeAnnounce b => beBytes 6 b.tSfc.toNat ++ beBytes 6 b.tSec.toNat ++ beBytes 4 b.tNs.toNat ++ beBytes 2 b.tFrac.toNat
      ++ beBytes 4 b.teq.toNat ++ beBytes 4 b.asym.toNat ++ [BitVec.ofNat 8 b.valid.toNat]
  | .sleepGrant k start => beBytes 2 k.toNat ++ beBytes 6 start.toNat
  | .wakeReq r | .deactivate r => [r]
  | .silence serial ch | .unsilence serial ch => beBytes 8 serial.toNat ++ [ch]
  | .grantRevoke target ids => beBytes 6 target.toNat ++ [BitVec.ofNat 8 ids.length] ++ ids.flatMap fun i => beBytes 2 i.toNat
  | .ack type seq result => [type, seq, result]

/-- A downstream TCM in the payload of a control segment: TYPE, TID, SEQ, BODY and TCRC (Table 3.4). -/
def tcmBytes (h : TcmHdr) (m : DownTcm) : List Byte :=
  let x := [BitVec.ofNat 8 m.type] ++ beBytes 2 h.tid.toNat ++ [h.seq] ++ m.body
  x ++ beBytes 4 (crc32 x).toNat

namespace State

/-! ### What a channel receives (Table 2.14) -/

/-- The SFC of the frame in progress whose payload is processed, while the channel receives it. -/
def receiving (s : State) (c : Nat) : Option (BitVec 48) :=
  match (s.chan c).rx.cur with
  | some f => if f.payload && (s.chan c).tc.opened && s.alive (dsDom c) then some f.sfc else none
  | none => none

/-- A control segment with this tag is addressed to the channel (Table 2.14). -/
def ctrlAccepted (s : State) (c : Nat) (tag : BitVec 16) : Bool :=
  let t := (s.chan c).tc
  match t.st with
  | .holdover => false
  | .listen => s.synced c && tag == 0xFFFE
  | _ => tag == 0xFFFE || (tag == t.tid && t.tid != 0)

/-! ### State changes that bonding follows (R239) -/

def toListen (s : State) (c : Nat) (x : Cause) : State := (s.enterListen c x).bondMemberDown c
def toSilenced (s : State) (c : Nat) (x : Cause) : State := (s.enterSilenced c x).bondMemberDown c

/-! ### What each type applies -/

/-- PROFILE (R105). -/
def addProfile (s : State) (c : Nat) (b : ProfileBody) : State :=
  let prof : Profile := { guard := b.guard.toNat, preLen := b.preLen.toNat, prePat := b.prePat.toNat, delim := b.delim.toNat,
                          fec := b.fec }
  let es := (s.chan c).tc.epochs
  let e : Epoch := (es.find? fun e => e.num == b.epoch).getD { num := b.epoch, profs := [] }
  match e.profs.find? fun p => p.1 == b.idx.toNat with
  | some p => if p.2 = prof then s else s.bump c .tcProfileConflict
  | none =>
    let e' := { e with profs := e.profs ++ [(b.idx.toNat, prof)] }
    -- the complete epochs stand in the order in which they were completed
    let l := (es.filter fun x => x.num != b.epoch) ++ [e']
    let full := l.filter Epoch.complete
    let l := match full with
      | old :: _ => if 2 < full.length then l.filter fun x => x.num != old.num else l
      | [] => l
    (s.updTc c fun t => { t with epochs := l }).tryLocked c

/-- ASSIGN.ID that passed its value test, in ANNOUNCED (Table 3.3, R108). -/
def takeId (s : State) (c : Nat) (b : AssignIdBody) (n : BitVec 48) : State :=
  (s.updTc c fun t => { t with tid := b.newTid, defAlloc := some b.defAlloc, defFrom := n + 2 }).setState c .ranging .assigned

/-- ASSIGN.EQD (R119): its RESULT and the state with the value waiting for its frame. -/
def eqdApply (s : State) (c : Nat) (eqd : BitVec 24) (eff n : BitVec 48) : Nat × State :=
  let d := sfcDiff eff n
  if 255 < d then (2, s)
  else
    let late := d < 2
    let f := if late then n + 2 else eff
    let s := s.updTc c fun t => { t with
      eqdNext := (t.eqdNext.filter fun e => e.1 != f) ++ [(f, eqd.toNat % 8388608)] }
    if late then (1, s.chanCondition c 5 (f.toNat % 4294967296) (some (n + 2))) else (0, s)

/-- The allocation identifiers as last commanded. -/
def allocsTold (s : State) (c : Nat) : Tab (Option (BitVec 14)) :=
  match (s.chan c).tc.allocNext.getLast? with
  | some e => e.2
  | none => (s.chan c).tc.allocs

/-- One entry of an ALLOC.MAP; none where R106 gives BAD_PARAM. -/
def allocEntry (op : Nat) (dflt : Option (BitVec 14)) (t : Tab (Option (BitVec 14))) (e : AllocMapEntry) :
    Option (Tab (Option (BitVec 14))) :=
  let held := t.any fun p => p.2 == some e.id
  if op = 1 then
    if held || dflt == some e.id || e.id == 0x3FFF || e.slot == 0 || (Tab.get none t e.slot.toNat).isSome then none
    else some (Tab.set none t e.slot.toNat (some e.id))
  else if held then some (t.filter fun p => p.2 != some e.id) else none

/-- ALLOC.MAP (R106): its RESULT and the state with the set waiting for the map of frame n + 2. -/
def allocApply (s : State) (c : Nat) (op : Byte) (es : List AllocMapEntry) (n : BitVec 48) : Nat × State :=
  let put := fun (t : Tab (Option (BitVec 14))) => s.updTc c fun x => { x with
    allocNext := (x.allocNext.filter fun e => e.1 != n + 2) ++ [(n + 2, t)] }
  if op = 3 ∧ es.isEmpty then (0, put [])
  else if (op = 1 ∨ op = 2) ∧ 1 ≤ es.length ∧ es.length ≤ 12 then
    match es.foldlM (allocEntry op.toNat (s.chan c).tc.defAlloc) (s.allocsTold c) with
    | some t => (0, put t)
    | none => (2, s)
  else (2, s)

/-- The flow contexts as last commanded. -/
def flowsTold (s : State) (c : Nat) : Tab (Option FlowHeld) :=
  match (s.chan c).tc.flowNext with
  | some f => f.flows
  | none => (s.chan c).tc.flows

/-- One entry of a FLOW.MAP; none where R106 gives BAD_PARAM. -/
def flowEntry (op : Nat) (tid : BitVec 16) (t : Tab (Option FlowHeld)) (e : FlowMapEntry) : Option (Tab (Option FlowHeld)) :=
  let names := fun (p : Nat × Option FlowHeld) => match p.2 with
    | some f => f.tag == e.tag
    | none => false
  if op = 1 then
    if t.any names || e.tag == tid || e.tag == 0xFFFE || e.tag == 0xFFFF || (Tab.get none t e.fslot.toNat).isSome then none
    else some (Tab.set none t e.fslot.toNat (some { tag := e.tag, up := e.up, down := e.down, unicast := e.unicast }))
  else if t.any names then some (t.filter fun p => !names p) else none

/-- FLOW.MAP (R106, R78): its RESULT and the state with the flows waiting for frame n + 1. An add that fails a BAD_PARAM test and
names a context that is not enabled answers BAD_PARAM: R106 gives no order (a DESIGN CHOICE; log 96). -/
def flowApply (s : State) (c : Nat) (op : Byte) (es : List FlowMapEntry) (n : BitVec 48) : Nat × State :=
  let put := fun (t : Tab (Option FlowHeld)) => s.updTc c fun x => { x with flowNext := some { frame := n + 1, flows := t } }
  if op = 3 ∧ es.isEmpty then (0, put [])
  else if (op = 1 ∨ op = 2) ∧ 1 ≤ es.length ∧ es.length ≤ 9 then
    match es.foldlM (flowEntry op.toNat (s.chan c).tc.tid) (s.flowsTold c) with
    | some t =>
      if op = 1 ∧ es.any fun e => !(s.chan c).heath.flowEn.contains e.fslot.toNat then (4, s) else (0, put t)
    | none => (2, s)
  else (2, s)

/-- GRANT.REVOKE (R107); no identifier stands for every allocation. -/
def revokeApply (s : State) (c : Nat) (target : BitVec 48) (ids : List (BitVec 16)) (n : BitVec 48) : State :=
  if target ≠ n + 1 then s.bump c .tcRevokeLate
  else
    let new := ids.map fun i => i.setWidth 14
    s.updTc c fun t => { t with revoke := some (target, match t.revoke with
      | some (f, old) => if f = target then (if old.isEmpty || new.isEmpty then [] else old ++ new) else new
      | none => new) }

/-- SLEEP.GRANT (R121): its RESULT. -/
def sleepApply (s : State) (c : Nat) (k : BitVec 16) (start : BitVec 48) : Nat × State :=
  if (s.chan c).tc.st ≠ .watch ∨ !(s.chan c).cfg.dozeEn then (5, s)
  else if k.toNat < 2 ∨ 256 < k.toNat ∨ start.toNat % 8 ≠ 0 then (2, s)
  else (0, s.updTc c fun t => { t with sleepAt := some (start, k.toNat) })

/-- WAKE.REQ of the head end (R123). -/
def headWake (s : State) (c : Nat) : State :=
  if (s.chan c).tc.st = .doze then s.updTc c fun t => { t with wakeNext := true } else s

/-- DEACTIVATE (R126). Where it changes no state, a CHAN_STATE of the state that stands reports its REASON (log 95). -/
def deactivated (s : State) (c : Nat) (reason : Byte) : State :=
  let st := (s.chan c).tc.st
  let told := s.postChanState c st.code st.code (.deactivated reason.toNat)
  match st with
  | .silenced => (told.updHeath c fun h => { h with headLatch := false, guardArmed := true }).leaveSilenced c
  | .listen => told
  | .holdover => s
  | _ => s.toListen c (.deactivated reason.toNat)

/-- SILENCE that names the channel (R127). -/
def silenced (s : State) (c : Nat) : State :=
  let s := s.updHeath c fun h => { h with headLatch := true }
  if (s.chan c).tc.st = .silenced then s else s.toSilenced c .silenced

/-- UNSILENCE that names the channel (R127, R132). -/
def unsilenced (s : State) (c : Nat) : State :=
  (s.updHeath c fun h => { h with headLatch := false, guardArmed := true }).leaveSilenced c

/-- ACK of the head end (R112): the message it names ends, and a queued resend of it is withdrawn. -/
def ackRx (s : State) (c : Nat) (type seq : Byte) : State :=
  let is := fun (e : UpEntry) => decide (0 < e.sent) && e.msg.type == type.toNat && e.seq == seq
  s.updTc c fun t => { t with await := t.await.filter fun e => !is e, upQ := t.upQ.filter fun e => !is e }

/-- What a message becomes: its ACK's RESULT, KEY.RPT messages, an ACK later, or no answer. -/
def tcmApply (s : State) (c : Nat) (h : TcmHdr) (m : DownTcm) (n : BitVec 48) : Option Nat × State :=
  match m with
  | .profile b => (none, s.addProfile c b)
  | .assignId b => (none, s.takeId c b n)
  | .assignEqd e f => let (r, s) := s.eqdApply c e f n; (some r, s)
  | .allocMap op es => let (r, s) := s.allocApply c op es n; (some r, s)
  | .flowMap op es => let (r, s) := s.flowApply c op es n; (some r, s)
  | .keyReq b =>
    match s.keyReqApply c b (h.tid != 0xFFFE) h.seq n with
    | (.ack r, s) => (some r, s)
    | (.rpt, s) => (none, s.updTc c fun t => { t with dups := t.dups.map fun d =>
        if d.type = 0x0A ∧ d.seq = h.seq then { d with keyRpt := some (b.kdir, b.kslot, b.keySeq) } else d })
    | (.later, s) => (none, s)
  | .keySwitch b => let (r, s) := s.keySwitchApply c b n; (some r, s)
  | .timeAnnounce b => (none, s.announceApply c b n)
  | .sleepGrant k f => let (r, s) := s.sleepApply c k f; (some r, s)
  | .wakeReq _ => (some 0, s.headWake c)
  | .deactivate r => (none, s.deactivated c r)
  | .silence .. => (none, s.silenced c)
  | .unsilence .. => (none, s.unsilenced c)
  | .grantRevoke f ids => (none, s.revokeApply c f ids n)
  | .ack t q _ => (none, s.ackRx c t q)

/-! ### Acceptance (R103, R109, R590) -/

/-- SERIAL and CHAN of a body name channel c (R92, R103 check 5). -/
def namesChan (c : Nat) : DownTcm → Bool
  | .assignId b => b.serial == Config.serial && b.chan.toNat == c
  | .silence sn ch | .unsilence sn ch => sn == Config.serial && (ch.toNat == c || ch == 0xFF)
  | _ => true

/-- A duplicate is not applied again; what it was answered with is sent again (R109). -/
def duplicate (s : State) (c : Nat) (h : TcmHdr) (type : Nat) (d : DupRec) (n : BitVec 48) : State :=
  let s := s.bump c .tcDup
  match d.result, d.keyRpt with
  | some r, _ => s.queueTcm c (.ack (BitVec.ofNat 8 type) h.seq (BitVec.ofNat 8 r)) (some (n + 2))
  | none, some (kdir, slot, kseq) =>
    let r := (s.chan c).keys.uni kdir.toNat slot.toNat
    if r.live && r.seq == kseq then
      match wrappedOf (s.chan c).keys kdir.toNat slot.toNat kseq with
      | some w => s.queueRpts c kdir.toNat slot.toNat kseq w (n + 2)
      | none => s
    else s
  | none, none => s

/-- A message that passed the six checks and is no repeat of ASSIGN.ID: recorded, applied and answered. -/
def tcmAccept (s : State) (c : Nat) (h : TcmHdr) (m : DownTcm) (n : BitVec 48) : State :=
  let toTid := h.tid != 0xFFFE
  match if toTid then (s.chan c).tc.dups.find? fun d => d.type == m.type && d.seq == h.seq else none with
  | some d => s.duplicate c h m.type d n
  | none =>
    let s := if toTid then s.updTc c fun t => { t with
        dups := (t.dups ++ [({ type := m.type, seq := h.seq, result := none, keyRpt := none } : DupRec)]).drop (t.dups.length - 3) }
      else s
    match s.tcmApply c h m n with
    | (some r, s) => if toTid then s.ackTcm c m.type h.seq r n else s
    | (none, s) => s

/-- A TCM that a control segment of frame n delivers, its TCRC and TYPE good (R103). -/
def tcm (s : State) (c : Nat) (h : TcmHdr) (m : DownTcm) (n : BitVec 48) : State :=
  let st := (s.chan c).tc.st
  if !m.lenOk then s.bump c .tcLenErr
  else if h.tid ≠ h.flowTag ∨ !(if h.tid = 0xFFFE then m.toAll else m.toTid) then s.bump c .tcAddrErr
  else if !namesChan c m then s
  else if !m.permitted st then s.bump c .tcStateErr
  else match m with
    | .assignId b =>
      if b.newTid = 0 ∨ 0xFFFD < b.newTid.toNat ∨ b.defAlloc = 0x3FFF then s.bump c .tcRxOk
      else if st = .announced then (s.bump c .tcRxOk).tcmAccept c h m n
      else if (s.chan c).tc.tid = b.newTid ∧ (s.chan c).tc.defAlloc = some b.defAlloc then s.bump c .tcRxOk
      else s.bump c .tcStateErr
    | _ => (s.bump c .tcRxOk).tcmAccept c h m n

/-- A TCM delivered to the terminal controller by itself: only while the channel receives and its segment is addressed to it. -/
def tcmRow (s : State) (c : Nat) (h : TcmHdr) (m : DownTcm) : State :=
  match s.receiving c with
  | some n => if s.ctrlAccepted c h.flowTag then s.tcm c h m n else s
  | none => s

/-- The bytes of a TCM delivered by a control segment (R103). -/
def tcmBytes (s : State) (c : Nat) (flowTag : BitVec 16) (p : List Byte) (n : BitVec 48) : State :=
  match parseTcm flowTag p with
  | .error .crc => s.bump c .tcCrcErr
  | .error .type => s.bump c .tcTypeErr
  | .error .len => s.bump c .tcLenErr
  | .ok (h, m) => s.tcm c h m n

/-! ### Timers (R93, Table 3.2) and resends (R112) -/

/-- The channel is open and in a state. -/
def inState (s : State) (c : Nat) (st : TState) : Bool := (s.chan c).tc.opened && (s.chan c).tc.st == st

def doLockTimeout (s : State) (c : Nat) : State :=
  if s.inState c .listen then s.raiseAlarm 0x2011 2 1 c (det1 (s.chan c).cfg.lockTo) (s.chanParts c) else s

def doAnnounceTimeout (s : State) (c : Nat) : State :=
  if s.inState c .announced then (s.bump c .tcAnnounceExpired).setState c .locked .timer else s

def doRangeTimeout (s : State) (c : Nat) : State :=
  if s.inState c .ranging then (((s.bump c .tcRangeExpired).cancelBursts c).clearContext c).setState c .locked .timer else s

def doHoldTimeout (s : State) (c : Nat) : State :=
  if s.inState c .holdover then
    ((s.bump c .tcHoldExpired).chanEvent c 0x2013 2 (det1 (s.chan c).cfg.holdTo) true).toListen c .timer
  else s

/-- The message given up after its last attempt (R112). -/
def giveUp (s : State) (c : Nat) (e : UpEntry) : State :=
  (s.bump c .tcUpGiveup).chanEvent c 0x2014 1 (det2 e.msg.type e.seq.toNat)

/-- Every message whose ACK has not come by the end of frame N + 8 is queued again, or given up after four sendings (R112). -/
def doTcmResend (s : State) (c : Nat) : State :=
  match s.curSfc c with
  | none => s
  | some n =>
    let due := fun (e : UpEntry) => decide (9 ≤ sfcDiff n e.lastFrame)
    let out := (s.chan c).tc.await.filter due
    let s := s.updTc c fun t => { t with await := t.await.filter fun e => !due e }
    out.foldl (fun s e => if e.sent < 4 then s.queueEntry c { e with ready := none } else s.giveUp c e) s

end State

/-! ### Commands -/

def execProfile (c : Chan) (h : TcmHdr) (b : ProfileBody) (s : State) : Host.Outcome State Fault Refusal :=
  .next (s.tcmRow c h (.profile b))
def execAssignId (c : Chan) (h : TcmHdr) (b : AssignIdBody) (s : State) : Host.Outcome State Fault Refusal :=
  .next (s.tcmRow c h (.assignId b))
def execAssignEqd (c : Chan) (h : TcmHdr) (e : BitVec 24) (f : BitVec 48) (s : State) : Host.Outcome State Fault Refusal :=
  .next (s.tcmRow c h (.assignEqd e f))
def execAllocMap (c : Chan) (h : TcmHdr) (op : Byte) (es : List AllocMapEntry) (s : State) : Host.Outcome State Fault Refusal :=
  .next (s.tcmRow c h (.allocMap op es))
def execFlowMap (c : Chan) (h : TcmHdr) (op : Byte) (es : List FlowMapEntry) (s : State) : Host.Outcome State Fault Refusal :=
  .next (s.tcmRow c h (.flowMap op es))
def execKeyReq (c : Chan) (h : TcmHdr) (b : KeyReqBody) (s : State) : Host.Outcome State Fault Refusal :=
  .next (s.tcmRow c h (.keyReq b))
def execKeySwitch (c : Chan) (h : TcmHdr) (b : KeySwitchBody) (s : State) : Host.Outcome State Fault Refusal :=
  .next (s.tcmRow c h (.keySwitch b))
def execTimeAnnounce (c : Chan) (h : TcmHdr) (b : AnnounceBody) (s : State) : Host.Outcome State Fault Refusal :=
  .next (s.tcmRow c h (.timeAnnounce b))
def execSleepGrant (c : Chan) (h : TcmHdr) (k : BitVec 16) (f : BitVec 48) (s : State) : Host.Outcome State Fault Refusal :=
  .next (s.tcmRow c h (.sleepGrant k f))
def execWakeReq (c : Chan) (h : TcmHdr) (r : Byte) (s : State) : Host.Outcome State Fault Refusal :=
  .next (s.tcmRow c h (.wakeReq r))
def execDeactivate (c : Chan) (h : TcmHdr) (r : Byte) (s : State) : Host.Outcome State Fault Refusal :=
  .next (s.tcmRow c h (.deactivate r))
def execUnsilence (c : Chan) (h : TcmHdr) (sn : BitVec 64) (ch : Byte) (s : State) : Host.Outcome State Fault Refusal :=
  .next (s.tcmRow c h (.unsilence sn ch))
def execGrantRevoke (c : Chan) (h : TcmHdr) (f : BitVec 48) (ids : List (BitVec 16)) (s : State) :
    Host.Outcome State Fault Refusal := .next (s.tcmRow c h (.grantRevoke f ids))
def execAck (c : Chan) (h : TcmHdr) (t q r : Byte) (s : State) : Host.Outcome State Fault Refusal :=
  .next (s.tcmRow c h (.ack t q r))
def execLockTimeout (c : Chan) (s : State) : Host.Outcome State Fault Refusal := .next (s.doLockTimeout c)
def execAnnounceTimeout (c : Chan) (s : State) : Host.Outcome State Fault Refusal := .next (s.doAnnounceTimeout c)
def execRangeTimeout (c : Chan) (s : State) : Host.Outcome State Fault Refusal := .next (s.doRangeTimeout c)
def execHoldTimeout (c : Chan) (s : State) : Host.Outcome State Fault Refusal := .next (s.doHoldTimeout c)
def execTcmResend (c : Chan) (s : State) : Host.Outcome State Fault Refusal := .next (s.doTcmResend c)

end Sys2Proof.Machine
end

