-- ==== Sys2Proof/Machine/Trib.lean ====
section
/-! DEFINITION. Tributaries and operator data channels (10_tributaries_odc.md): the connection memory (R351 to R353), page switching
(R355 to R358), tributary frames (R359 to R361), tributary bodies (R348, R349), ODC ports (R362 to R365), and what the commands
of Table 18.10 apply. -/

namespace Sys2Proof.Machine

/-! ### Connection entries (Table 10.4) -/

def connValid (e : BitVec 64) : Bool := e.getLsbD 63
def connUp (e : BitVec 64) : Bool := e.getLsbD 62
def connChan (e : BitVec 64) : Nat := (e.toNat >>> 56) % 64
def connLslot (e : BitVec 64) : Nat := (e.toNat >>> 45) % 2048
def connStream (e : BitVec 64) : Nat := (e.toNat >>> 28) % 4096
def connSslot (e : BitVec 64) : Nat := (e.toNat >>> 16) % 2048
/-- Place of local entry i of partition k in a page. -/
def connIdx (page : Bool) (k i : Nat) : Nat := page.toNat * 4294967296 + partIdx k i

/-- The parts of a multiframe of a stream (R359). -/
def StreamSt.nParts (x : StreamSt) : Nat := ceilDiv x.slots (max 1 x.partSlots)
/-- The slots of part p. -/
def StreamSt.nSlot (x : StreamSt) (p : Nat) : Nat := min x.partSlots (x.slots - p * x.partSlots)

namespace State

/-- The valid entries of a page that name channel c, with their places. -/
def connOf (s : State) (page : Bool) (c : Nat) : List (Nat × BitVec 64) :=
  s.trib.conn.filter fun e => decide (e.1 / 4294967296 = page.toNat) && connValid e.2 && connChan e.2 == c

/-- The page in use for frame n (R348, R357). -/
def pageFor (s : State) (c : Nat) (n : BitVec 48) : Bool :=
  let t := (s.chan c).trib
  match t.swAt with
  | some f => if sfcDiff n f < 0 then !t.page else t.page
  | none => t.page

/-- The tributary unit is needed: an entry is valid, a stream or an ODC port is enabled, or an allocation is bound (R354). -/
def tribNeeded (s : State) : Bool :=
  s.trib.conn.any (fun e => connValid e.2) || s.trib.streams.any (fun x => x.2.en) || s.trib.odcOn.any (fun x => x.2)
    || s.chans.any (fun x => !x.2.trib.binds.isEmpty)

/-- The tributary unit is woken on demand and powered down with its last user (R354). -/
def tribPower (s : State) : State := if s.tribNeeded then s.requestWake 1 217 else s.requestRelease 217

/-! ### Downstream: page switching and slots -/

/-- The page toggles at frame f (R357). -/
def pageSwitch (s : State) (c : Nat) (f : BitVec 48) : State :=
  let s := s.updTrib c fun t => { t with page := !t.page, swAt := some f, armed := false }
  (s.bumpTrib c .pageSwitch).chanEvent c 0x4101 0 (det1 (f.toNat % 4294967296))

/-- The test at the T_ds of a frame that begins a multiframe (R357, R358). -/
def pageTest (s : State) (c : Nat) (f : BitVec 48) : State :=
  let t := (s.chan c).trib
  if !t.adopted then s
  else if t.lastDesc.any fun d => d.nextPage != t.page && decide (sfcDiff f t.descAt ≤ 8) then
    if t.armed then s.pageSwitch c f
    else (s.bumpTrib c .pageUnarmed).chanEvent c 0x4102 2 (det1 (f.toNat % 4294967296))
  else if t.armed && t.seen == 8 && t.passSeen != 0 && t.passMis == t.passSeen then
    (s.bumpTrib c .pageLate).pageSwitch c f
  else s

/-- A descriptor of frame n that passes TRIB_CRC (R355, R357, R358). -/
def tribDesc (s : State) (c : Nat) (n : BitVec 48) (d : TribDesc) : State :=
  let s := s.updTrib c fun t => if t.adopted then t else { t with adopted := true, page := d.activePage, swAt := none }
  let mis := d.activePage != (s.chan c).trib.page
  let first := mis && (s.chan c).trib.passMis == 0
  let s := s.updTrib c fun t => { t with
    lastDesc := some d, descAt := n, passSeen := t.passSeen + 1, passMis := if mis then t.passMis + 1 else t.passMis }
  if first then (s.bumpTrib c .pageMismatch).chanEvent c 0x4103 1 (det1 d.activePage.toNat) else s

/-- A multiframe begins at frame n of an aligned OPERATING channel: the page test, the slots of the last multiframe stand ready
for their parts, and the boundary in presented time is noted (R357, R360, R334). -/
def tribBoundary (s : State) (c : Nat) (n : BitVec 48) (b : Option TimeVal) : State :=
  let t := (s.chan c).trib
  let num : BitVec 45 := (n >>> 3).setWidth 45
  let last := num - 1
  let due := t.begun && decide (0 ≤ (last - t.tseq).toInt)
  let w : WholeMf := { num := last, page := t.page, slots := t.dsSlots,
                       at_ := if t.tseq = last then t.boundary else b.map fun x => x - psT 1000000000 }
  let s := s.pageTest c n
  s.updTrib c fun t => { t with
    whole := if due then some w else t.whole
    dsSlots := [], lastDesc := none, passSeen := 0, passMis := 0, seen := 0
    tseq := num, begun := true, boundary := b, free := false }

/-- The slots of a frame whose payload is processed are passed to the tributary unit (R70, R346): slot, whether its codeword
failed, its bytes. -/
def passSlots (s : State) (c : Nat) (n : BitVec 48) (slots : List (Nat × Bool × List Byte)) : State :=
  let s := s.updTrib c fun t => { t with dsSlots := t.dsSlots ++ slots.map fun x =>
    ({ frame := n.toNat % 8, slot := x.1, errored := x.2.1, bytes := x.2.2 } : DsSlot) }
  (s.bumpTrib c .dsSlots slots.length).bumpTrib c .dsErrored (slots.filter (·.2.1)).length

/-- The 64 ODC bytes of a frame wait for a port frame (R364). -/
def odcPass (s : State) (c : Nat) (tds : Nat) (bytes : List Byte) : State :=
  if Tab.get false s.trib.odcOn (c / 8) then
    let q := (s.chan c).trib.odcQ ++ [(tds, bytes)]
    if q.length ≤ 2 then s.updTrib c fun t => { t with odcQ := q }
    else (s.updTrib c fun t => { t with odcQ := q.drop 1 }).bumpTrib c .odcDsSlip
  else s

/-! ### Downstream tributary frames (R359, R360) -/

/-- The header of Table 10.6 without MISSING and ERRMAP. -/
def partHead (stream : Nat) (flags : Nat) (tseq p parts first n : Nat) (t : TimeVal) : List Byte :=
  [1] ++ beBytes 2 stream ++ [BitVec.ofNat 8 flags] ++ beBytes 4 (tseq % 4294967296) ++ beBytes 2 p ++ beBytes 2 parts
    ++ beBytes 2 first ++ [BitVec.ofNat 8 n, 0] ++ beBytes 6 t.sec ++ beBytes 4 t.ns

/-- The Ethernet header of a stream's frames (R359). -/
def streamEth (s : State) (x : StreamSt) : List Byte :=
  beBytes 6 x.da.toNat ++ beBytes 6 (s.macSa x.mac).toNat
    ++ (match x.vlan with | some v => beBytes 2 0x8100 ++ beBytes 2 v.toNat | none => []) ++ beBytes 2 x.etype.toNat

/-- A bitmap whose bit i is set for the listed i. -/
def bitMap (l : List Nat) : Nat := l.foldl (fun v i => v ||| 2 ^ i) 0

/-- The slot of stream slot j in frame f of a multiframe, through the page it was received under. -/
def slotOf (conn : List (Nat × BitVec 64)) (i : Nat) (slots : List DsSlot) (f j : Nat) : Option DsSlot :=
  match conn.find? fun e => !connUp e.2 && connStream e.2 == i && connSslot e.2 == j with
  | none => none
  | some e => slots.find? fun x => x.frame == f && x.slot == connLslot e.2

/-- Part p of stream i for a multiframe. -/
def partFrame (s : State) (i p : Nat) (w : WholeMf) (free : Bool) (t : TimeVal) : List Byte :=
  let x := s.stream i
  let conn := s.connOf w.page x.chan
  let n := x.nSlot p
  let at_ := fun (f j : Nat) => slotOf conn i w.slots f (p * x.partSlots + j)
  let cells := (List.range 8).flatMap fun f => (List.range n).map fun j => (7 * f + j, at_ f j)
  let flags := free.toNat * 8 + w.page.toNat * 2 + (decide (2 ≤ s.pstateOf x.chan)).toNat
  let missing := bitMap (cells.filterMap fun y => if y.2.isNone then some y.1 else none)
  let errored := bitMap (cells.filterMap fun y => if y.2.any (·.errored) then some y.1 else none)
  s.streamEth x ++ partHead i flags w.num.toNat p x.nParts (p * x.partSlots) n t ++ beBytes 7 missing ++ beBytes 7 errored
    ++ cells.flatMap fun y => match y.2 with
      | some d => Machine.slice d.bytes 0 256
      | none => zeros 256

/-- Connected downstream slots that are missing from a multiframe (Table 10.7). -/
def missingOf (s : State) (c : Nat) (w : WholeMf) : Nat :=
  ((s.connOf w.page c).filter fun e => !connUp e.2).foldl (fun n e =>
    n + 8 - (w.slots.filter fun x => x.slot == connLslot e.2).length) 0

/-- One part is enqueued on its stream's egress queue, or dropped there (R360). -/
def enqueuePart (s : State) (i p : Nat) (w : WholeMf) (free : Bool) (t : TimeVal) : State :=
  let x := s.stream i
  let s' := s.enqueue (egressQ x.mac x.cls) (builtFrame (s.partFrame i p w free t) (some i))
  s'.bumpStream i (if s.nextFrame < s'.nextFrame then .txFrames else .txDrop)

/-- Every part of every downstream stream of the channel. Without an arrival delay the boundary is a free value. -/
def enqueueParts (s : State) (c : Nat) (w : WholeMf) (free : Bool) : State :=
  let (t, s) := match w.at_ with
    | some t => (t, s)
    | none => (psT (Config.open64 3 s.draws).toNat, { s with draws := s.draws + 1 })
  let s := s.bumpTrib c .dsMissing (s.missingOf c w)
  (s.trib.streams.filter fun x => x.2.en && !x.2.up && x.2.chan == c).foldl (fun s x =>
    (List.range x.2.nParts).foldl (fun s p => s.enqueuePart x.1 p w free t) s) s

/-- The channel is in DOZE with its downstream domain down (R121). -/
def asleep (s : State) (c : Nat) : Bool := (s.chan c).tc.doze.any fun d => !d.awake

/-- After a multiframe its parts are enqueued; without alignment (in the sleep of DOZE there is none), or in no OPERATING state,
boundaries run on in steps of 1 ms and every slot is missing (R360). With the tributary unit absent its slots are not delivered
(R457). -/
def doTribParts (s : State) (c : Nat) : State :=
  if !s.alive 217 then
    match (s.chan c).trib.whole with
    | none => s
    | some w =>
      let n := s.missingOf c { w with slots := [] }
      ((s.updTrib c fun t => { t with whole := none }).bumpTrib c .dsMissing n).absentResponse 217 n
  else
    let t := (s.chan c).trib
    match t.whole with
    | some w => (s.updTrib c fun t => { t with whole := none }).enqueueParts c w false
    | none =>
      let free := !s.operating c || !(s.chan c).rx.aligned
      if t.begun && free then
        let w : WholeMf := { num := t.tseq, page := t.page, at_ := t.boundary, slots := [] }
        let s := s.updTrib c fun t => { t with
          tseq := t.tseq + 1, boundary := t.boundary.map (· + psT 1000000000), free := free, dsSlots := [] }
        s.enqueueParts c w free
      else s

/-! ### Upstream tributary frames (R361) -/

/-- T_ds of frame f by the frame in progress of the channel, or by the record of its doze or holdover. -/
def tdsOf (s : State) (c : Nat) (f : BitVec 35) : Option Int :=
  let at_ := fun (n : BitVec 48) (tds : Nat) => (tds : Int) + (f - n.setWidth 35).toInt * 125000000
  match (s.chan c).rx.cur with
  | some x => some (at_ x.sfc x.tds)
  | none => match (s.chan c).tc.doze with
    | some d => some (at_ d.recSfc d.recTds)
    | none => (s.chan c).tc.hold.map fun h => at_ h.sfc h.tds

/-- The checks of an accepted frame: the counter of the first one that fails. -/
def tribFrameTest (s : State) (x : StreamSt) (f : TribFrame) : Option StreamCtr :=
  let p := f.part.toNat
  let t := s.tdsOf x.chan (f.tseq ++ (0 : BitVec 3))
  if f.ver ≠ 1 ∨ !f.dirUp ∨ f.parts.toNat ≠ x.nParts ∨ x.nParts ≤ p ∨ f.firstSslot.toNat ≠ p * x.partSlots
      ∨ f.nslot.toNat ≠ x.nSlot p ∨ f.payload.length ≠ 2048 * x.nSlot p then some .rxBad
  else if t.any fun t => decide (t ≤ (s.now : Int)) then some .rxLate
  else if t.any fun t => decide ((s.now : Int) + 2000000000 < t) then some .rxEarly
  else if x.parts.any fun q => q.1 == f.tseq && q.2.1 == p then some .rxDup
  else none

/-- The frame names a stream that takes it from this MAC (R361). -/
def tribAccepts (s : State) (m : Nat) (f : TribFrame) : Bool :=
  let x := s.stream f.stream.toNat
  x.en && x.up && x.mac == m && x.etype == f.etype && x.vlan == f.vlan

/-- An upstream tributary frame is checked and its part stored for its multiframe; parts of multiframes that are over go. -/
def doTribFrame (s : State) (m : Nat) (f : TribFrame) : State :=
  if !s.tribAccepts m f || !s.alive 217 then s
  else
    let i := f.stream.toNat
    match s.tribFrameTest (s.stream i) f with
    | some k => s.bumpStream i k
    | none =>
      let above := fun (q : BitVec 32) => match s.tdsOf (s.stream i).chan (q ++ (0 : BitVec 3)) with
        | some t => decide (t + 4000000000 < s.now)
        | none => false
      (s.updStream i fun x => { x with
        parts := (x.parts.filter fun q => !above q.1) ++ [(f.tseq, f.part.toNat, f.missing, f.payload)] }).bumpStream i .rxFrames

/-! ### Upstream bodies (R348, R349, R365) -/

/-- The 256 bytes of an upstream line slot in frame n; none when they are missing (R361). -/
def upSlot (s : State) (conn : List (Nat × BitVec 64)) (n : BitVec 48) (lslot : Nat) : Option (List Byte) :=
  match conn.find? fun e => connUp e.2 && connLslot e.2 == lslot with
  | none => none
  | some e =>
    let x := s.stream (connStream e.2)
    let j := connSslot e.2
    if !x.en || !x.up || x.slots ≤ j then none
    else
      let p := j / x.partSlots
      let i := j % x.partSlots
      let f := n.toNat % 8
      match x.parts.find? fun q => q.1 == (n >>> 3).setWidth 32 && q.2.1 == p with
      | none => none
      | some q => if q.2.2.1.getLsbD (7 * f + i) then none else some (Machine.slice q.2.2.2 ((f * x.nSlot p + i) * 256) 256)

/-- The tributary body header (Table 10.2). -/
def tribHead (first n flags missing : Nat) : List Byte :=
  let h := beBytes 2 first ++ [BitVec.ofNat 8 n, BitVec.ofNat 8 flags] ++ beBytes 8 missing ++ [0, 0]
  h ++ beBytes 2 (crc16 h).toNat

/-- The bytes after the allocation header of a bound allocation with B data words in frame n, and what taking them counts. -/
def tribBody (s : State) (c : Nat) (b : TribBind) (n : BitVec 48) (words : Nat) : List Byte × State :=
  let fit := fun (l : List Byte) => Machine.slice l 0 (16 * (words - 1))
  let page := (s.pageFor c n).toNat
  match b with
  | .none => ([], s)
  | .slots first count =>
    if words < 2 then ([], s.bumpTrib c .usShort count)
    else
      let k := min count ((words - 2) / 16)
      let conn := s.connOf (s.pageFor c n) c
      let sl := (List.range k).map fun i => s.upSlot conn n (first + i)
      let gone := (List.range k).filter fun i => (sl.getD i none).isNone
      let s := ((s.bumpTrib c .usSlots k).bumpTrib c .usShort (count - k)).bumpTrib c .usUnderrun gone.length
      (fit (tribHead first k page (bitMap gone) ++ sl.flatMap fun x => x.getD (zeros 256)), s)
  | .odc =>
    let t := (s.chan c).trib
    if words < 6 then
      (if words < 2 then [] else fit (tribHead 0xFFFF 0 page 0),
        (s.updTrib c fun t => { t with odcUs := none }).bumpTrib c .odcUsDrop 64)
    else match t.odcUs with
      | some d => (fit (tribHead 0xFFFF 0 page 0 ++ d), s.updTrib c fun t => { t with odcUs := none, odcLast := some d })
      | none => (fit (tribHead 0xFFFF 0 (page + 2) 0 ++ t.odcLast.getD (zeros 64)), s.bumpTrib c .odcUsStale)

/-- Slots of slot-kind bindings that a frame grants nothing, counted while OPERATING (R349). -/
def tribNoGrant (s : State) (c : Nat) (granted : List Nat) : State :=
  if s.operating c then
    (s.chan c).trib.binds.foldl (fun s b => match b.2 with
      | .slots _ count => if granted.contains b.1 then s else s.bumpTrib c .usNogrant count
      | _ => s) s
  else s

/-! ### ODC ports (R362 to R365) -/

/-- What a port frame takes of channel c: the first frame's bytes received 2 µs ago or earlier, or zero bytes (R364). Bytes queued
before a loss of frame lock still go, though R52 fills the slot with zeros out of lock (a DESIGN CHOICE; log 96). -/
def odcTake (s : State) (c : Nat) : List Byte × State :=
  match (s.chan c).trib.odcQ with
  | (tds, bs) :: rest =>
    if tds + 2000000 ≤ s.now then (Machine.slice bs 0 64, s.updTrib c fun t => { t with odcQ := rest })
    else (zeros 64, s.bumpTrib c .odcDsSlip)
  | [] => (zeros 64, s.bumpTrib c .odcDsSlip)

/-- What a port frame gives channel c (R365). -/
def odcGive (s : State) (c : Nat) (bs : List Byte) : State :=
  if (s.chan c).trib.binds.any fun b => b.2 == .odc then
    let s := if (s.chan c).trib.odcUs.isSome then s.bumpTrib c .odcUsDrop 64 else s
    s.updTrib c fun t => { t with odcUs := some bs }
  else s

/-- A port frame of port k (R363). -/
def doOdcFrame (s : State) (k : Nat) (di : List Byte) : State :=
  if !Tab.get false s.trib.odcOn k || !s.alive 217 then s
  else
    let (out, s) := (List.range 8).foldl (fun (acc : List Byte × State) j =>
      let (bs, s) := acc.2.odcTake (8 * k + j)
      (acc.1 ++ bs, s.odcGive (8 * k + j) (Machine.slice di (64 * j) 64))) ([], s)
    s.emit (.odc k out)

/-! ### Consistency (R353) -/

/-- The local index of the first entry of a channel's owner that makes a page inconsistent (R353, R356). -/
def firstInconsistent (s : State) (c : Nat) (page : Bool) : Option Nat :=
  let bad := fun (earlier : List (BitVec 64)) (e : BitVec 64) =>
    let x := s.stream (connStream e)
    earlier.any (fun o => (connUp o == connUp e && connLslot o == connLslot e)
        || (connStream o == connStream e && connSslot o == connSslot e))
      || !x.en || x.up != connUp e || x.chan != c || decide (x.slots ≤ connSslot e)
  ((s.connOf page c).foldl (fun (acc : List (BitVec 64) × Option Nat) e =>
    (acc.1 ++ [e.2], if acc.2.isSome then acc.2 else if bad acc.1 e.2 then some (e.1 % 1048576) else none)) ([], none)).2

end State

/-! ### The block's own events -/

def execTribPartsEnqueue (c : Chan) (s : State) : Host.Outcome State Fault Refusal := .next (s.doTribParts c)
def execTributaryFrameRx (m : Mac) (f : TribFrame) (s : State) : Host.Outcome State Fault Refusal := .next (s.doTribFrame m f)
def execOdcPortFrame (k : Fin 8) (di : List Byte) (s : State) : Host.Outcome State Fault Refusal := .next (s.doOdcFrame k di)

/-! ### Tributary and ODC commands (Table 18.10) -/

def bindAt (p : List Byte) : TribBind := match u8 p 2 with
  | 0 => .none | 1 => .slots (u16 p 4) (u8 p 3) | _ => .odc

/-- A binding that breaks R347 beside another of the channel. -/
def TribBind.clash : TribBind → TribBind → Bool
  | .odc, .odc => true
  | .slots f n, .slots g m => decide (f < g + m) && decide (g < f + n)
  | _, _ => false

def applyTribAllocSet (k : Nat) (p : List Byte) (s : State) : CmdResult :=
  let c := u8 p 0
  let a := u8 p 1
  let b := bindAt p
  let slot := u8 p 2 == 1
  let clash := (s.chan c).trib.binds.any fun o => o.1 != a && b.clash o.2
  checked s (p.length == 6) (s.ownsChan k c)
    (firstBad p [(decide (63 < c), 0), (a == 0 || decide (63 < a), 1), (decide (2 < u8 p 2) || (clash && !slot), 2),
      (slot && (u8 p 3 == 0 || decide (64 < u8 p 3)), 3), (slot && (decide (2048 < u16 p 4 + u8 p 3) || clash), 4)] [])
    (if !(s.members c a).isEmpty then fail s stState
     else done (s.updTrib c fun t => { t with binds := Tab.set .none t.binds a b }).tribPower)

/-- The stream as TRIB.STREAM.SET configures it. -/
def streamFrom (p : List Byte) (x : StreamSt) : StreamSt :=
  { x with
    en := u8 p 2 == 1, up := u8 p 3 == 1, chan := u8 p 4, partSlots := u8 p 5, slots := u16 p 6, mac := u8 p 8, cls := u8 p 9
    etype := BitVec.ofNat 16 (u16 p 10), da := BitVec.ofNat 48 (beVal (slice p 12 6))
    vlan := if bitAt p 18 0 then some (BitVec.ofNat 16 (u16 p 20)) else none
    parts := [] }

def applyTribStreamSet (k : Nat) (p : List Byte) (s : State) : CmdResult :=
  let i := u16 p 0
  let x := s.stream i
  let y := streamFrom p x
  let held := if x.en then [s.ownsMac k x.mac, s.ownsChan k x.chan] else []
  checked s (p.length == 24) (firstOf ([s.ownsMac k y.mac, s.ownsChan k y.chan] ++ held))
    (firstBad p [(decide (4095 < i), 0), (decide (1 < u8 p 2), 2), (decide (1 < u8 p 3), 3), (decide (63 < y.chan), 4),
      (y.partSlots == 0 || decide (7 < y.partSlots), 5), (y.slots == 0 || decide (2048 < y.slots), 6), (decide (7 < y.cls), 9),
      (decide (y.etype.toNat < 0x0600), 10), (decide (1 < u8 p 18), 18)] [(19, 1), (22, 2)])
    (if x.en ∧ !(x.up = y.up ∧ x.chan = y.chan ∧ x.partSlots = y.partSlots ∧ x.slots = y.slots ∧ x.mac = y.mac ∧ x.etype = y.etype)
     then fail s stState
     else done (s.updStream i fun x => { y with parts := if x.en && y.en then x.parts else [] }).tribPower)

def connAt (p : List Byte) (i : Nat) : BitVec 64 := BitVec.ofNat 64 (u64 p (16 + 8 * i))

/-- The reserved bits of the n entries that are set, by the offset of their bytes. -/
def connRsvBad (p : List Byte) (n : Nat) : List (Bool × Nat) := (List.range n).flatMap fun i =>
  let o := 16 + 8 * i
  [(u8 p o != 0, o), (u8 p (o + 1) != 0, o + 1), (bitAt p (o + 3) 3, o + 3), (u8 p (o + 5) % 32 != 0, o + 5)]

/-- Channel c may not have an entry of this page written now (R352). -/
def State.connBars (s : State) (page : Bool) (e : BitVec 64) : Bool :=
  let t := (s.chan (connChan e)).trib
  connValid e && (t.page == page || t.armed)

def applyTribConnSet (k : Nat) (p : List Byte) (s : State) : CmdResult :=
  let page := u8 p 0 == 1
  let first := u32 p 4
  let n := u16 p 8
  let es := (List.range n).map fun i => (first + i, connAt p i)
  let right := firstOf ((es.filter fun e => connValid e.2).flatMap fun e =>
    [s.ownsChan k (connChan e.2), if (s.stream (connStream e.2)).en then s.ownsMac k (s.stream (connStream e.2)).mac else none])
  checked s (p.length == 16 + 8 * n) right
    (firstBad p ([(decide (1 < u8 p 0), 0), (n == 0 || decide (8190 < n), 8)] ++ connRsvBad p n) [(1, 3), (10, 6)])
    (if s.quota k 4 < first + n then fail s stNoResource
     else if es.any fun e => s.connBars page e.2 || s.connBars page (Tab.get 0 s.trib.conn (connIdx page k e.1)) then
       fail s stState
     else
       let conn := es.foldl (fun t e => Tab.set 0 t (connIdx page k e.1) e.2) s.trib.conn
       done { s with trib := { s.trib with conn := conn } }.tribPower)

def applyTribConnGet (k : Nat) (p : List Byte) (s : State) : CmdResult :=
  let first := u32 p 4
  let n := u16 p 8
  checked s (p.length == 10) (s.inQuota k 4 (first + n - 1))
    (firstBad p [(decide (1 < u8 p 0), 0), (n == 0 || decide (8192 < n), 8)] [(1, 3)])
    (done s ((List.range n).flatMap fun i => leBytes 8 (Tab.get 0 s.trib.conn (connIdx (u8 p 0 == 1) k (first + i))).toNat))

def applyTribPageArm (k : Nat) (p : List Byte) (s : State) : CmdResult :=
  let c := u8 p 0
  checked s (p.length == 1) (s.ownsChan k c) (firstBad p [(decide (63 < c), 0)] [])
    (match s.firstInconsistent c (!(s.chan c).trib.page) with
     | some i => fail s stBadParam i
     | none => done (if (s.chan c).trib.armed then s else s.updTrib c fun t => { t with armed := true, seen := 0 }))

def applyTribPageDisarm (k : Nat) (p : List Byte) (s : State) : CmdResult :=
  let c := u8 p 0
  checked s (p.length == 1) (s.ownsChan k c) (firstBad p [(decide (63 < c), 0)] [])
    (done (s.updTrib c fun t => { t with armed := false }))

/-- Counters lo to lo + n - 1 of a group, and the group with them cleared. -/
def ctrSpan (t : Ctrs) (lo n : Nat) : List Byte := (List.range n).flatMap fun i => leBytes 8 (Ctrs.get t (lo + i))
def ctrClear (t : Ctrs) (lo n : Nat) : Ctrs := t.filter fun p => !(lo ≤ p.1 && p.1 < lo + n)

def applyTribStatsGet (k : Nat) (p : List Byte) (s : State) : CmdResult :=
  let i := u16 p 2
  let str := u8 p 0 == 1
  checked s (p.length == 5)
    (if str then (if i < 4096 then s.ownsMac k (s.stream i).mac else none) else s.ownsChan k i)
    (firstBad p [(decide (1 < u8 p 0), 0), (if str then decide (4095 < i) else decide (63 < i), 2), (decide (1 < u8 p 4), 4)] [(1, 1)])
    (if str then
       done (if u8 p 4 = 1 then s.updStream i fun x => { x with ctr := [] } else s) (ctrBytes (s.stream i).ctr 7)
     else
       done (if u8 p 4 = 1 then s.updTrib i fun t => { t with ctr := ctrClear t.ctr 0 11 } else s)
         (ctrSpan (s.chan i).trib.ctr 0 11))

def applyOdcPortSet (k : Nat) (p : List Byte) (s : State) : CmdResult :=
  let i := u8 p 0
  checked s (p.length == 2) (right0 k) (firstBad p [(decide (7 < i), 0), (decide (1 < u8 p 1), 1)] [])
    (let s := ((s.setPin (10 + 3 * i) 4).setPin (11 + 3 * i) 4).setPin (12 + 3 * i) 4
     done { s with trib := { s.trib with odcOn := Tab.set false s.trib.odcOn i (u8 p 1 == 1) } }.tribPower)

def applyOdcStatsGet (k : Nat) (p : List Byte) (s : State) : CmdResult :=
  let c := u8 p 0
  checked s (p.length == 2) (s.ownsChan k c) (firstBad p [(decide (63 < c), 0), (decide (1 < u8 p 1), 1)] [])
    (done (if u8 p 1 = 1 then s.updTrib c fun t => { t with ctr := ctrClear t.ctr 11 3 } else s)
      (ctrSpan (s.chan c).trib.ctr 11 3))

end Sys2Proof.Machine
end

