-- ==== Sys2Proof/Machine/Grants.lean ====
section
/-! DEFINITION. From grants to bursts (04_upstream_bursts.md): the addressed entries of a map (R66, R67), the windows of the rogue
guard (R130, R131), the steps of R148, the data budget of a burst (R149 to R151), past grants (R158), and run-ahead predictions
(R160, R161). -/

namespace Sys2Proof.Machine

/-! ### Grant entries (Table 2.10) -/

/-- PARITY fits its entry (Table 2.10). -/
def parityOk (e : BitVec 64) : Bool :=
  (List.range 4).all fun i => (List.range 16).foldl (fun x j => x ^^ e.getLsbD (4 * j + i)) false == false

/-- The context of an identity grant, which is none of the 64. -/
def identCtx : Nat := 64

/-- An entry as a grant of a context. -/
def grantOf (ctx : Nat) (e : BitVec 64) : Grant :=
  { alloc := (e >>> 50).setWidth 14, ctx, start := (e.toNat >>> 24) % 1048576, len := (e.toNat >>> 4) % 1048576
    rpt := e.getLsbD 49, ctrl := e.getLsbD 44 || e.getLsbD 48 || e.getLsbD 47, range := e.getLsbD 47, cut := false
    prof := (e.toNat >>> 45) % 4, body := 0 }

/-- The kind of burst a grant asks for (R148, step 3). -/
def Grant.kind (g : Grant) : BurstKind := if g.ctx = identCtx then .ident else if g.range then .range else .data
/-- The word after a grant. -/
def Grant.stop (g : Grant) : Nat := g.start + g.len

/-- The instant, in ps, at which word w of a burst's frame leaves the lane (R117). -/
def Burst.at_ (b : Burst) (w : Nat) : Nat := b.tLane + w * 160
/-- The first word after the burst. -/
def Burst.stop (b : Burst) : Nat := b.start + b.words
/-- Planning window of a word (R155). -/
def windowOf (w : Nat) : Nat := min (w / 97656) 7

/-! ### The data budget (R149) -/

/-- Data words of a run that ends at coded word e. -/
def budgetRun (fec : Bool) (e : Nat) : Nat := if fec then 16 * (e / 17) + min (e % 17) 16 else e
/-- Data words when the burst ends at coded word e. -/
def budgetFin (fec : Bool) (e : Nat) : Nat := if fec then 16 * (e / 17) + (e % 17 - 1) else e
/-- Coded words of d data words, the parity of the last codeword included (R146). -/
def codedOf (fec : Bool) (d : Nat) : Nat := if fec then 17 * (d / 16) + (if d % 16 = 0 then 0 else d % 16 + 1) else d

/-- The bodies of the grants of a burst, in data words: o data words before them, c0 the burst's header word (R149). -/
def budgetBodies (fec : Bool) (c0 o : Nat) (gs : List Grant) : List Nat :=
  let top := budgetFin fec ((gs.getLast?.map Grant.stop).getD 0 - c0)
  let k := gs.length
  ((List.range k).foldl (fun (acc : Nat × List Nat) j =>
    let e := (gs[j]?.map Grant.stop).getD 0 - c0
    let cap := if j + 1 = k then top else min (budgetRun fec e) top
    let d := max cap acc.1
    (d, acc.2 ++ [d - acc.1])) (o, [])).2

namespace State

/-! ### Addressed entries (R67, R107) -/

/-- The context that an allocation identifier names for the map of frame n (R67, R108). -/
def ctxOf (s : State) (c : Nat) (n : BitVec 48) (id : BitVec 14) : Option Nat :=
  let t := (s.chan c).tc
  if t.defAlloc = some id ∧ 0 ≤ sfcDiff n t.defFrom then some 0
  else (t.allocs.find? fun p => p.2 == some id).map (·.1)

/-- The grant of an entry addressed to the channel; none for others. -/
def addressed (s : State) (c : Nat) (n : BitVec 48) (e : BitVec 64) : Option Grant :=
  let id : BitVec 14 := (e >>> 50).setWidth 14
  if id = 0x3FFF then
    if e.getLsbD 48 ∧ (s.chan c).tc.opened ∧ (s.chan c).tc.st = .locked then some (grantOf identCtx e) else none
  else (s.ctxOf c n id).map fun a => grantOf a e

/-- GRANT.REVOKE removes entries of the map of frame n (R107). -/
def revokes (s : State) (c : Nat) (n : BitVec 48) (g : Grant) : Bool := match (s.chan c).tc.revoke with
  | some (f, ids) => f == n && g.ctx != identCtx && (ids.isEmpty || ids.contains g.alloc)
  | none => false

/-- Frame n lies in a multiframe in which a failed wake bars every burst (R122). -/
def muted (s : State) (c : Nat) (n : BitVec 48) : Bool := (s.chan c).tc.mute.any fun m => decide (sfcDiff n m ≤ 0)

/-- The channel's state permits the kind of burst that a grant asks for (Table 3.1). -/
def permits (s : State) (c : Nat) (n : BitVec 48) (g : Grant) : Bool := (s.chan c).tc.opened && !s.muted c n && match (s.chan c).tc.st with
  | .locked => g.ctx == identCtx
  | .ranging => g.ctx != identCtx && (g.range || g.ctx == 0)
  | .watch | .doze => g.ctx != identCtx
  | _ => false

/-- A profile of an epoch (R136). -/
def profileOf (s : State) (c : Nat) (epoch : Byte) (idx : Nat) : Option Profile :=
  ((s.chan c).tc.epochs.find? fun e => e.num == epoch).bind fun e => (e.profs.find? fun p => p.1 == idx).map (·.2)

/-- The engines of the channel's cluster are there (R162): the cluster is not absent and its domain is up. -/
def enginesThere (s : State) (c : Nat) : Bool := !s.fw.absent.contains (c / 4) && s.alive (engDom (c / 4))

/-! ### The rogue guard (R130, R131) -/

/-- The permitted window of an entry (R130). -/
def guardWin (s : State) (c t0 : Nat) (epoch : Byte) (g : Grant) : GuardWin :=
  let gw := ((s.profileOf c epoch g.prof).map (·.guard)).getD 0
  { from_ := t0 + g.start * 160 - gw * 160 - 2000, to_ := t0 + (g.start + g.len + gw) * 160 + 2000 }

/-- Windows open for the entries of a map; those that are over go. -/
def openWindows (s : State) (c : Nat) (n : BitVec 48) (t0 : Nat) (epoch : Byte) (gs : List Grant) : State :=
  let new := (gs.filter (s.permits c n)).map (s.guardWin c t0 epoch)
  s.updUs c fun u => { u with windows := (u.windows.filter fun w => decide (s.now ≤ w.to_)) ++ new }

/-- BGATEcc is asserted at an instant: outside every window while the guard senses, the guard trips (R131). -/
def doGuardTrip (s : State) (c t : Nat) : State :=
  let covered := (s.chan c).us.windows.any fun w => decide (w.from_ ≤ t) && decide (t ≤ w.to_)
  if !(s.chan c).tc.opened || !s.alive (usDom c) || (s.chan c).heath.guardLatch || covered then s
  else
    let s := (s.bump c .tcGuardTrip).updHeath c fun h => { h with guardLatch := true, guardArmed := false }
    let s := s.raiseAlarm 0x1053 3 1 c (det1 c) (s.chanParts c)
    (s.toSilenced c .guard).driveBgate c false t

/-! ### Steps 1 to 5 of R148 -/

/-- Step 1: frame range. -/
def cutRange (s : State) (c : Nat) (gs : List Grant) : List Grant × State :=
  gs.foldl (fun (acc : List Grant × State) g =>
    if 781249 < g.start then (acc.1, acc.2.bump c .usGrantRange)
    else if 781250 < g.stop then (acc.1 ++ [{ g with len := 781250 - g.start, cut := true }], acc.2.bump c .usGrantRange)
    else (acc.1 ++ [g], acc.2)) ([], s)

/-- The first word of a grant that an earlier one holds. -/
def firstOverlap (kept : List Grant) (g : Grant) : Option Nat :=
  ((kept.filter fun k => decide (k.start < g.stop) && decide (g.start < k.stop) && k.len != 0 && g.len != 0).map fun k =>
    max k.start g.start).min?

/-- Step 2: overlap, in map order. -/
def cutOverlap (s : State) (c : Nat) (n : BitVec 48) (gs : List Grant) : List Grant × State :=
  gs.foldl (fun (acc : List Grant × State) g =>
    match firstOverlap acc.1 g with
    | none => (acc.1 ++ [g], acc.2)
    | some w =>
      let s := (acc.2.bump c .usGrantOverlap).chanEvent c 0x2015 1 (det2 (n.toNat % 4294967296) g.alloc.toNat)
      (if w = g.start then acc.1 else acc.1 ++ [{ g with len := w - g.start, cut := true }], s)) ([], s)

/-- A grant in its place by START; equal ones keep their map order. -/
def insertGrant (g : Grant) : List Grant → List Grant
  | [] => [g]
  | h :: t => if g.start < h.start then g :: h :: t else h :: insertGrant g t

/-- Step 4: adjacent entries in START order join, up to 64 in a burst. -/
def mergeGrants : List Grant → List (List Grant) → List (List Grant)
  | [], acc => acc
  | g :: l, acc => match acc.getLast? with
    | some b => if b.length < 64 ∧ (b.getLast?.map Grant.stop) = some g.start then mergeGrants l (acc.dropLast ++ [b ++ [g]])
      else mergeGrants l (acc ++ [[g]])
    | none => mergeGrants l [[g]]

/-- A burst's grants in their place by START of the first. -/
def insertBurst (b : List Grant) : List (List Grant) → List (List Grant)
  | [] => [b]
  | h :: t =>
    if ((b.head?.map (·.start)).getD 0) < ((h.head?.map (·.start)).getD 0) then b :: h :: t else h :: insertBurst b t

/-- Steps 3 to 5: identity and ranging bursts by themselves, the first identity grant only (R114), merging, 256 bursts. -/
def burstsOf (s : State) (c : Nat) (gs : List Grant) : List (List Grant) × State :=
  let ident := match gs.find? fun g => g.kind == .ident with
    | some g => [[g]]
    | none => []
  let range := (gs.filter fun g => g.kind == .range).map fun g => [g]
  let data := mergeGrants ((gs.filter fun g => g.kind == .data).foldl (fun l g => insertGrant g l) []) []
  let all := (ident ++ range ++ data).foldl (fun l b => insertBurst b l) []
  let above := ((all.drop 256).map List.length).sum
  (all.take 256, if above = 0 then s else s.bump c .usGrantExcess above)

/-! ### Forming a burst (R113, R150, R151, R158) -/

/-- The identity burst of a grant (R113): its grant moved by the random delay; none when nothing is sent. -/
def identGrant (s : State) (c : Nat) (p : Profile) (g : Grant) : Option (Grant × Nat) × State :=
  let b := p.guard + p.preLen + 4 + (if p.fec then 8 else 7)
  if !(s.chan c).cfg.announce then (none, s)
  else if g.len < b then (none, s.bump c .tcIdentShort)
  else if !s.gorse.drbgRun then (none, s.bump c .rngWait)
  else
    let (v, s) := s.draw
    let r := v.toNat % (min 300000 (g.len - b) + 1)
    (some ({ g with start := g.start + r, len := b }, r), s)

/-- The last instant at which a burst of the channel is on the lane, as its bursts stand. -/
def usBusyTo (s : State) (c : Nat) : Nat :=
  (s.chan c).us.bursts.foldl (fun t b => max t (b.at_ b.stop)) (s.chan c).us.lastEnd

/-- Grants at the front of a burst that are past (R158): less than 2.0 µs ahead, or before the end of every earlier burst. -/
def dropPast (s : State) (c t0 busy : Nat) : List Grant → List Grant × State
  | [] => ([], s)
  | g :: l =>
    if s.now + 2000000 ≤ t0 + g.start * 160 ∧ busy ≤ t0 + g.start * 160 then (g :: l, s)
    else dropPast (s.bump c .usGrantPast) c t0 busy l

end State

/-- A burst laid out on its grants (R149 to R151); none when it cannot carry its header, control field and reports. -/
def Burst.laidOut (b : Burst) (gs : List Grant) : Option Burst :=
  let first := (gs.head?.map (·.start)).getD 0
  let idx := (gs.head?.map (·.prof)).getD 0
  let b : Burst := { b with start := first, grants := gs, profIdx := idx }
  let c0 := b.hdrWord
  let e := (gs.getLast?.map Grant.stop).getD 0 - c0
  if budgetFin b.prof.fec e < b.overhead then none
  else
    let bodies := if b.kind = .data then budgetBodies b.prof.fec c0 b.overhead gs else gs.map fun _ => 0
    let coded := if bodies.all (· == 0) then codedOf b.prof.fec b.overhead else e
    let laid := (gs.zip bodies).map fun (x : Grant × Nat) => { x.1 with body := x.2 }
    some { b with grants := laid, words := c0 + coded - first }

namespace State

/-- A burst is formed and waits for its plan, or its grants are too short (R150). -/
def putBurst (s : State) (c : Nat) (n : BitVec 48) (t0 : Nat) (epoch : Byte) (p : Profile) (kind : BurstKind)
    (gs : List Grant) (rand : Nat) (engines : Bool) : State :=
  let gs := if kind = .ident then gs.map fun g => { g with rpt := false } else gs
  let b : Burst := {
    id := (s.chan c).us.nextId, frame := n, kind, start := 0, words := 0, grants := [], prof := p
    profIdx := 0, epoch, tLane := t0, eqd := (s.chan c).tc.eqd, feUs := (s.feNow c).2, rand
    phase := .scheduled, plan := none, planReady := false, engines, hol := [], fallback := false, seen := [], woken := false
    segs := [], reports := [], tcm := none, keySlot := 0, trib := [] }
  match b.laidOut gs with
  | none => s.bump c .usGrantShort gs.length
  | some b => s.updUs c fun u => { u with nextId := u.nextId + 1, bursts := u.bursts ++ [b] }

/-- One burst of a map: profile, random delay, the grants that came too late, budget. Whether an earlier burst stands in its way is
seen at its plan deadline (R148, step 6). -/
def formBurst (s : State) (c : Nat) (n : BitVec 48) (t0 : Nat) (epoch : Byte) (engines : Bool) (gs : List Grant) : State :=
  match gs with
  | [] => s
  | g :: _ => match s.profileOf c epoch g.prof with
    | none => s
    | some p =>
      if g.kind = .ident then
        match s.identGrant c p g with
        | (none, s) => s
        | (some (g', r), s) => match s.dropPast c t0 0 [g'] with
          | ([], s) => s
          | (gs, s) => s.putBurst c n t0 epoch p .ident gs r engines
      else
        match s.dropPast c t0 0 gs with
        | ([], s) => s
        | (g' :: l, s) => match s.profileOf c epoch g'.prof with
          | none => s
          | some p => s.putBurst c n t0 epoch p g'.kind (g' :: l) 0 engines

/-! ### Predictions (R160, R161) -/

/-- A reservation that no live prediction holds any more is released (R161). -/
def releaseReserved (s : State) (c : Nat) : State :=
  let live := fun (a : Nat) => (s.chan c).us.preds.any fun p => p.reserve &&
    ((s.chan c).tc.allocs.any (fun e => e.1 == a && e.2 == some p.alloc) || (a == 0 && (s.chan c).tc.defAlloc == some p.alloc))
  (List.range 128).foldl (fun s l =>
    let q := 128 * c + l
    let keep := match (s.queue q).cfg.alloc with
      | some a => live a
      | none => false
    if keep || !(s.queue q).frames.any (·.reserved) then s
    else s.updQueue q fun x => { x with frames := x.frames.map fun f => { f with reserved := false } }) s

/-- The predictions for frame n and earlier ones are confirmed by a grant of their allocation, or cancelled (R161). -/
def resolvePreds (s : State) (c : Nat) (n : BitVec 48) (granted : List (BitVec 14)) : State :=
  let due := (s.chan c).us.preds.filter fun p => decide (sfcDiff p.frame n ≤ 0)
  if due.isEmpty then s
  else
    let ok := due.filter fun p => p.frame == n && granted.contains p.alloc
    let s := s.updUs c fun u => { u with preds := u.preds.filter fun p => decide (0 < sfcDiff p.frame n) }
    let s := if ok.isEmpty then s else s.bump c .usPredConfirmed ok.length
    let s := if ok.length = due.length then s else s.bump c .usPredCancelled (due.length - ok.length)
    let s := s.releaseReserved c
    if due.any (·.wake) && !(ok.any (·.wake)) then s.releaseUs c else s

/-- The head frames of a predicted allocation's queues are reserved (R160). -/
def reserveHeads (s : State) (c a : Nat) : State :=
  (List.range 128).foldl (fun s l =>
    let q := 128 * c + l
    if (s.queue q).cfg.alloc = some a then
      match (s.queue q).headFrame with
      | some f => s.updQueue q fun x => { x with
          frames := x.frames.map fun g => if g.id == f.id then { g with reserved := true } else g }
      | none => s
    else s) s

/-- Engine 8c + 7 predicts frame N (R160): only in WATCH, with run-ahead on, the engines there, and N not begun. The domain is
kept up when the predicted wake request falls within the stay-awake gap after the last burst. -/
def doPrediction (s : State) (c : Nat) (p : Prediction) : State :=
  let last := match (s.chan c).rx.cur with
    | some f => some (f.sfc, f.tds)
    | none => none
  match last with
  | none => s
  | some (n, tds) =>
    let d := sfcDiff p.frame n
    if !((s.chan c).tc.opened && (s.chan c).tc.st == .watch) || !(s.chan c).cfg.runAhead || !s.enginesThere c || d ≤ 0 then s
    else
      let t := s.laneInstant c (tds + d.toNat * 125000000) + p.firstWord * 160
      let wake := p.wake && decide (t ≤ s.usBusyTo c + 7000000) && s.powered (usDom c)
      let s := s.updUs c fun u => { u with preds := u.preds ++ p.allocs.map fun a =>
        ({ frame := p.frame, alloc := a, wake, prefetch := p.prefetch, reserve := p.reserve, drain := p.drain } : Pred) }
      let s := if wake then s.requestWake 1 (usDom c) else s
      if p.reserve then p.allocs.foldl (fun s a => match s.ctxOf c p.frame a with
        | some i => s.reserveHeads c i
        | none => s) s
      else s

/-! ### Changes of service at the window 0 plan (R180) -/

/-- The changes of queues and allocations of a channel come into force for frame n and later ones. -/
def applyService (s : State) (c : Nat) (n : BitVec 48) : State :=
  let s := (List.range 128).foldl (fun s l =>
    let q := 128 * c + l
    match (s.queue q).cfgNext with
    | some new =>
      let old := (s.queue q).cfg
      -- what no burst of an earlier frame needs any more goes
      let used := fun (e : BitVec 48 × QCfg) => (s.chan c).us.bursts.any fun b => decide (sfcDiff b.frame e.1 < 0)
      (s.putCfg q new).updQueue q fun x => { x with cfgPrev := x.cfgPrev.filter used ++ [(n, old)] }
    | none => s) s
  (List.range 64).foldl (fun s a => match (s.alloc (allocIdx c a)).weightedNext with
    | some w => s.updAlloc (allocIdx c a) fun x => { x with weighted := w, weightedNext := none }
    | none => s) s

/-- The configuration of a queue that bursts of frame n are planned and committed under (R180). -/
def cfgFor (s : State) (q : Nat) (n : BitVec 48) : QCfg :=
  let x := s.queue q
  match x.cfgPrev.find? fun e => decide (sfcDiff n e.1 < 0) with
  | some (_, old) => { old with adj := x.cfg.adj, discard := x.cfg.discard, enable := old.enable || x.cfg.enable }
  | none => x.cfg

/-- The queues of a context for frame n, in ascending number. -/
def membersFor (s : State) (c a : Nat) (n : BitVec 48) : List Nat :=
  ((List.range 128).map fun l => 128 * c + l).filter fun q => (s.cfgFor q n).alloc == some a

/-! ### The hand-off (R68) -/

/-- The frame has no map that is used: no burst, predictions cancelled, tributary slots without a grant (R161, R349). -/
def noMap (s : State) (c : Nat) (n : BitVec 48) : State :=
  let s := (s.resolvePreds c n []).tribNoGrant c []
  s.updUs c fun u => { u with grantHist := ((n, []) :: u.grantHist).take 65536 }

/-- The addressed entries of a map reach the planners, the executor and the rogue guard at one instant (R68, R148). -/
def handOff (s : State) (c : Nat) (n : BitVec 48) (tds : Nat) (epoch : Byte) (own : List Grant) : State :=
  let t0 := s.laneInstant c tds
  let own := own.filter fun g => !s.revokes c n g
  let s := s.openWindows c n t0 epoch own
  let before := (s.chan c).us.nextId
  let engines := s.enginesThere c
  let s := if (s.chan c).closing then s else
    let ents := own.filter (s.permits c n)
    let (gs, s) := s.cutRange c ents
    let (gs, s) := s.cutOverlap c n gs
    let (bs, s) := s.burstsOf c gs
    bs.foldl (fun s b => s.formBurst c n t0 epoch engines b) s
  let new := ((s.chan c).us.bursts.filter fun b => decide (before ≤ b.id)).flatMap (·.grants)
  let s := s.resolvePreds c n (new.map (·.alloc))
  let s := s.tribNoGrant c (new.map (·.ctx))
  let s := s.updUs c fun u => { u with
    grantHist := ((n, new.map fun g => (g.ctx, g.body)) :: u.grantHist).take 65536
    plans := if engines then u.plans ++ [(n, 0)] else u.plans }
  -- without engines no window 0 plan starts: the changes of R180 come into force here
  let s := if engines then s else s.applyService c n
  s.bondReweigh c

end State

/-! ### Commands -/

def execRunAheadPrediction (c : Chan) (p : Prediction) (s : State) : Host.Outcome State Fault Refusal := .next (s.doPrediction c p)

end Sys2Proof.Machine
end

