-- ==== Sys2Proof/Machine/Planner.lean ====
section
/-! DEFINITION. Planning of bursts (04_upstream_bursts.md, 05_queues_shaping.md): which frames a plan sees and may place (R152,
R156, R174, R177, R186, R187, R260, R298), strict, weighted and fallback service (R163, R176 to R179), and the head-of-line
policy (R153, R154). -/

namespace Sys2Proof.Machine

/-- What one plan is made for: the channel, its upstream frame, whether the fallback planner makes it, and the frames it may name
(all, or those of the plan deadline). -/
structure PlanFor where
  c : Nat
  frame : BitVec 48
  fallback : Bool
  seen : Option (List Nat)

/-- Deficit counters of a context as a plan goes on: the counters, the pointer, and the members cleared in the burst at hand. -/
structure Drr where
  dc : List Int
  ptr : Nat
  cleared : List Nat

/-- A plan in the making: the state, the frames each queue shows, the charges of frames placed so far by bucket, the deficit
counters and pointers by context, the instant of the commit, the context and the bytes left of the body, and the body so far. -/
structure PlanAcc where
  s : State
  vis : List (Nat × List Frame)
  extra : Tab Nat
  drr : List (Nat × Drr)
  commit : Nat
  ctx : Nat
  rem : Nat
  body : List PlanSeg

/-- Places of the buckets of an allocation and of the channel beside those of queues. -/
def exAlloc (a : Nat) : Nat := 20000 + a
def exPeak : Nat := 30000

/-- A shaper's count at a later instant: its refill in closed form (R185, R187). -/
def Shaper.project (h : Shaper) (now at_ : Nat) : Shaper :=
  let n := at_ / 6400 - now / 6400
  if h.en ∧ 0 < h.rate ∧ 0 < n then
    let (c, f) := refill (h.rate * n) h.burst h.count h.frac
    { h with count := c, frac := f }
  else h

namespace State

/-! ### Frames as upstream segments (R74, R143, R174, R374) -/

/-- The flow context of a frame of queue q for frame n: its own, or the queue's (R174). -/
def flowFor (s : State) (q : Nat) (n : BitVec 48) (f : Frame) : Nat := f.flow.getD (s.cfgFor q n).flow

/-- The flow held in a context with the upstream flag (R174). -/
def flowUp (s : State) (c flow : Nat) : Option FlowHeld :=
  match Tab.get none (s.chan c).tc.flows flow with
  | some h => if h.up then some h else none
  | none => none

/-- The span of a frame as a segment and whether its flow uses a unicast key; none when it has no flow tag or does not fit a segment
(R74, R174, R374). -/
def segOf (s : State) (c q : Nat) (n : BitVec 48) (f : Frame) : Option (Nat × Bool) :=
  match s.flowUp c (s.flowFor q n f) with
  | none => none
  | some h =>
    if h.unicast ∧ 16383 < f.len + 8 then none
    else some (8 + (if (s.bondedFlow c (s.flowFor q n f)).isSome then 8 else 0) + f.len + (if h.unicast then 8 else 0), h.unicast)

/-- The span that a frame counts with in a report (R142): that of a clear segment while its flow has no tag. -/
def spanOf (s : State) (c q : Nat) (n : BitVec 48) (f : Frame) : Nat := match s.segOf c q n f with
  | some (sp, _) => sp
  | none => 8 + f.len

/-- Segments of a queue that plans not yet executed name (R156). -/
def planned (s : State) (c q : Nat) : Nat :=
  ((s.chan c).us.bursts.map fun b =>
    if b.phase = .scheduled then (((b.plan.map (·.bodies)).getD []).flatten.filter fun p => p.q == q).length else 0).sum

/-- The frames of a queue that a plan may place, oldest first (R156, R260): an engine plan leaves what earlier plans name; the
fallback planner takes the queues as they stand (R157). -/
def visible (s : State) (e : PlanFor) (q : Nat) : List Frame :=
  let l := ((s.queue q).frames.filter fun f => !f.claimed).takeWhile fun f => f.place == .head
  match e.seen with
  | some ids => l.filter fun f => ids.contains f.id
  | none => l.drop (s.planned e.c q)

/-- A hold for a suspect key is entered, and counted, or ended (R298); whether it stands. -/
def keyHold (s : State) (c q : Nat) (n : BitVec 48) (ukey : Bool) : Bool × State :=
  let blocked := ukey && !(s.chan c).keys.canEncrypt n
  let s' := if blocked && !(s.queue q).keyHeld then s.bump c .ckUsKeyHold else s
  (blocked, if (s.queue q).keyHeld = blocked then s' else s'.updQueue q fun x => { x with keyHeld := blocked })

end State

namespace PlanAcc

/-- The frames a queue shows. -/
def frames (x : PlanAcc) (e : PlanFor) (q : Nat) : List Frame := match x.vis.find? fun v => v.1 == q with
  | some v => v.2
  | none => x.s.visible e q

/-- The queue shows its frames but the first. -/
def setFrames (x : PlanAcc) (q : Nat) (l : List Frame) : PlanAcc :=
  { x with vis := (q, l) :: x.vis.filter fun v => v.1 != q }

/-- The head of a queue with its span and key use; heads without a flow tag leave, counted Q_DROP_NOFLOW (R174), at most k. -/
def head (e : PlanFor) (q : Nat) : Nat → PlanAcc → Option (Frame × Nat × Bool) × PlanAcc
  | 0, x => (none, x)
  | k + 1, x => match x.frames e q with
    | [] => (none, x.setFrames q [])
    | f :: l => match x.s.segOf e.c q e.frame f with
      | some (sp, u) => (some (f, sp, u), x.setFrames q (f :: l))
      | none => head e q k ({ x with s := x.s.takeOut q (fun g => g.id == f.id) fun s _ => s.bumpQ q .dropNoflow }.setFrames q l)

/-- A shaper at the commit instant permits a frame, after what the plan has placed (R186, R187). -/
def allows (x : PlanAcc) (h : Shaper) (k : Nat) : Bool :=
  let p := h.project x.s.now x.commit
  { p with count := p.count - Tab.get 0 x.extra k }.permits

/-- The queue is enabled, not halted, and its shapers permit a frame (R177, R179, R189). -/
def servable (x : PlanAcc) (e : PlanFor) (q : Nat) : Bool :=
  let qs := (x.s.queue q).shaper
  let al := (x.s.alloc (allocIdx e.c x.ctx)).shaper
  let pk := x.s.peak e.c
  (x.s.cfgFor q e.frame).enable && !qs.halts && !al.halts && !pk.halts && x.allows pk exPeak
    && (e.fallback || (x.allows qs q && x.allows al (exAlloc x.ctx)))

/-- What the head of a queue is at this point of the plan. -/
inductive Head where
  | empty
  | ineligible
  | tooLong
  | fits (f : Frame) (span : Nat)

/-- The head of a queue tested for placing (R152, R177, R298). -/
def peek (e : PlanFor) (q : Nat) (x : PlanAcc) : Head × PlanAcc :=
  match head e q ((x.frames e q).length + 1) x with
  | (none, x) => (.empty, x)
  | (some (f, sp, u), x) =>
    if !x.servable e q then (.ineligible, x)
    else
      let (blocked, s) := x.s.keyHold e.c q e.frame u
      let x := { x with s := s }
      if blocked then (.ineligible, x) else if x.rem < sp then (.tooLong, x) else (.fits f sp, x)

/-- A frame is placed. -/
def put (x : PlanAcc) (e : PlanFor) (q : Nat) (f : Frame) (sp : Nat) : PlanAcc :=
  let n := counted (x.s.cfgFor q e.frame).adj f.len
  let add := fun (t : Tab Nat) (k : Nat) => Tab.set 0 t k (Tab.get 0 t k + n)
  { x.setFrames q ((x.frames e q).drop 1) with
    rem := x.rem - sp
    body := x.body ++ [{ q, span := sp }]
    extra := add (add (add x.extra q) (exAlloc x.ctx)) exPeak }

/-- Queue q places frames until its head does not fit or is not eligible, at most k (R176). -/
def drain (e : PlanFor) (q : Nat) : Nat → PlanAcc → PlanAcc
  | 0, x => x
  | k + 1, x => match peek e q x with
    | (.fits f sp, x) => drain e q k (x.put e q f sp)
    | (_, x) => x

/-- Queues in an order, each drained before the next (R163, R176). -/
def strict (e : PlanFor) (qs : List Nat) (x : PlanAcc) : PlanAcc :=
  qs.foldl (fun x q => drain e q ((x.frames e q).length + 1) x) x

/-- Deficit counters and pointer of the context, as this plan has left them or as the committed plans have (R178). -/
def deficits (x : PlanAcc) (e : PlanFor) : Drr := match x.drr.find? fun d => d.1 == x.ctx with
  | some d => d.2
  | none => let a := x.s.alloc (allocIdx e.c x.ctx); { dc := a.dc, ptr := a.ptr, cleared := [] }

/-- Deficit counters and pointer replaced. -/
def setDeficits (x : PlanAcc) (d : Drr) : PlanAcc :=
  { x with drr := (x.drr.filter fun y => y.1 != x.ctx) ++ [(x.ctx, d)] }

/-- The deficit counter of a member changes. -/
def addDeficit (x : PlanAcc) (e : PlanFor) (m : Nat) (n : Int) : PlanAcc :=
  let d := x.deficits e
  x.setDeficits { d with dc := d.dc.set m (d.dc.getD m 0 + n) }

/-- The deficit counter of a member is cleared. -/
def clearDeficit (x : PlanAcc) (e : PlanFor) (m : Nat) : PlanAcc :=
  let d := x.deficits e
  x.setDeficits { d with dc := d.dc.set m 0, cleared := m :: d.cleared }

/-- A member's turn places frames while they fit its deficit, at most k (R177); whether it stopped because its head did not fit
the room. -/
def turn (e : PlanFor) (q m : Nat) : Nat → PlanAcc → Bool × PlanAcc
  | 0, x => (false, x)
  | k + 1, x => match peek e q x with
    | (.fits f sp, y) =>
      let n : Int := counted (y.s.cfgFor q e.frame).adj f.len
      if n ≤ (y.deficits e).dc.getD m 0 then turn e q m k ((y.put e q f sp).addDeficit e m (-n)) else (false, y)
    | (.tooLong, y) => (true, y)
    | (_, y) => (false, y)

/-- No frame of the queue is neither claimed nor placed by this plan; spilled and tail frames count as held (R177). -/
def emptied (e : PlanFor) (x : PlanAcc) (q : Nat) : Bool :=
  (x.frames e q).isEmpty && (x.s.queue q).frames.all fun f => f.claimed || f.place == .head

/-- The rounds of the weighted service over members (queue, MEMBER, WEIGHT) in ascending MEMBER order, those passed over left out
(R177); at most k rounds. -/
def rounds (e : PlanFor) : Nat → List (Nat × Nat × Nat) → PlanAcc → PlanAcc
  | 0, _, x => x
  | k + 1, w, x =>
    let (ok, x) := w.foldl (fun (acc : List (Nat × Nat × Nat) × PlanAcc) m => match peek e m.1 acc.2 with
      | (.fits _ _, y) => (acc.1 ++ [m], y)
      | (_, y) => (acc.1, y)) ([], x)
    match ok with
    | [] => x
    | first :: _ =>
      let ptr := (x.deficits e).ptr
      let i := (ok.find? fun m => decide (ptr ≤ m.2.1)).getD first
      let x := x.addDeficit e i.2.1 (i.2.2 * 64)
      let (passed, x) := turn e i.1 i.2.1 ((x.frames e i.1).length + 1) x
      let x := if emptied e x i.1 then x.clearDeficit e i.2.1 else x
      let x := x.setDeficits { x.deficits e with ptr := i.2.1 + 1 }
      rounds e k (if passed then w.filter fun m => m.1 != i.1 else w) x

/-- Members of the context by MEMBER, with their weights. -/
def byMember (x : PlanAcc) (e : PlanFor) : List (Nat × Nat × Nat) :=
  let ms := (x.s.membersFor e.c x.ctx e.frame).map fun q => (q, (x.s.cfgFor q e.frame).member, (x.s.cfgFor q e.frame).weight)
  (List.range 8).filterMap fun m => ms.find? fun y => y.2.1 == m

/-- One body is filled (R163, R176). -/
def fill (x : PlanAcc) (e : PlanFor) : PlanAcc :=
  if e.fallback then strict e (x.s.membersFor e.c x.ctx e.frame) x
  else
    let ms := x.byMember e
    if (x.s.alloc (allocIdx e.c x.ctx)).weighted then
      let w := ms.filter fun m => m.2.2 != 0
      let held := (w.map fun m => (x.frames e m.1).length).sum
      strict e ((ms.filter fun m => m.2.2 == 0).map (·.1)) (rounds e (2400 * (held + 1)) w x)
    else strict e (ms.map (·.1)) x

/-- The bodies of the grants of a burst, in order (R156). A grant bound to the tributary unit gets no entry (R348). -/
def bodies (e : PlanFor) (gs : List Grant) (x : PlanAcc) : List (List PlanSeg) × PlanAcc :=
  gs.foldl (fun (acc : List (List PlanSeg) × PlanAcc) g =>
    if g.body = 0 ∨ Tab.get .none (acc.2.s.chan e.c).trib.binds g.ctx ≠ .none then (acc.1 ++ [[]], acc.2)
    else
      let x := fill { acc.2 with ctx := g.ctx, rem := 16 * (g.body - 1), body := [] } e
      (acc.1 ++ [x.body], x)) ([], x)

end PlanAcc

namespace State

/-- The start of a plan. -/
def planFrom (s : State) (commit : Nat) : PlanAcc := { s, vis := [], extra := [], drr := [], commit, ctx := 0, rem := 0, body := [] }

/-- What a burst's part of a plan does to the counters of a context, whose members are given with their positions (R178). -/
def drrSteps (from_ to_ : Drr) (ms : List (Nat × Nat)) : List DrrStep :=
  (ms.map fun m =>
    let wiped := to_.cleared.contains m.2
    ({ q := m.1, member := m.2, cleared := wiped, add := to_.dc.getD m.2 0 - (if wiped then 0 else from_.dc.getD m.2 0) } : DrrStep))
    |>.filter fun d => d.cleared || d.add != 0

/-- The plan of one burst, with the state after the drops and holds it set off; the deficit counters go on from burst to burst of
one plan. -/
def planBurst (e : PlanFor) (b : Burst) (x : PlanAcc) : Plan × PlanAcc :=
  let x := { x with drr := x.drr.map fun d => (d.1, { d.2 with cleared := [] }) }
  let (bs, y) := PlanAcc.bodies e b.grants x
  let steps := y.drr.map fun d =>
    let z := { y with ctx := d.1 }
    (d.1, d.2.ptr, drrSteps ({ x with ctx := d.1 }.deficits e) d.2 ((z.byMember e).map fun m => (m.1, m.2.1)))
  ({ bodies := bs, drr := steps }, y)

/-- A burst replaced. -/
def updBurst (s : State) (c id : Nat) (f : Burst → Burst) : State :=
  s.updUs c fun u => { u with bursts := u.bursts.map fun b => if b.id == id then f b else b }

/-- The instant, in ps, of a burst's plan deadline (R156). -/
def deadlineOf (b : Burst) : Nat := b.at_ b.start - 2000000

/-- A burst in its place by its first word. -/
def insertByStart (b : Burst) : List Burst → List Burst
  | [] => [b]
  | h :: t => if b.start < h.start then b :: h :: t else h :: insertByStart b t

/-- The engine of window w starts the plan of the oldest frame that waits for it (R156): window 0 brings changes of service into
force (R180); the plan of each burst of the window is made on the queues as they stand. -/
def doPlanStart (s : State) (c w : Nat) : State :=
  match (s.chan c).us.plans, (s.chan c).us.running with
  | (n, next) :: _, none =>
    if next ≠ w ∨ !s.enginesThere c then s
    else
      let s := if w = 0 then s.applyService c n else s
      let s := s.updUs c fun u => { u with running := some (n, w) }
      let mine := (s.chan c).us.bursts.filter fun b =>
        b.frame == n && b.kind == .data && b.engines && b.phase == .scheduled && windowOf b.start == w
      let e : PlanFor := { c, frame := n, fallback := false, seen := none }
      ((mine.foldl (fun l b => insertByStart b l) []).foldl (fun (x : PlanAcc) b =>
        let (p, x) := planBurst e b { x with commit := deadlineOf b }
        { x with s := x.s.updBurst c b.id fun b => { b with plan := some p } }) (s.planFrom 0)).s
  | _, _ => s

/-- The running plan is complete and reaches the executor (R156). -/
def doPlanComplete (s : State) (c w : Nat) : State :=
  match (s.chan c).us.running with
  | some (n, v) =>
    if v ≠ w then s
    else s.updUs c fun u => { u with
      running := none
      plans := if w = 7 then u.plans.filter fun p => p.1 != n
        else u.plans.map fun p => if p.1 = n then (n, w + 1) else p
      bursts := u.bursts.map fun b =>
        if b.frame == n && windowOf b.start == w && b.phase == .scheduled && b.plan.isSome then { b with planReady := true } else b }
  | none => s

/-- The engines of a channel go away: what is not committed is left to the fallback planner (R162, R164). -/
def enginesGone (s : State) (c : Nat) : State := s.updUs c fun u => { u with
  plans := [], running := none
  bursts := u.bursts.map fun b => if b.phase == .scheduled then { b with engines := false, plan := none, planReady := false } else b }

/-! ### Head-of-line policy (R153, R154) -/

/-- A hold begins or ends: event and ALARM.RPT code 0x0007 (R133). -/
def holAlarm (s : State) (q : Nat) (raised : Bool) : State :=
  let c := q / 128
  (s.chanEvent c 0x2007 0 (det1 (q % 128)) raised).alarmRpt c 7 raised (q % 128)

/-- A hold ends (R153). -/
def endHold (s : State) (q : Nat) : State :=
  if (s.queue q).holHeld then (s.updQueue q fun x => { x with holHeld := false }).holAlarm q false else s

/-- The policy for queue q at the end of upstream frame n at an instant, with the bodies recorded for its allocation (R153). -/
def holQueue (s : State) (c q : Nat) (n : BitVec 48) (at_ : Nat) (recs : List Nat) : State :=
  let x := s.queue q
  match x.headFrame with
  | none => (s.endHold q).updQueue q fun x => { x with headId := none, headFrames := 0 }
  | some f =>
    if at_ < f.enq then s
    else if x.headId ≠ some f.id then (s.endHold q).updQueue q fun x => { x with headId := some f.id, headFrames := 0 }
    else match s.segOf c q (n + 1) f with
      | none => s
      | some (sp, u) =>
        match s.keyHold c q (n + 1) u with
        | (true, s) => s
        | (false, s) =>
          let k := x.headFrames + 1
          let s := s.updQueue q fun x => { x with headFrames := k }
          -- a committed plan names no unclaimed frame; a live reservation may (R154)
          if k < (s.chan c).cfg.holWindow ∨ recs.isEmpty ∨ f.reserved ∨ recs.any fun r => sp ≤ r then s
          else if x.cfg.discard then
            let s := s.takeOut q (fun g => g.id == f.id) fun s _ => s.bumpQ q .dropHol
            ((s.bump c .usHolDiscard).endHold q).updQueue q fun x => { x with headId := x.headFrame.map (·.id), headFrames := 0 }
          else if x.holHeld then s
          else ((s.updQueue q fun x => { x with holHeld := true }).bump c .usHolHold).holAlarm q true

/-- The policy for every queue of the channel once upstream frame n has left. -/
def holTick (s : State) (c : Nat) (n : BitVec 48) (at_ : Nat) : State :=
  (List.range 128).foldl (fun s l =>
    let q := 128 * c + l
    match (s.queue q).cfg.alloc with
    | none => s
    | some a =>
      let recs := (Tab.get [] (s.chan c).us.bodyRec a).filter fun r =>
        decide (0 ≤ sfcDiff n r.1) && decide (sfcDiff n r.1 < (s.chan c).cfg.holWindow)
      s.holQueue c q n at_ (recs.map (·.2))) s

/-- The policy for every upstream frame that has left since it was last applied, up to frame n; frames slept or held through count as
well (R153). A jump of more than 131,072 frames, over which no doze or holdover lasts, counts as one. -/
def holTicks (s : State) (c : Nat) (n : BitVec 48) : State :=
  let gap := match (s.chan c).us.holAt with
    | some h => let d := sfcDiff n h; if d ≤ 0 then 0 else if 131072 < d then 1 else d.toNat
    | none => 1
  let s := (List.range gap).foldl (fun s i =>
    let back := gap - 1 - i
    s.holTick c (n - BitVec.ofNat 48 back) (s.now - back * 125000000)) s
  s.updUs c fun u => { u with holAt := some n }

end State

/-! ### Commands -/

def execPlanStart (c : Chan) (w : Fin 8) (s : State) : Host.Outcome State Fault Refusal := .next (s.doPlanStart c w)
def execEnginePlanComplete (c : Chan) (w : Fin 8) (s : State) : Host.Outcome State Fault Refusal := .next (s.doPlanComplete c w)

end Sys2Proof.Machine
end

