-- ==== Sys2Proof/Machine/Executor.lean ====
section
/-! DEFINITION. The plan executor (04_upstream_bursts.md): commit (R157, R142), the assembly of a burst (R135 to R147, R273, R282,
R299), its end (R165, R166, R168), and the committed wake. -/

namespace Sys2Proof.Machine

/-! ### Bytes of a burst -/

/-- The body of an upstream TCM (Table 3.6). -/
def UpTcm.body : UpTcm → Nat → List Byte
  | .ack t q r, _ => [t, q, r]
  | .keyRpt kdir slot seq i n frag, _ => [kdir, slot, seq, i, n] ++ frag
  | .alarm code sev raised detail, _ => beBytes 2 code ++ [BitVec.ofNat 8 sev, bByte raised] ++ beBytes 4 detail
  | .wakeReq r, _ => [BitVec.ofNat 8 r]
  | .sleepReq k r, _ => beBytes 2 k ++ [BitVec.ofNat 8 r]
  | .identRsp caps rand epoch, c => beBytes 8 Config.serial.toNat ++ [BitVec.ofNat 8 c] ++ beBytes 4 caps.toNat ++ beBytes 3 rand ++ [epoch]
  | .rangeRsp eqd fe, c => beBytes 8 Config.serial.toNat ++ [BitVec.ofNat 8 c] ++ beBytes 3 eqd ++ beBytes 3 fe

/-- The 48 bytes of a control field: a TCM with its TCRC, or fill (R99, R101). -/
def controlField (c : Nat) (tid : BitVec 16) : Option UpEntry → List Byte
  | none => zeros 48
  | some e =>
    let m := [BitVec.ofNat 8 e.msg.type] ++ beBytes 2 tid.toNat ++ [e.seq] ++ e.msg.body c
    slice (m ++ beBytes 4 (crc32 m).toNat) 0 48

/-- A status report (Table 4.5). -/
def Report.bytes (r : Report) : List Byte := beBytes 4 (r.sat.toNat * 2147483648 + r.hol.toNat * 1073741824 + r.backlog)

/-- A report of a backlog of some span bytes (R142). -/
def reportOf (alloc : BitVec 14) (hol : Bool) (bytes : Nat) : Report :=
  let u := ceilDiv bytes 64
  { alloc, sat := decide (16777215 < u), hol, backlog := min u 16777215 }

/-- A segment header with its HDR_CRC (Table 2.12). -/
def segHead (tag : Nat) (len key : Nat) (ext : Bool) (type : Nat) : List Byte :=
  let h := beBytes 6 (tag * 4294967296 + len * 262144 + key * 65536 + ext.toNat * 32768 + type * 4096)
  h ++ beBytes 2 (crc16 h).toNat

/-- An extension word (Table 2.13). -/
def extWord (grp seq : Nat) : List Byte :=
  let h := beBytes 1 grp ++ beBytes 3 seq ++ [0, 0]
  h ++ beBytes 2 (crc16 h).toNat

/-- Fill that stands in the place of a segment (R273); its payload bytes are a free value. -/
def fillFor (span : Nat) (v : Byte) : List Byte :=
  if span - 8 ≤ 16383 then segHead 0 (span - 8) 0 false 2 ++ List.replicate (span - 8) v
  else segHead 0 (span - 24) 0 false 2 ++ List.replicate (span - 24) v ++ segHead 0 8 0 false 2 ++ List.replicate 8 v

/-- Fill headers that stand for a filled segment (R273). -/
def fillCount (span : Nat) : Nat := if span - 8 ≤ 16383 then 1 else 2

/-- A segment as it leaves: as the cipher left it, or fill in its place, whose payload is a free value (R273, R299). -/
def TxSeg.sent (x : TxSeg) : List Byte := if x.filled then fillFor x.span ((Config.open64 4 x.fid).setWidth 8) else x.bytes

/-- What closes a body after its segments (R144). -/
def closing (n : Nat) : List Byte := if 8 ≤ n then segHead 0 0 0 false 2 ++ zeros (n - 8) else zeros n

/-- An allocation header (Table 4.6). -/
def allocHead (g : Grant) (segBytes segCount : Nat) (trib hol : Bool) : List Byte :=
  let h := beBytes 2 g.alloc.toNat ++ beBytes 3 segBytes ++ beBytes 2 segCount
    ++ [BitVec.ofNat 8 (trib.toNat * 4 + g.cut.toNat * 2 + hol.toNat)] ++ beBytes 3 g.start ++ zeros 3
  h ++ beBytes 2 (crc16 h).toNat

/-- RS codewords of a coded region's data, at most k of them (R146). -/
def fecEncode : Nat → List Byte → List Byte
  | 0, _ => []
  | k + 1, d => if d.isEmpty then [] else d.take 256 ++ rsParity (d.take 256) ++ fecEncode k (d.drop 256)

/-- The coded region as sent (R135, R146, R147): FEC, zero words to its length, scrambling from the header word on. -/
def codedRegion (fec : Bool) (n : BitVec 48) (w : Nat) (data : List Byte) (words : Nat) : List Byte :=
  let x := if fec then fecEncode (data.length / 256 + 1) data else data
  packBits (scramble (burstSeed n w) (bitsOf (slice x 0 (16 * words))))

/-- OFS some ticks later, as it slews (R326). -/
def ofsAfter (t : TimeSt) (ticks : Nat) : TimeVal :=
  if t.waiting || t.held then t.ofs else State.slewToward t.ofs (ticks * State.slewStep t.slew)

/-- A grant's kind fits its burst. -/
def Burst.ctl (b : Burst) : Bool := b.kind != .data || b.grants.any (·.ctrl)

namespace State

/-! ### Commit (R157) -/

/-- Span bytes that wait in the queues of a context (R142). -/
def backlog (s : State) (c a : Nat) (n : BitVec 48) : Nat :=
  ((s.membersFor c a n).map fun q => (((s.queue q).frames.filter fun f => !f.claimed).map (s.spanOf c q n)).sum).sum

/-- A queue of the context is held for head-of-line blocking. -/
def holOf (s : State) (c a : Nat) (n : BitVec 48) : Bool := (s.membersFor c a n).any fun q => (s.queue q).holHeld

/-- What the queue of a planned segment holds for it at the commit (R157, step 2): its oldest unclaimed frame, whole on-chip, with a
flow tag, a key that can encrypt it (R298), and a span that fits the room left; with the state after a hold set off. A frame
whose flow holds no tag any more stays in its queue (a DESIGN CHOICE: R174 speaks of planning only; log 97). -/
def claimable (s : State) (c : Nat) (n : BitVec 48) (room q : Nat) : Option (Frame × Nat × FlowHeld) × State :=
  match (s.queue q).headFrame with
  | none => (none, s)
  | some f => match s.flowUp c (s.flowFor q n f), s.segOf c q n f with
    | some h, some (sp, u) =>
      if f.place ≠ .head ∨ room < sp then (none, s)
      else
        let (blocked, s) := s.keyHold c q n u
        (if blocked then none else some (f, sp, h), s)
    | _, _ => (none, s)

/-- A segment of a plan is claimed, and charged to its three shapers (R157, R186); nothing when its queue holds none that can go. -/
def claimSeg (s : State) (c a : Nat) (n : BitVec 48) (slot room : Nat) (p : PlanSeg) : Option TxSeg × State :=
  match s.claimable c n room p.q with
  | (none, s) => (none, s)
  | (some (f, sp, h), s) =>
    let len := counted (s.cfgFor p.q n).adj f.len
    let s := if (s.queue p.q).headId = some f.id then s.endHold p.q else s
    let s := s.askBanks (20 + c) f.cells
    let s := s.updQueue p.q fun x => { x with
      frames := x.frames.map fun g => if g.id == f.id then { g with claimed := true } else g
      shaper := x.shaper.charge len }
    let s := (s.updAlloc (allocIdx c a) fun x => { x with shaper := x.shaper.charge len }).updPeak c fun h => h.charge len
    (some { q := p.q, fid := f.id, span := sp, keyIdx := if h.unicast then slot else 0, filled := false, tag := h.tag
            ext := (s.bondedFlow c (s.flowFor p.q n f)).isSome }, s)

/-- The planned segments of every grant are claimed in plan order, as many as fit its body (R152, R157). -/
def claimAll (s : State) (c : Nat) (n : BitVec 48) (slot : Nat) (l : List (Grant × List PlanSeg)) : List (List TxSeg) × State :=
  l.foldl (fun (acc : List (List TxSeg) × State) gp =>
    let (segs, s) := gp.2.foldl (fun (a : List TxSeg × State) p =>
      match a.2.claimSeg c gp.1.ctx n slot (16 * (gp.1.body - 1) - (a.1.map (·.span)).sum) p with
      | (some t, s) => (a.1 ++ [t], s)
      | (none, s) => (a.1, s)) ([], acc.2)
    (acc.1 ++ [segs], s)) ([], s)

/-- The tributary bodies of the bound allocations of a burst, by the place of the grant (R348). -/
def tribBodies (s : State) (c : Nat) (b : Burst) : List (Nat × List Byte) × State :=
  (List.range b.grants.length).foldl (fun (acc : List (Nat × List Byte) × State) i =>
    match b.grants[i]? with
    | none => acc
    | some g =>
      let t := Tab.get .none (acc.2.chan c).trib.binds g.ctx
      if t = .none ∨ g.body = 0 then acc
      else let (bs, s) := acc.2.tribBody c t b.frame g.body; (acc.1 ++ [(i, bs)], s)) ([], s)

/-- The reports of a burst: what waits once its own spans are taken off, and the holds that stood at its commit, given per grant
(R141, R142, R348). -/
def reportsOf (s : State) (c : Nat) (b : Burst) (hol : List Bool) : List Report :=
  ((b.grants.zip hol).filter (·.1.rpt)).map fun g =>
    if Tab.get .none (s.chan c).trib.binds g.1.ctx ≠ .none then reportOf g.1.alloc false 0
    else reportOf g.1.alloc g.2 (s.backlog c g.1.ctx b.frame)

/-- The deficit counters and pointers change as a committed plan says (R178); a queue that has left the context has no counter. -/
def applyDrr (s : State) (c : Nat) (d : List (Nat × Nat × List DrrStep)) : State :=
  d.foldl (fun s x =>
    let here := x.2.2.filter fun y => (s.queue y.q).cfg.alloc == some x.1 && (s.queue y.q).cfg.member == y.member
    s.updAlloc (allocIdx c x.1) fun a => { a with
      ptr := x.2.1
      dc := here.foldl (fun dc y => dc.set y.member ((if y.cleared then 0 else dc.getD y.member 0) + y.add)) a.dc }) s

/-- A burst goes without a trace: its wake becomes a release (R157). -/
def dropBurst (s : State) (c id : Nat) : State :=
  (s.updUs c fun u => { u with bursts := u.bursts.filter fun b => b.id != id }).releaseUs c

/-- The commit instant of a burst with its plan (R157). From the start of a withdrawal or an emergency shutdown no burst is committed
(R426, R428). -/
def commit (s : State) (c : Nat) (b : Burst) (p : Plan) (fallback : Bool) : State :=
  if !b.grants.all (s.permits c b.frame) || !s.mayGrant then s.dropBurst c b.id
  else
    let slot := (s.chan c).keys.usSlot b.frame
    -- the snapshot comes before the claim, which may end a hold (R157, steps 3 and 4)
    let hol := b.grants.map fun g => s.holOf c g.ctx b.frame
    let (segs, s) := s.claimAll c b.frame slot (b.grants.zip p.bodies)
    let s := s.applyDrr c p.drr
    let (trib, s) := s.tribBodies c b
    let s := if fallback then s.bump c .usPlanFallback else s
    let reports := s.reportsOf c b hol
    s.updBurst c b.id fun b => { b with
      phase := .committed, plan := some p, fallback, segs, reports, hol, keySlot := slot, trib }

/-- The frames in the heads of the channel's queues, which the fallback planner may name (R260). -/
def headIds (s : State) (c : Nat) : List Nat :=
  (List.range 128).flatMap fun l => ((s.queue (128 * c + l)).frames.filter fun f => !f.claimed && f.place == .head).map (·.id)

/-- The end of the last burst of a channel that has reached its deadline before this one, which is then earlier on the lane. -/
def earlierEnd (s : State) (c id : Nat) : Nat :=
  ((s.chan c).us.bursts.filter fun b => b.id != id && b.phase != .scheduled).foldl (fun t b => max t (b.at_ b.stop)) (s.chan c).us.lastEnd

/-- A burst that would begin before an earlier one has ended gives up its front grants; what remains is a burst of its own, with a
plan deadline of its own (R148 step 6, R158). None when the burst does not go on now. -/
def shedPast (s : State) (c : Nat) (b : Burst) : Option Burst × State :=
  let busy := s.earlierEnd c b.id
  if busy ≤ b.at_ b.start then (some b, s)
  else match s.dropPast c b.tLane busy b.grants with
    | ([], s) => (none, s.dropBurst c b.id)
    | (g :: l, s) => match s.profileOf c b.epoch g.prof with
      | none => (none, s.dropBurst c b.id)
      | some p =>
        let gone := b.grants.length - (g :: l).length
        let b' : Burst := { b with prof := p, plan := b.plan.map fun (x : Plan) => { x with bodies := x.bodies.drop gone } }
        match b'.laidOut (g :: l) with
        | some b' => (none, s.updBurst c b.id fun _ => b')
        | none => (none, (s.bump c .usGrantShort (g :: l).length).dropBurst c b.id)

/-- The plan deadline of a burst (R157). -/
def doPlanDeadline (s : State) (c id : Nat) : State :=
  match (s.chan c).us.bursts.find? fun b => b.id == id && b.phase == .scheduled with
  | none => s
  | some b =>
    match s.shedPast c b with
    | (none, s) => s
    | (some b, s) => match b.kind, b.plan with
    | .data, some p =>
      if b.engines && b.planReady && s.enginesThere c then s.commit c b p false else askFallback s b
    | .data, none => askFallback s b
    | _, _ => s.commit c b { bodies := b.grants.map fun _ => [], drr := [] } false
where
  /-- The fallback planner is asked, the plan late when the engines are there. -/
  askFallback (s : State) (b : Burst) : State :=
    let s := if b.engines && s.enginesThere c then s.bump c .usPlanLate else s
    s.updBurst c b.id fun b => { b with phase := .fallbackAsked, plan := none, planReady := false, seen := s.headIds c }

/-- The fallback planner delivers (R157, R163): it plans on what the heads held at the deadline. -/
def doFallbackPlan (s : State) (c id : Nat) : State :=
  match (s.chan c).us.bursts.find? fun b => b.id == id && b.phase == .fallbackAsked with
  | none => s
  | some b =>
    let e : PlanFor := { c, frame := b.frame, fallback := true, seen := some b.seen }
    let (p, x) := planBurst e b (s.planFrom s.now)
    x.s.commit c b { p with drr := [] } true

/-- The committed wake of the upstream domain (R166). -/
def doWakeRequest (s : State) (c id : Nat) : State :=
  if (s.chan c).us.bursts.any fun b => b.id == id then
    (s.updBurst c id fun b => { b with woken := true }).requestWake 0 (usDom c)
  else s

/-! ### Assembly (R139, R140) -/

/-- The keyed segment meets its key, which is neither suspect nor erased (R299). -/
def keyGood (s : State) (c : Nat) (g : TxSeg) (slot : Nat) : Bool :=
  let r := (s.chan c).keys.us slot
  g.keyIdx == 0 || (r.live && !r.suspect)

/-- Segments that must be sent as fill: not read whole, a cell error, or a key that is gone; the frame is dropped (R273, R299). -/
def fillSeg (s : State) (c slot : Nat) (i : Nat) (faults : List (Nat × Bool)) (g : TxSeg) : TxSeg × State :=
  let drop := fun (s : State) => s.takeOut g.q (fun f => f.id == g.fid) (countDeq g.q)
  let marked := (s.queue g.q).frames.any fun f => f.id == g.fid && f.bad
  match faults.find? fun f => f.1 == i with
  | some (_, false) => ({ g with filled := true }, (drop s).bumpMem .bufUnderrunDrop)
  | some (_, true) =>
    let s := if marked then s else s.bumpMem .bufEccUncorr
    ({ g with filled := true }, (drop s).bumpMem .bufEccDrop)
  | none => if marked then ({ g with filled := true }, (drop s).bumpMem .bufEccDrop) else if s.keyGood c g slot then (g, s) else ({ g with filled := true }, (drop s).bump c .ckUsKeyFill)

/-- The faults of a burst's segments, numbered through its bodies. -/
def fillSegs (s : State) (c : Nat) (b : Burst) (faults : List (Nat × Bool)) : List (List TxSeg) × State :=
  let r := b.segs.foldl (fun (acc : List (List TxSeg) × Nat × State) body =>
    let (l, i, s) := body.foldl (fun (a : List TxSeg × Nat × State) g =>
      let (g', s) := a.2.2.fillSeg c b.keySlot a.2.1 faults g
      (a.1 ++ [g'], a.2.1 + 1, s)) ([], acc.2.1, acc.2.2)
    (acc.1 ++ [l], i, s)) ([], 0, s)
  (r.1, r.2.2)

/-- The TCM of the control field: the answer to an identity or ranging grant, or the queue's (R140, R113, R115). -/
def controlTcm (s : State) (c : Nat) (b : Burst) : Option UpEntry × State :=
  let own := fun (m : UpTcm) =>
    ((some { msg := m, seq := (s.chan c).tc.upSeq, ready := none, sent := 1, lastFrame := b.frame } : Option UpEntry),
      (s.updTc c fun t => { t with upSeq := t.upSeq + 1 }).bump c .tcTx)
  match b.kind with
  | .ident =>
    let caps := 0x1B + (if (s.chan c).cfg.dozeEn then 32 else 0) + (if (s.chan c).cfg.enc then 4 else 0)
    own (.identRsp (BitVec.ofNat 32 caps) b.rand b.epoch)
  | .range => own (.rangeRsp b.eqd ((s.feNow c).1 + (s.feNow c).2))
  | .data => if b.ctl then s.takeTcm c b.frame else (none, s)

/-- The extension word of a bonded segment (R143, R235): BOND_GRP is the LINE_ID of the channel's group; BOND_SEQ is 0 in a hashed group,
and in a sequenced one the number its spreader stored, a free value for a frame that it did not place (log 11). A frame whose channel has
left its group since goes as that group placed it (a DESIGN CHOICE; log 103). -/
def bondExt (s : State) (c : Nat) (f : Frame) : List Byte :=
  let own := match s.groupOf c, f.bond with
    | some g, _ => g
    | none, some b => b.1
    | none, none => 0
  let seq := match f.bond with
    | some b => if b.1 = own then b.2 else (Config.open64 5 f.id).toNat
    | none => (Config.open64 5 f.id).toNat
  extWord (s.bond own).lineId (if 8 < (s.bond own).members.length then 0 else seq)

/-- One segment as the cipher leaves it (R143, R282), pos being the lane word of its header. -/
def segBytes (s : State) (c : Nat) (b : Burst) (g : TxSeg) (pos : Nat) : List Byte :=
  match (s.queue g.q).frames.find? fun f => f.id == g.fid with
    | none => fillFor g.span ((Config.open64 4 g.fid).setWidth 8)
    | some f =>
      let key := if g.keyIdx = 0 then 0 else b.keySlot
      let head := segHead g.tag.toNat (f.len + (if key = 0 then 0 else 8)) key g.ext 0
      let ext := if !g.ext then [] else s.bondExt c f
      head ++ ext ++ (if key = 0 then f.bytes
        else gcmSeal ((s.chan c).keys.us key).key (segIv b.frame true pos) (head ++ ext) f.bytes)

/-- The segments of every body of a burst with their bytes, o being the data words before the bodies (R282). -/
def sealSegs (s : State) (c : Nat) (b : Burst) : List (List TxSeg) :=
  ((b.grants.zip b.segs).foldl (fun (acc : Nat × List (List TxSeg)) gs =>
    (acc.1 + gs.1.body, acc.2 ++ [(segOffsets 16 gs.2).map fun x =>
      { x.1 with bytes := s.segBytes c b x.1 (laneWord b.prof.fec b.hdrWord (acc.1 + x.2 / 16)) }])) (b.overhead, [])).2

/-- The allocation bodies of a burst in grant order (R143 to R145). -/
def burstBodies (b : Burst) : List Byte :=
  (List.range b.grants.length).flatMap fun i =>
    match b.grants[i]? with
    | none => []
    | some g =>
      if g.body = 0 then []
      else
        let room := 16 * (g.body - 1)
        let hol := b.hol.getD i false
        let segs := b.segs.getD i []
        match b.trib.find? fun t => t.1 == i with
        | some (_, bs) => allocHead g 0 0 true hol ++ Machine.slice bs 0 room
        | none =>
          let used := (segs.map (·.span)).sum
          let count := (segs.map fun x => if x.filled then fillCount x.span else 1).sum
          allocHead g used count false hol ++ segs.flatMap TxSeg.sent ++ closing (room - used)

/-- Presented time some ps from now (R139, R313). -/
def presentedAfter (s : State) (ps : Nat) : TimeVal :=
  s.domAt s.time.active (ps / 20) + ofsAfter s.time (ps / 6400)

/-- The burst header (Table 4.4). -/
def burstHead (s : State) (c : Nat) (b : Burst) (tid bseq : BitVec 16) : List Byte :=
  let t := s.presentedAfter (b.at_ b.hdrWord + b.feUs * 20 - s.now)
  let n := (b.grants.filter fun g => g.body != 0).length
  let flags := b.fallback.toNat * 16 + b.ctl.toNat * 8 + b.prof.fec.toNat * 4 + b.profIdx % 4
  let h := beBytes 2 tid.toNat ++ beBytes 2 bseq.toNat ++ beBytes 6 b.frame.toNat ++ beBytes 6 t.sec ++ beBytes 4 t.ns
    ++ [BitVec.ofNat 8 (s.pstateOf c), BitVec.ofNat 8 flags, BitVec.ofNat 8 b.reports.length, BitVec.ofNat 8 n]
    ++ beBytes 3 (b.stop - b.hdrWord) ++ zeros 33
  h ++ beBytes 4 (crc32 h).toNat

/-- The words of a burst as they leave (Table 4.1). -/
def burstBytes (b : Burst) : List Byte :=
  let rep := b.reports.flatMap Report.bytes
  let data := b.head ++ b.control ++ Machine.slice rep 0 (16 * ceilDiv rep.length 16) ++ burstBodies b
  zeros (16 * b.prof.guard) ++ preamble b.prof.prePat b.prof.preLen ++ delimiter b.prof.delim
    ++ codedRegion b.prof.fec b.frame b.hdrWord data (b.stop - b.hdrWord)

/-- The transmit lanes become active TX_LEAD before the first guard word, under the lane map and inversions then set (R394, R395). What
their scrambler registers then hold is left open: free values. -/
def activateLanes (s : State) (c : Nat) (b : Burst) : State :=
  if (s.chan c).us.txActive then s
  else
    let x := (s.chan c).cfg
    -- block 0 is a word boundary at least TX_LEAD ahead
    let t := b.at_ b.start - 160 * ceilDiv (x.txLeadNs * 1000) 160
    let regs := (List.range 4).map fun i => (Config.open64 (20 + i) s.draws).setWidth 58
    let s := { s with draws := s.draws + 1 }
    let s := (List.range 4).foldl (fun s i => s.updLane (4 * c + i) fun y => { y with
      taps := if y.tapsNext.isSome then y.tapsNext else y.taps, tapsNext := none }) s
    (s.updUs c fun u => { u with txActive := true, txSince := t, mapNow := x.txMap, invNow := x.txInv, laneBlocks := 0, laneTail := [], laneRegs := regs }).emit
      (.lanesActive c t x.txMap x.txInv)

/-- BGATE rises within the guard of a burst (R165). -/
def bgateRise (s : State) (c : Nat) (b : Burst) : Nat := b.at_ (b.start + b.prof.guard - min (s.chan c).cfg.bgLead b.prof.guard)

/-- BGATE falls after the last word of a burst (R165). -/
def bgateFall (s : State) (c : Nat) (b : Burst) : Nat := b.at_ b.stop + min (s.chan c).cfg.bgLag b.prof.guard * 160

/-- The assembly point: fill for what cannot be sent, the TCM, BSEQ, DEP_TS and BCRC; the burst is under way, and BGATE rises with it
unless an earlier burst still holds it (R139, R140, R165). Without its upstream domain the burst is not sent and its segments
return. -/
def doAssembly (s : State) (c id : Nat) (faults : List (Nat × Bool)) : State :=
  match (s.chan c).us.bursts.find? fun b => b.id == id && b.phase == .committed with
  | none => s
  | some b =>
    if !s.alive (usDom c) then (s.returnSegs b).dropBurst c id
    else
      let (segs, s) := s.fillSegs c b faults
      let (tcm, s) := s.controlTcm c b
      let tid := if b.kind = .ident then 0 else (s.chan c).tc.tid
      let b := { b with segs, tcm, phase := .underWay, head := s.burstHead c b tid (s.chan c).tc.bseq
                        control := if b.ctl then controlField c tid tcm else [] }
      let b := { b with segs := s.sealSegs c b }
      let held := !s.burstsOver c
      let s := s.activateLanes c b
      let s := s.updBurst c id fun _ => b
      let s := s.updTc c fun t => { t with bseq := t.bseq + 1 }
      if held then s else s.driveBgate c true (s.bgateRise c b)

/-! ### End of a burst (R165, R166, R168) -/

/-- Fill bytes of a burst's bodies: what closes them and what stands for segments (Table 4.9). -/
def fillBytes (b : Burst) : Nat :=
  ((List.range b.grants.length).map fun i => match b.grants[i]? with
    | none => 0
    | some g =>
      let segs := b.segs.getD i []
      if g.body = 0 ∨ b.trib.any (fun t => t.1 == i) then 0
      else 16 * (g.body - 1) - ((segs.filter fun x => !x.filled).map (·.span)).sum).sum

/-- The counters of a burst sent (R168). Only grants of data bursts count as grants without a body (R149): that an identity or ranging
grant, which never carries one, does not is a DESIGN CHOICE (log 97). -/
def countBurst (s : State) (c : Nat) (b : Burst) : State :=
  let sent := b.segs.flatten.filter fun g => !g.filled
  let add := fun (s : State) (k : ChanCtr) (n : Nat) => if n = 0 then s else s.bump c k n
  let s := (s.bump c .usBurstsTx).bump c .usWordsTx b.words
  let s := add (add (add (add s .usSegTx sent.length) .usSegBytesTx ((sent.map (·.span)).sum)) .usFillBytes (fillBytes b))
    .usReportsTx b.reports.length
  let s := add s .ckUsEncrypt ((sent.filter fun g => g.keyIdx != 0).length)
  let s := add s .usGrantRptOnly (if b.kind = .data then (b.grants.filter fun g => g.body == 0).length else 0)
  match b.kind with
  | .ident => s.bump c .tcIdentSent
  | .range => s.bump c .tcRangeSent
  | .data => s

/-- The largest body of each allocation in this frame (R153). -/
def recordBodies (s : State) (c : Nat) (b : Burst) : State :=
  (b.grants.filter fun g => g.ctx != identCtx).foldl (fun s g => s.updUs c fun u => { u with
    bodyRec := Tab.upd [] u.bodyRec g.ctx fun l =>
      let old := ((l.find? fun e => e.1 == b.frame).map (·.2)).getD 0
      ((b.frame, max old (16 * (g.body - 1))) :: l.filter fun e => e.1 != b.frame).take 1024 }) s

/-- The upstream domain goes down after a burst unless a burst or a predicted wake is near (R166). -/
def afterBurst (s : State) (c fin : Nat) : State :=
  if (s.chan c).us.bursts.any fun b => decide (b.at_ b.start < fin + 7000000) then s else s.releaseUs c

/-- The downstream domain of a sleeping channel goes down with its last burst (R432). -/
def sleepAfterBurst (s : State) (c : Nat) : State :=
  if s.asleep c && (s.chan c).us.bursts.isEmpty then s.requestRelease (dsDom c) else s

/-- BGATE at the end of a burst: it falls, and rises again for a burst under way behind it, unless the two instants leave no
time between them (R137, R165). -/
def bgateAfter (s : State) (c : Nat) (b : Burst) : State :=
  match (s.chan c).us.bursts.find? fun x => x.phase == .underWay with
  | none => s.driveBgate c false (s.bgateFall c b)
  | some x =>
    if s.bgateRise c x ≤ s.bgateFall c b then s
    else (s.driveBgate c false (s.bgateFall c b)).driveBgate c true (s.bgateRise c x)

/-- The last word of a burst has left: the whole burst has left the lanes. -/
def doBurstEnd (s : State) (c id : Nat) : State :=
  match (s.chan c).us.bursts.find? fun b => b.id == id && b.phase == .underWay with
  | none => s
  | some b =>
    let fin := b.at_ b.stop
    let s := (s.countBurst c b).recordBodies c b
    let s := (b.segs.flatten.filter fun g => !g.filled).foldl (fun s g =>
      s.takeOut g.q (fun f => f.id == g.fid) (countDeq g.q)) s
    let s := s.updUs c fun u => { u with
      bursts := u.bursts.filter fun b => b.id != id, lastEnd := max u.lastEnd fin }
    let s := (s.emit (.burst c b.frame b.start (burstSeed b.frame b.hdrWord) (burstBytes b))).sendBurst c (b.at_ b.start) (burstBytes b)
    let s := s.bgateAfter c b
    let s := if b.kind = .ident ∧ (s.chan c).tc.opened ∧ (s.chan c).tc.st = .locked then s.setState c .announced .identSent else s
    ((s.emptyUsOld c).afterBurst c fin).sleepAfterBurst c

end State

/-! ### Commands -/

def execCommittedWakeRequest (c : Chan) (b : Nat) (s : State) : Host.Outcome State Fault Refusal := .next (s.doWakeRequest c b)
def execPlanDeadline (c : Chan) (b : Nat) (s : State) : Host.Outcome State Fault Refusal := .next (s.doPlanDeadline c b)
def execFallbackPlanDelivery (c : Chan) (b : Nat) (s : State) : Host.Outcome State Fault Refusal := .next (s.doFallbackPlan c b)
def execAssemblyPoint (c : Chan) (b : Nat) (faults : List (Nat × Bool)) (s : State) : Host.Outcome State Fault Refusal :=
  .next (s.doAssembly c b faults)

end Sys2Proof.Machine
end

