-- ==== Sys2Proof/Machine/Fec.lean ====
section
/-! DEFINITION. The decoder of the RS(272,256) code (Table 2.6, R55) behind the frame descrambler (R53, R54): what the receiver makes
of a codeword as it stands on the line. -/

namespace Sys2Proof.Machine

/-! ### GF(2^8) polynomials, lowest degree first -/

/-- The inverse of a field element that is not 0. -/
def gfInv (a : Byte) : Byte :=
  let r := (List.range 6).foldl (fun r _ => gfMul (gfMul r r) a) a
  gfMul r r

/-- The value of a polynomial at a field element. -/
def gfEval (p : List Byte) (x : Byte) : Byte := p.foldr (fun c acc => c ^^^ gfMul x acc) 0

/-- Sum of two polynomials. -/
def gfAdd (p q : List Byte) : List Byte := (List.range (max p.length q.length)).map fun i => p.getD i 0 ^^^ q.getD i 0

/-- A polynomial times k x^m. -/
def gfShift (p : List Byte) (m : Nat) (k : Byte) : List Byte := List.replicate m 0 ++ p.map (gfMul k)

/-- Powers of α from α^0. -/
def gfPowers (n : Nat) : List Byte := (List.range n).map gfPow

/-! ### Decoding (R55) -/

/-- The 16 syndromes of a word: its values at α^0 to α^15, its first byte being the coefficient of the highest power (Table 2.6). -/
def rsSyndromes (w : List Byte) : List Byte := (List.range 16).map fun i => gfEval w.reverse (gfPow i)

/-- What the search for the shortest error locator carries (Berlekamp and Massey). -/
structure LocatorSearch where
  loc : List Byte := [1]
  prev : List Byte := [1]
  len : Nat := 0
  gap : Nat := 1
  prevD : Byte := 1

/-- The search takes syndrome n. -/
def LocatorSearch.take (synd : List Byte) (x : LocatorSearch) (n : Nat) : LocatorSearch :=
  let d := (List.range (x.len + 1)).foldl (fun a i => a ^^^ gfMul (x.loc.getD i 0) (synd.getD (n - i) 0)) 0
  if d = 0 then { x with gap := x.gap + 1 }
  else
    let loc := gfAdd x.loc (gfShift x.prev x.gap (gfMul d (gfInv x.prevD)))
    if 2 * x.len ≤ n then { loc, prev := x.loc, len := n + 1 - x.len, gap := 1, prevD := d }
    else { x with loc, gap := x.gap + 1 }

/-- The error values by power of x, when at most 8 errors explain the syndromes; the powers are those of 0 to 254. -/
def rsErrors (synd : List Byte) : Option (List (Nat × Byte)) :=
  let x := (List.range 16).foldl (LocatorSearch.take synd) {}
  let roots := (List.range 255).filter fun p => gfEval x.loc (gfPow ((255 - p) % 255)) == 0
  if 8 < x.len ∨ roots.length ≠ x.len then none
  else
    let omega := (List.range 16).map fun k =>
      (List.range (k + 1)).foldl (fun a i => a ^^^ gfMul (x.loc.getD i 0) (synd.getD (k - i) 0)) 0
    let slope := (List.range x.loc.length).map fun i => if i % 2 = 0 then x.loc.getD (i + 1) 0 else 0
    some (roots.map fun p =>
      let inv := gfPow ((255 - p) % 255)
      (p, gfMul (gfPow p) (gfMul (gfEval omega inv) (gfInv (gfEval slope inv)))))

/-- A codeword as the decoder leaves it: the number of byte errors, 0 clean, 1 to 8 corrected, 9 failed, and its payload, as received
when it failed (R55). -/
structure RxWord where
  errs : Nat
  payload : List Byte
  deriving DecidableEq, Repr

/-- The place of an error of power p in a word of 272 bytes. Powers 255 to 271 give the same syndromes as 0 to 16, so where one of these is
found the spec leaves open which of its two bytes is wrong. -/
def rsPlace (w : List Byte) (p : Nat) : Nat := if p < 17 ∧ Config.rsHigh w p then 271 - (p + 255) else 271 - p

/-- The decoder on a descrambled codeword (R55). -/
def rsDecode (w : List Byte) : RxWord :=
  let synd := rsSyndromes w
  if synd.all (· == 0) then { errs := 0, payload := w.take 256 }
  else match rsErrors synd with
    | none => { errs := 9, payload := w.take 256 }
    | some l => { errs := l.length, payload := (l.foldl (fun w e => w.modify (rsPlace w e.1) (· ^^^ e.2)) w).take 256 }

/-! ### The codewords of a frame -/

/-- The scrambler register some bits on (R54). -/
def scramblerAfter (n : Nat) (s : BitVec 31) : BitVec 31 := n.rec s fun _ s => (scramblerStep s).2

/-- Codeword k of a frame as received, descrambled under the register loaded at its first codeword bit (R53, R54). -/
def descramble (seed : BitVec 31) (k : Nat) (w : List Byte) : List Byte :=
  packBits (scramble (scramblerAfter (2176 * k) seed) (bitsOf (slice w 0 272)))

/-- The codewords of a frame that are not listed as received hold 256 zero bytes and are clean; the first entry of an index counts. -/
def rxWords (seed : BitVec 31) (cws : List (Nat × List Byte)) : List (Nat × RxWord) :=
  cws.foldl (fun acc w =>
    if 45952 ≤ w.1 || acc.any (fun x => x.1 == w.1) then acc else acc ++ [(w.1, rsDecode (descramble seed w.1 w.2))]) []

/-- Codewords with byte errors, by index with their number; above 8 a failed one. -/
def rxErrs (ws : List (Nat × RxWord)) : List (Nat × Nat) :=
  ws.filterMap fun w => if w.2.errs = 0 then none else some (w.1, w.2.errs)

/-- The payload of a codeword. -/
def rxPayload (ws : List (Nat × RxWord)) (k : Nat) : List Byte :=
  match ws.find? fun w => w.1 == k with
  | some w => slice w.2.payload 0 256
  | none => List.replicate 256 0

end Sys2Proof.Machine
end

