-- ==== Sys2Proof/Machine/Downstream.lean ====
section
/-! DEFINITION. Downstream reception (02_downstream_frame.md): hunt and lock (R57 to R60), use of header fields (Table 2.5, R61), the
layout and the map of a frame (R63 to R72, R589), the segment stream (R73 to R88); and with each frame what waits for it in the
terminal controller (R119 to R125), the key registers (R294, R296), the time unit (R318, R334), the tributary unit (R346, R357)
and doze (R121, R122, R431 to R433). -/

namespace Sys2Proof.Machine

/-- SYNC (Table 2.2). -/
def syncPattern : BitVec 64 := 0xB3C71E5894A26DF0#64

/-! ### Header block -/

end Sys2Proof.Machine

namespace Sys2Proof

open Machine

/-- HCRC fits (Table 2.2). -/
def FrameHdr.hcrcGood (h : FrameHdr) : Bool := h.hcrc == crc16 (beBytes 6 h.sfc.toNat ++ beBytes 2 h.hflags.toNat)
/-- LCRC fits. -/
def FrameHdr.lcrcGood (h : FrameHdr) : Bool :=
  h.lcrc == crc8 (beBytes 2 h.mapLen.toNat ++ beBytes 2 h.mapStart.toNat ++ [h.profEpoch])
/-- TRIB_CRC fits (Table 2.11). -/
def FrameHdr.tribGood (h : FrameHdr) : Bool :=
  h.tribCrc == crc32 (beBytes 2 h.tribStart.toNat ++ beBytes 2 h.tribSlots.toNat ++ [h.tribPage] ++ h.tribRsv)
/-- SYNC matches exactly and HCRC is good: no bad frame (R60). -/
def FrameHdr.good (h : FrameHdr) : Bool := h.sync == syncPattern && h.hcrcGood
/-- TREE_TAG (Table 2.3). -/
def FrameHdr.treeTag (h : FrameHdr) : BitVec 12 := h.hflags.setWidth 12
/-- MAP_LEN, MAP_START and PROF_EPOCH. -/
def FrameHdr.map (h : FrameHdr) : MapFields := { len := h.mapLen.toNat, start := h.mapStart.toNat, epoch := h.profEpoch }
/-- The tributary descriptor. -/
def FrameHdr.trib (h : FrameHdr) : TribDesc :=
  { start := h.tribStart.toNat, slots := h.tribSlots.toNat, nextPage := h.tribPage.getLsbD 1, activePage := h.tribPage.getLsbD 0 }

end Sys2Proof

namespace Sys2Proof.Machine

/-- The value plus a count of frames. -/
def sfcAdd (n : BitVec 48) (k : Nat) : BitVec 48 := n + BitVec.ofNat 48 k

/-- A frame that passes HCRC is an SFC discontinuity: its SFC is not the expected counter (R61). -/
def ChanRx.discont (r : ChanRx) (h : FrameHdr) : Bool :=
  h.hcrcGood && r.lastGood.any fun g => h.sfc != sfcAdd g (r.sinceGood + 1)
/-- The alignment flag after the header check of a frame in LOCK (R61). -/
def ChanRx.alignedAfter (r : ChanRx) (h : FrameHdr) : Bool :=
  if r.discont h then false
  else if h.hcrcGood then r.aligned || r.prevSfc.any fun p => h.sfc == p + 1
  else r.aligned
/-- The SFC that Table 2.5 assigns to a frame. -/
def ChanRx.sfcFor (r : ChanRx) (h : FrameHdr) : Option (BitVec 48) :=
  if h.hcrcGood then some h.sfc else if r.aligned then r.prevSfc.map (· + 1) else none
/-- What the receiver keeps of a header in LOCK. -/
def ChanRx.takeHdr (r : ChanRx) (h : FrameHdr) : ChanRx := { r with
  badFrames := if h.good then 0 else r.badFrames + 1
  aligned := r.alignedAfter h
  lastGood := if h.hcrcGood then some h.sfc else r.lastGood
  sinceGood := if h.hcrcGood then 0 else r.sinceGood + 1
  prevSfc := r.sfcFor h
  lastMap := if h.lcrcGood then some h.map else r.lastMap
  lastTrib := if h.tribGood then some h.trib else r.lastTrib
  treeTag := if h.hcrcGood then some h.treeTag else r.treeTag
  tagLock := r.tagLock || h.hcrcGood
  timeHold := if h.hcrcGood then h.hflags.getLsbD 15 else r.timeHold }
/-- The receiver in HUNT with no candidates (Table 2.7, R60); what it reports of its tree stays. -/
def ChanRx.unlock (r : ChanRx) : ChanRx := { r with
  lock := false, aligned := false, candidates := [], badFrames := 0, lastGood := none, sinceGood := 0, prevSfc := none
  lastMap := none, lastTrib := none, cur := none, tagLock := false }
/-- The receiver in LOCK, the frame before having this SFC (R59, R61). -/
def ChanRx.enterLock (r : ChanRx) (prev : BitVec 48) : ChanRx := { r.unlock with lock := true, prevSfc := some prev }

/-! ### Regions of a frame (R63, R64, R70, R72, R73) -/

/-- Codewords of a map (R63). -/
def MapFields.words (m : MapFields) : Nat := if m.len = 0 then 0 else ceilDiv (8 * m.len + 4) 256
/-- The frame has a layout error (R72). -/
def layoutErr (m : MapFields) (t : TribDesc) : Bool :=
  (m.len != 0 && decide (45951 < m.start)) || (m.len != 0 && decide (45952 < m.start + m.words))
    || decide (2048 < t.slots) || (t.slots != 0 && decide (45952 < t.start + t.slots))
    || (m.len != 0 && t.slots != 0 && decide (m.start < t.start + t.slots) && decide (t.start < m.start + m.words))
/-- The map is misplaced (R64). -/
def MapFields.misplaced (m : MapFields) : Bool := decide (8192 < m.len) || decide (999 < m.start + m.words - 1)

namespace CurFrame

/-- The regions excluded from the segment stream, first codeword and the one after the last, in order (R73). -/
def excluded (f : CurFrame) : List (Nat × Nat) :=
  let m := (f.map.start, f.map.start + f.map.words)
  let t := (f.trib.start, f.trib.start + f.trib.slots)
  let l := (if f.map.len = 0 then [] else [m]) ++ (if f.trib.slots = 0 then [] else [t])
  match l with
  | [a, b] => if a.1 < b.1 then [a, b] else [b, a]
  | l => l

/-- Bytes of the segment stream. -/
def length (f : CurFrame) : Nat := 256 * (45952 - (f.excluded.map fun r => r.2 - r.1).sum)

/-- The stream positions at which a region is left out. -/
def walls (f : CurFrame) : List Nat :=
  (f.excluded.foldl (fun (acc : Nat × List Nat) r => (acc.1 + (r.2 - r.1), acc.2 ++ [256 * (r.1 - acc.1)])) (0, [])).2

/-- The first wall after a stream position, or the end of the frame (R75). -/
def edgeAfter (f : CurFrame) (p : Nat) : Nat := ((f.walls.filter fun w => decide (p < w)).foldl min f.length)

/-- Codewords of the stream that failed, by their place in it (R87). -/
def failed (f : CurFrame) : List Nat :=
  (f.cwErrs.filter fun e => decide (8 < e.2) && !f.excluded.any fun r => decide (r.1 ≤ e.1) && decide (e.1 < r.2)).map fun e =>
    e.1 - (f.excluded.filter fun r => decide (r.2 ≤ e.1)).foldl (fun n r => n + (r.2 - r.1)) 0

/-- The first failed codeword with a byte in a stretch of the stream. -/
def failedIn (f : CurFrame) (a b : Nat) : Option Nat :=
  (f.failed.filter fun w => decide (256 * w < b) && decide (a < 256 * (w + 1))).min?

end CurFrame

/-! ### Segment headers (Table 2.12) -/

/-- A segment header. -/
structure SegHdr where
  tag : BitVec 16
  len : Nat
  key : Nat
  ext : Bool
  type : Nat
  rsv : Nat
  good : Bool
  deriving DecidableEq, Repr

/-- The 8 bytes of a segment header. -/
def segHdr (b : List Byte) : SegHdr :=
  let v := beVal (slice b 0 8)
  { tag := BitVec.ofNat 16 (v >>> 48), len := (v >>> 34) % 16384, key := (v >>> 32) % 4, ext := (v >>> 31) % 2 == 1
    type := (v >>> 28) % 8, rsv := (v >>> 16) % 4096, good := v % 65536 == (crc16 (slice b 0 6)).toNat }

/-- The span of a segment (R74). -/
def SegHdr.span (h : SegHdr) : Nat := if h.type = 2 then 8 + h.len else 8 + (if h.ext then 8 else 0) + h.len

/-- The first codeword boundary at or after a position. -/
def boundaryAt (p : Nat) : Nat := 256 * ceilDiv p 256

/-- Where the segment after one at p begins (R74). -/
def SegHdr.next (h : SegHdr) (p : Nat) : Nat := if h.type = 2 ∧ h.len = 0 then boundaryAt (p + 8) else p + h.span

/-- A search accepts this header at p (R88). -/
def SegHdr.found (h : SegHdr) (f : CurFrame) (p : Nat) : Bool :=
  h.good && h.rsv == 0 && decide (h.type < 3) && decide (h.next p ≤ f.edgeAfter p)

/-- A search over the bytes that stand at p: the position it accepts, or where it goes on (R88); n bounds the offsets. A header that
would reach into a failed codeword counts as entering it: the search goes on behind that codeword (a DESIGN CHOICE; log 96). -/
def searchSeg (f : CurFrame) : Nat → Nat → List Byte → Nat × Bool
  | 0, p, _ => (p, true)
  | n + 1, p, bs =>
    if f.length ≤ p then (f.length, false)
    else if bs.length < 8 then (p, true)
    else match f.failedIn p (p + 8) with
      | some w => searchSeg f n (256 * (w + 1)) (bs.drop (256 * (w + 1) - p))
      | none => if (segHdr bs).found f p then (p, false) else searchSeg f n (p + 1) (bs.drop 1)

namespace State

/-! ### Loss of lock or alignment (R60, Table 3.3) -/

/-- What a return from HOLDOVER is tested with, as the receiver stands (R124, R125). -/
def holdInfo (s : State) (c : Nat) : HoldInfo :=
  let r := (s.chan c).rx
  { tag := r.treeTag, sfc := r.prevSfc.getD 0, tds := (r.cur.map (·.tds)).getD s.now, since := s.now }

/-- The terminal controller loses frame lock or multiframe alignment, or FELOScc asserts (Table 3.3). -/
def syncLost (s : State) (c : Nat) (h : HoldInfo) : State :=
  if !(s.chan c).tc.opened then s
  else match (s.chan c).tc.st with
    | .locked | .announced | .ranging => s.toListen c .lockLost
    | .watch | .doze => s.enterHoldover c h
    | _ => s

/-- The map of the frame in progress is not used; the hand-off no longer waits for it. -/
def dropMap (s : State) (c : Nat) : State := match (s.chan c).rx.cur with
  | some f => if f.phase = .awaited then s.noMap c f.sfc else s
  | none => s

/-- The receiver leaves LOCK (R60): the payload in progress is discarded. -/
def loseLock (s : State) (c : Nat) (h : HoldInfo) : State :=
  let s := (s.dropMap c).bump c .dsFrameLockLoss
  (s.updRx c ChanRx.unlock).syncLost c h

/-- The lanes lose alignment or FELOScc asserts: the receiver leaves LOCK, or hunting stops with no candidates (R60). -/
def lineLost (s : State) (c : Nat) : State :=
  let h := s.holdInfo c
  if (s.chan c).rx.lock then s.loseLock c h else s.updRx c ChanRx.unlock

/-! ### Doze (R121, R122, R431 to R433) -/

/-- The frame of a doze is in an awake multiframe (R121). -/
def awakeAt (start n : BitVec 48) (k : Nat) : Bool := ((n - start).toNat / 8) % max 1 k == 0

/-- The channel goes to sleep at the start of frame n: the doze record is saved, the receiver stands still, and the downstream
domain goes down with the last burst (R431, R432). -/
def goToSleep (s : State) (c k : Nat) (start n : BitVec 48) : State :=
  let h := s.holdInfo c
  let next := sfcAdd start (8 * k * ((n - start).toNat / 8 / max 1 k + 1))
  let d : DozeInfo := { k, start, awake := false, nextSfc := next, nextTds := h.tds + (next - h.sfc).toNat * 125000000
                        early := false, recSfc := h.sfc, recTds := h.tds, recTag := h.tag }
  let s := s.updTc c fun t => { t with st := .doze, doze := some d, sleepAt := none }
  let s := (s.updRx c ChanRx.unlock).trigFree c
  if (s.chan c).us.bursts.isEmpty then s.requestRelease (dsDom c) else s

/-- DOZE ends in WATCH (R123). -/
def endDoze (s : State) (c : Nat) : State := s.updTc c fun t => { t with
  st := .watch, doze := none, sleepAt := none, wakeNext := false }

/-- DOZE_LEAD before an awake multiframe the downstream domain is woken (R431). -/
def doDozeWake (s : State) (c : Nat) : State :=
  if s.operating c && s.asleep c then s.requestWake 0 (dsDom c) else s

/-- Idleness under AUTO asks for doze (R430). -/
def doDozeIdle (s : State) (c : Nat) : State :=
  let x := s.chan c
  let busy := (List.range 128).any (fun l => !(s.queue (128 * c + l)).frames.isEmpty)
    || s.trib.streams.any fun t => t.2.en && t.2.chan == c
  if x.tc.opened && x.tc.st == .watch && x.cfg.dozeAuto && !busy then s.queueTcm c (.sleepReq x.cfg.kReq 2) none else s

/-! ### What waits for a frame -/

/-- The latest of the values whose frame has come. -/
def latestDue {α : Type} (n : BitVec 48) (l : List (BitVec 48 × α)) : Option α :=
  ((l.filter fun e => decide (0 ≤ sfcDiff n e.1)).foldl (fun (acc : Option (BitVec 48 × α)) e => match acc with
    | some a => if sfcDiff e.1 a.1 < 0 then acc else some e
    | none => some e) none).map (·.2)

/-- The channel enters OPERATING (WATCH): the active page is adopted anew (R355). -/
def enterWatch (s : State) (c : Nat) (x : Cause) : State := (s.updTrib c fun t => { t with adopted := false }).setState c .watch x

/-- Values of the terminal context that apply from frame n (R78, R106, R119, R120, R315). -/
def takeDue (s : State) (c : Nat) (n : BitVec 48) (tds : Nat) : State :=
  let late := fun {α : Type} (l : List (BitVec 48 × α)) => l.filter fun e => decide (sfcDiff n e.1 < 0)
  let t := (s.chan c).tc
  let ranged := t.eqdNext.any fun e => decide (0 ≤ sfcDiff n e.1)
  let start := s.laneInstant c tds
  let s := s.updTc c fun t => { t with
    eqd := (latestDue n t.eqdNext).getD t.eqd
    eqdNext := late t.eqdNext
    allocs := (latestDue n t.allocNext).getD t.allocs
    allocNext := late t.allocNext
    flows := match t.flowNext with
      | some f => if 0 ≤ sfcDiff n f.frame then f.flows else t.flows
      | none => t.flows
    flowNext := t.flowNext.filter fun f => decide (sfcDiff n f.frame < 0)
    feOld := t.feOld.filter fun o => decide (start < o.2.2)
    announceCur := match t.announceNext with
      | some a => some a
      | none => t.announceCur
    annSeenAt := if t.announceNext.isSome then tds else t.annSeenAt
    annBad := t.annBad && t.announceNext.isNone
    announceNext := none }
  if ranged && (s.chan c).tc.opened && (s.chan c).tc.st == .ranging then s.enterWatch c .ranged else s

/-- The frame that first holds lock and alignment again in HOLDOVER is tested (R125). -/
def holdReturn (s : State) (c : Nat) (n : BitVec 48) (tds : Nat) : State :=
  match (s.chan c).tc.hold with
  | none => s
  | some h =>
    let want := sfcAdd h.sfc ((tds - h.tds + 62500000) / 125000000)
    let d := sfcDiff n want
    let ok := (s.chan c).rx.treeTag == h.tag && decide (-1 ≤ d) && decide (d ≤ 1)
    let s := s.updTc c fun t => { t with hold := none }
    if ok then (s.enterWatch c .returned).chanCondition c 3 ((tds - h.since) / 1000000)
    else (s.bump c .tcHoldFail).toListen c .returnFailed

/-- The terminal controller at a frame in LOCK and aligned; whether the frame's map may be used (R95, R123, R125). -/
def termFrame (s : State) (c : Nat) (n : BitVec 48) (tds : Nat) : State × Bool :=
  let t := (s.chan c).tc
  if !t.opened || !s.synced c then (s, true)
  else match t.st with
    | .listen => (s.tryLocked c, true)
    | .holdover => (s.holdReturn c n tds, false)
    | .doze => (if t.wakeNext || t.doze.any (·.early) then s.endDoze c else s, true)
    | .watch => match t.sleepAt with
      | some (start, k) =>
        if 0 ≤ sfcDiff n start then
          (s.updTc c fun t => { t with
            st := .doze, sleepAt := none
            doze := some ({ k, start, awake := true, nextSfc := n, nextTds := tds, early := false
                            recSfc := n, recTds := tds, recTag := (s.chan c).rx.treeTag } : DozeInfo) }, true)
        else (s, true)
      | none => (s, true)
    | _ => (s, true)

/-! ### A frame in LOCK -/

/-- Signal degrade over the last 8,000 frames (Table 3.9, code 0x0001). -/
def sdTest (s : State) (c corrected : Nat) : State :=
  let s := s.updRx c fun r => { r with sdHist := (corrected :: r.sdHist).take 8000 }
  let total := (s.chan c).rx.sdHist.sum
  let th := (s.chan c).cfg.sdThresh
  let on := s.alarmOpen 0x2001 1 c
  if th != 0 && decide (th < total) then (if on then s else s.raiseChan c 1 (min total 4294967295))
  else if on then s.clearChan c 1 (min total 4294967295) else s

/-- Codewords decoded (R55). -/
def countWords (s : State) (c : Nat) (errs : List (Nat × Nat)) : State :=
  let fixed := errs.filter fun e => decide (e.2 ≤ 8)
  let s := (s.bump c .dsCwDecoded 45952).bump c .dsCwCorrected fixed.length
  (s.bump c .dsBytesCorrected (fixed.map (·.2)).sum).bump c .dsCwFailed (errs.length - fixed.length)

/-- Tests 2 to 4 of R589, from the header block. A map that R125 makes unusable is tested all the same. -/
def mapTests (s : State) (c : Nat) (n : BitVec 48) (tds : Nat) (m : MapFields) (lcrc usable : Bool) : State :=
  if !lcrc then s.noMap c n
  else if m.len = 0 then if usable then s.handOff c n tds m.epoch [] else s.noMap c n
  else if m.misplaced then (s.bump c .dsMapPlaceErr).noMap c n
  else if !(s.chan c).tc.epochs.any fun e => e.num == m.epoch && e.complete then (s.bump c .dsMapEpochMiss).noMap c n
  else s.updRx c fun r => { r with cur := r.cur.map fun f => { f with phase := .awaited, usable := usable } }

/-- The slots of a frame by its descriptor (R70), from its decoded codewords. -/
def frameSlots (ws : List (Nat × RxWord)) (t : TribDesc) : List (Nat × Bool × List Byte) :=
  (List.range t.slots).map fun i =>
    (i, (rxErrs ws).any (fun e => e.1 == t.start + i && decide (8 < e.2)), rxPayload ws (t.start + i))

/-- The key registers, the time unit and the tributary unit at frame n of a channel that is OPERATING (R294, R318, R334, R346,
R357). -/
def frameUnits (s : State) (c : Nat) (n : BitVec 48) (f : DsFrame) (ws : List (Nat × RxWord))
    (payload : Bool) (t : Option TribDesc) : State :=
  let s := ((s.emptyRetired c n).applySwitches c n).emptyUsOld c
  if !s.operating c then s
  else
    let s := if f.hdr.hcrcGood then s.measure c n f.off20 (s.chan c).rx.timeHold else s
    let s := if n.toNat % 8 = 0 ∧ s.synced c then
        let b := (s.arrivalDelay c).map fun d => s.presentedAt f.off20 - onPs20 d
        let s := match b with
          | some x => s.trigBoundary c x (s.presentedAt f.off20)
          | none => s
        s.tribBoundary c n b
      else s
    let s := if f.hdr.tribGood then s.tribDesc c n f.hdr.trib else s
    let s := s.updTrib c fun x => if x.armed then { x with seen := x.seen + 1 } else x
    let s := match t with
      | some d => if payload then s.passSlots c n (frameSlots ws d) else s
      | none => s
    -- upstream frame m has wholly left by the T_ds of frame n
    s.holTicks c (n - BitVec.ofNat 48 (1 + ceilDiv (s.laneInstant c 0) 125000000))

/-- Frame n begins in LOCK: its codewords are descrambled and decoded under the counter that Table 2.5 assigns (R53 to R55). -/
def frameBegins (s : State) (c : Nat) (n : BitVec 48) (tds : Nat) (f : DsFrame) : State :=
  let r := (s.chan c).rx
  let bad := match r.lastMap, r.lastTrib with
    | some m, some t => if layoutErr m t then some ChanCtr.dsLayoutErr else none
    | _, _ => some ChanCtr.dsFrameDiscard
  let s := match bad with
    | some k => s.bump c k
    | none => s
  let m := r.lastMap.getD { len := 0, start := 0, epoch := 0 }
  let t := r.lastTrib.getD { start := 0, slots := 0, nextPage := false, activePage := false }
  let ws := rxWords (scramblerSeed n) f.cws
  let cur : CurFrame := { sfc := n, tds, payload := bad.isNone, phase := .none, usable := true, map := m, trib := t, cwErrs := rxErrs ws
                          pos := 0, searching := false }
  let s := s.updRx c fun r => { r with cur := some cur, seed := scramblerSeed n }
  let s := s.takeDue c n tds
  let (s, usable) := s.termFrame c n tds
  let s := s.frameUnits c n f ws bad.isNone r.lastTrib
  let s := s.sdTest c (if bad.isNone then ((rxErrs ws).filter fun e => decide (e.2 ≤ 8)).length else 0)
  if bad.isSome then s.noMap c n
  else (s.countWords c (rxErrs ws)).mapTests c n tds m f.hdr.lcrcGood usable

/-- A frame received in LOCK (R51, R60, R61). -/
def lockFrame (s : State) (c : Nat) (f : DsFrame) (tds : Nat) : State :=
  let h := f.hdr
  let r := (s.chan c).rx
  let hold := s.holdInfo c
  let s := s.bump c .dsFramesRx
  let s := if h.hcrcGood then s else s.bump c .dsHdrCrcErr
  let s := if h.lcrcGood then s else s.bump c .dsLcrcErr
  let s := if h.tribGood then s else s.bump c .dsTribDescCrcErr
  let s := s.odcPass c tds h.odc
  let s := s.updRx c fun r => r.takeHdr h
  let s := match r.treeTag with
    | some old => if r.tagLock && h.hcrcGood && old != h.treeTag then
        (s.bump c .dsTreeTagChange).chanEvent c 0x2016 0 (det2 old.toNat h.treeTag.toNat) else s
    | none => s
  let s := if r.discont h then s.bump c .dsSfDiscont else s
  let s := if r.discont h || (h.hcrcGood && r.lastGood.isNone) then s.suspectTest c h.sfc else s
  -- the fourth consecutive bad frame ends LOCK once its header has been checked (R60)
  if !h.good && decide (3 ≤ r.badFrames) then s.loseLock c hold
  else
    let s := if r.aligned && !r.alignedAfter h then s.syncLost c hold else s
    match r.sfcFor h with
    | none => (s.bump c .dsFrameDiscard).updRx c fun r => { r with cur := none }
    | some n => (s.noteHigh c n).frameBegins c n tds f

/-- The first frame of an awake multiframe, or of an early wake, meets its prediction (R122, R432). -/
def dozeFrame (s : State) (c : Nat) (d : DozeInfo) (f : DsFrame) (tds : Nat) : State :=
  if tds + 62500000 < d.nextTds then s
  else
    let there := s.alive (dsDom c) && (s.chan c).rx.lanesUp && !(s.chan c).rx.felos && f.hdr.good
      && decide (tds ≤ d.nextTds + 1000000) && decide (d.nextTds ≤ tds + 1000000)
    let lock := fun (s : State) => s.updRx c fun r => r.enterLock (f.hdr.sfc - 1)
    if there && f.hdr.sfc == d.nextSfc then
      ((lock s).updTc c fun t => { t with doze := some { d with awake := true } }).lockFrame c f tds
    else
      let s := (s.bump c .tcDozeWakeFail).enterHoldover c { tag := d.recTag, sfc := d.recSfc, tds := d.recTds, since := s.now }
      -- nothing is sent in what is left of the multiframe (R122)
      let s := s.updTc c fun t => { t with mute := some (d.nextSfc ||| 7) }
      let s := s.requestWake 0 (dsDom c)
      if there then (s.updRx c fun r => { r.unlock with lock := true }).lockFrame c f tds else s

/-- A frame at the position that lock established, or at the one that a doze predicts. Outside the awake multiframes nothing is
received (R121). -/
def doFrame (s : State) (c : Nat) (f : DsFrame) : State :=
  let tds := s.now + f.off20 * 20
  let x := s.chan c
  if !x.tc.opened then s
  else match x.tc.st, x.tc.doze with
    | .doze, some d =>
      if !d.awake then s.dozeFrame c d f tds
      else if !s.alive (dsDom c) || !x.rx.lock then s
      else match x.rx.sfcFor f.hdr with
        | some n =>
          if !x.rx.discont f.hdr && !awakeAt d.start n d.k && !d.early && !x.tc.wakeNext then s.goToSleep c d.k d.start n
          else s.lockFrame c f tds
        | none => s.lockFrame c f tds
    | _, _ =>
      if !s.alive (dsDom c) || !x.rx.lock then s
      else match x.tc.sleepAt, x.rx.sfcFor f.hdr with
        | some (start, k), some n =>
          if x.tc.st == .watch && !x.rx.discont f.hdr && decide (0 ≤ sfcDiff n start) && !awakeAt start n k then s.goToSleep c k start n
          else s.lockFrame c f tds
        | _, _ => s.lockFrame c f tds

/-! ### Hunt (R57 to R59) -/

/-- The receiver hunts: in HUNT, all lanes aligned, FELOScc deasserted, and not between the frames of a doze (R60, R432). -/
def hunting (s : State) (c : Nat) : Bool :=
  let r := (s.chan c).rx
  (s.chan c).tc.opened && s.alive (dsDom c) && !r.lock && r.lanesUp && !r.felos && !s.asleep c

/-- SYNC at a block position (R57). A match at a position already tracked starts no candidate, and is not counted in
DS_HUNT_OVERFLOW while eight are tracked (a DESIGN CHOICE: Table 2.15 says matches seen while 8 were tracked; log 96). -/
def doSyncMatch (s : State) (c pos : Nat) (bits : BitVec 64) : State :=
  let r := (s.chan c).rx
  if !s.hunting c || bits != syncPattern || r.candidates.any (fun k => k.pos == pos) then s
  else if 8 ≤ r.candidates.length then s.bump c .dsHuntOverflow
  else (s.updRx c fun r => { r with candidates := r.candidates ++ [{ pos, hits := 0, sfc := 0 }] }).bump c .dsHuntCandidates

/-- A candidate at its expected position (R58, R59). -/
def doCandidate (s : State) (c pos : Nat) (f : DsFrame) : State :=
  if !s.hunting c then s
  else match (s.chan c).rx.candidates.find? fun k => k.pos == pos with
    | none => s
    | some k =>
      let others := fun (r : ChanRx) => r.candidates.filter fun x => x.pos != pos
      if !f.hdr.good then (s.updRx c fun r => { r with candidates := others r }).bump c .dsHuntExpired
      else if k.hits = 0 then
        s.updRx c fun r => { r with candidates := r.candidates.map fun x =>
          if x.pos == pos then { x with hits := 1, sfc := f.hdr.sfc } else x }
      else (s.updRx c fun r => r.enterLock k.sfc).lockFrame c f (s.now + f.off20 * 20)

/-! ### The grant map (R65 to R68, R589) -/

/-- The map of the frame in progress has been decoded. -/
def doMapHandOff (s : State) (c : Nat) (entries : List (BitVec 64)) (crc : BitVec 32) : State :=
  match (s.chan c).rx.cur with
  | none => s
  | some f =>
    if f.phase ≠ .awaited then s
    else
      let s := s.updRx c fun r => { r with cur := r.cur.map fun f => { f with phase := .done } }
      let es := (List.range f.map.len).map fun i => entries.getD i 0
      let fecBad := f.cwErrs.any fun e => decide (8 < e.2) && decide (f.map.start ≤ e.1) && decide (e.1 < f.map.start + f.map.words)
      if fecBad then (s.bump c .dsMapFecDiscard).noMap c f.sfc
      else if crc ≠ crc32 (es.flatMap fun e => beBytes 8 e.toNat) then (s.bump c .dsMapCrcErr).noMap c f.sfc
      else
        let s := s.bump c .dsMapRx
        let good := es.filter parityOk
        let s := s.bump c .dsMapParityErr (es.length - good.length)
        let own := good.filterMap (s.addressed c f.sfc)
        let s := s.bump c .dsMapOwnEntries own.length
        if f.usable then s.handOff c f.sfc f.tds f.map.epoch own else s.noMap c f.sfc

/-! ### Segments (R76 to R88) -/

/-- Where an accepted segment goes (Table 2.14): to the terminal controller, to the slice as broadcast, or as a flow's. -/
inductive SegDest where
  | ctrl
  | bcast
  | flow (ctx : Nat) (unicast : Bool)
  deriving DecidableEq, Repr

/-- Acceptance by terminal state (Table 2.14). A data segment whose tag is held without the downstream flag is foreign (a DESIGN
CHOICE: Table 2.14 names the flow table only; log 96). -/
def segDest (s : State) (c : Nat) (h : SegHdr) : Option SegDest :=
  if !(s.chan c).tc.opened then none
  else if h.type = 1 then (if s.ctrlAccepted c h.tag then some .ctrl else none)
  else if !s.operating c then none
  else if h.tag = 0xFFFF then (if (s.chan c).cfg.bcast then some .bcast else none)
  else if h.tag = 0xFFFE then none
  else match (s.chan c).tc.flows.find? fun p => p.2.any fun f => f.down && f.tag == h.tag with
    | some (ctx, some f) => some (.flow ctx f.unicast)
    | _ => none

/-- The key indices a segment may carry (R79). -/
def keyFits (d : SegDest) (h : SegHdr) : Bool := match d with
  | .ctrl => if h.tag = 0xFFFE then h.key == 0 || h.key == 3 else h.key != 3
  | .bcast => h.key == 0 || h.key == 3
  | .flow _ u => if u then h.key == 1 || h.key == 2 else h.key == 0

/-- Tests 7 to 9 of R84 and delivery; a bonded segment that fails here or later leaves a skip token (R242). -/
def deliverSeg (s : State) (c pos : Nat) (n : BitVec 48) (d : SegDest) (h : SegHdr) (bs : List Byte) (seq : Option Nat) : State :=
  let ctx := match d with
    | .flow x _ => x
    | _ => 0
  let token := fun (s : State) => if seq.isSome then s.skipToken c ctx seq else s
  let reg := (s.chan c).keys.ds h.key
  let off := 8 + (if h.ext then 8 else 0)
  let size := if h.key = 0 then h.len else h.len - 8
  let sizeOk := decide (if h.key = 0 then True else 8 ≤ h.len) &&
    (if d = .ctrl then decide (8 ≤ size) && decide (size ≤ 48) else decide (14 ≤ size) && decide (size ≤ 16379))
  if !keyFits d h then token (s.bump c .dsSegKeyPolicy)
  else if h.key ≠ 0 ∧ !reg.live then token (s.bump c .dsSegKeyAbsent)
  else if !sizeOk then token (s.bump c .dsSegSizeErr)
  else
    let body := Machine.slice bs off h.len
    let plain := if h.key = 0 then some body else gcmOpen reg.key (segIv n false pos) (Machine.slice bs 0 off) body
    match plain with
    | none => token (s.bump c .ckDsAuthFail)
    | some p =>
      let s := if h.key = 0 then s else s.bump c .ckDsDecryptOk
      let suspect := h.key != 0 && reg.suspect
      let s := if suspect then s.bump c .ckDsSuspect else s
      if d = .ctrl then (s.bump c .dsSegCtrlOk).tcmBytes c h.tag p n
      else
        let s := (s.bump c (if d = .bcast then .dsSegBcastOk else .dsSegDataOk)).bump c .dsSegDataBytes size
        -- padded to 60 bytes before delivery (R81)
        s.classifyLine { src := c, flowCtx := ctx, flowTag := h.tag.toNat
                         keyx := 4 * h.key + (if d = .bcast then 2 else 0) + suspect.toNat
                         bytes := p ++ List.replicate (60 - p.length) 0 } seq

/-- Tests 4 to 6 of R84. -/
def acceptSeg (s : State) (c pos : Nat) (n : BitVec 48) (h : SegHdr) (bs : List Byte) : State :=
  if h.len = 0 then s.bump c .dsSegEmpty
  else match s.segDest c h with
    | none => s.bump c .dsSegForeign
    | some d =>
      let w := Machine.slice bs 8 8
      let crcOk := beVal (w.drop 6) == (crc16 (w.take 6)).toNat
      let group := match d with
        | .flow x _ => s.bondedFlow c x
        | _ => none
      let extBad := h.ext && (d == .ctrl || !crcOk || match group with
        | some g => (w.getD 0 0).toNat != (s.bond g).lineId
        | none => false)
      if extBad then s.bump c .dsSegExtErr
      else s.deliverSeg c pos n d h bs (if h.ext && group.isSome then some (beVal ((w.drop 1).take 3)) else none)

/-- A search begins at a position of the stream (R86, R87), over what the command supplies of it. -/
def beginSearch (s : State) (c : Nat) (f : CurFrame) (bs : List Byte) (at_ : Nat) : State :=
  let (p, on) := searchSeg f (bs.length + 1) at_ (bs.drop (at_ - f.pos))
  (s.bump c .dsSegResync).updRx c fun r => { r with cur := r.cur.map fun x => { x with pos := p, searching := on } }

/-- The parse of one segment at the parser's position (R86 to R88); the command supplies the bytes of the stream from there. Two
DESIGN CHOICES (log 96): segments are parsed and counted whatever the terminal state, also in HOLDOVER and in LISTEN, where none
is received (Table 2.14); and a segment that runs through several failed codewords resumes where the first of them says (R87). -/
def doSegment (s : State) (c : Nat) (bs : List Byte) : State :=
  match (s.chan c).rx.cur with
  | none => s
  | some f =>
    if !f.payload || !(s.chan c).tc.opened || !s.alive (dsDom c) || decide (f.length ≤ f.pos) then s
    else
      let goTo := fun (s : State) (p : Nat) => s.updRx c fun r => { r with cur := r.cur.map fun x => { x with pos := p } }
      if f.searching then
        let (p, on) := searchSeg f (bs.length + 1) f.pos bs
        s.updRx c fun r => { r with cur := r.cur.map fun x => { x with pos := p, searching := on } }
      else
        let h := segHdr bs
        let edge := f.edgeAfter f.pos
        let fin := f.pos + h.span
        if !h.good then (s.bump c .dsSegHdrCrcErr).beginSearch c f bs (boundaryAt (f.pos + 1))
        else match f.failedIn f.pos (min fin f.length) with
          | some w =>
            let s := s.bump c .dsSegFecDiscard
            -- the header is intact and places the end of its segment after the failed codeword (R87)
            if f.pos + 8 ≤ 256 * w ∧ 256 * (w + 1) ≤ fin then goTo s (min fin f.length)
            else s.beginSearch c f bs (256 * (w + 1))
          | none =>
            if edge < fin then goTo (s.bump c .dsSegOverrun) edge
            else
              let s := goTo s (h.next f.pos)
              if h.type = 2 then s.bump c .dsSegFill
              else if 2 < h.type then s.bump c .dsSegTypeErr
              else s.acceptSeg c f.pos f.sfc h bs

end State

/-! ### Commands -/

def execSyncMatch (c : Chan) (pos : Nat) (bits : BitVec 64) (s : State) : Host.Outcome State Fault Refusal :=
  .next (s.doSyncMatch c pos bits)
def execCandidateCheck (c : Chan) (pos : Nat) (f : DsFrame) (s : State) : Host.Outcome State Fault Refusal :=
  .next (s.doCandidate c pos f)
def execDownstreamFrame (c : Chan) (f : DsFrame) (s : State) : Host.Outcome State Fault Refusal := .next (s.doFrame c f)
def execMapHandOff (c : Chan) (es : List (BitVec 64)) (crc : BitVec 32) (s : State) : Host.Outcome State Fault Refusal :=
  .next (s.doMapHandOff c es crc)
def execDozeWake (c : Chan) (s : State) : Host.Outcome State Fault Refusal := .next (s.doDozeWake c)
def execDozeIdle (c : Chan) (s : State) : Host.Outcome State Fault Refusal := .next (s.doDozeIdle c)

end Sys2Proof.Machine
end

