-- ==== Sys2Proof/Machine/HostPorts.lean ====
section
/-! DEFINITION. Host Ethernet ports (11_host_ports.md): links (R371), frames received (R372) and sent (R373, R375), flow control
(R376, R377), port sleep (R379 to R382), and what the commands of Table 18.11 apply. -/

namespace Sys2Proof.Machine

/-- The number that HPORT_WAKE reports for a cause: R381 gives the cause no code, so it is a free value. -/
def wakeCode (cause : Nat) : Nat := (Config.open64 6 cause).toNat % 4294967296

/-- The counter, after the first of its three, for a destination kind: unicast, multicast, broadcast (Table 11.4). -/
def destKind (bytes : List Byte) : Nat :=
  if (bytes.take 6).all (· == 0xFF) && 6 ≤ bytes.length then 2 else if bitAt bytes 0 0 then 1 else 0

/-- A tributary frame read from the bytes of an Ethernet frame: at most one VLAN tag, then ETYPE and the header of Table 10.6. -/
def tribOf (bytes : List Byte) : TribFrame :=
  let tagged := beVal (slice bytes 12 2) == 0x8100
  let o := if tagged then 16 else 12
  let h := o + 2
  let n := fun (i k : Nat) => beVal (slice bytes (h + i) k)
  { vlan := if tagged then some (BitVec.ofNat 16 (beVal (slice bytes 14 2))) else none
    etype := BitVec.ofNat 16 (beVal (slice bytes o 2)), ver := bytes.getD h 0, stream := BitVec.ofNat 12 (n 1 2)
    dirUp := bitAt bytes (h + 3) 2, tseq := BitVec.ofNat 32 (n 4 4), part := BitVec.ofNat 16 (n 8 2)
    parts := BitVec.ofNat 16 (n 10 2), firstSslot := BitVec.ofNat 16 (n 12 2), nslot := bytes.getD (h + 14) 0
    missing := BitVec.ofNat 56 (n 26 7), payload := bytes.drop (h + 40) }

namespace State

/-- The MAC exists, is enabled and awake, with its link up (R370, R371). -/
def macRuns (s : State) (m : Nat) : Bool :=
  s.macExists m && (s.mac m).en && (s.mac m).link && (s.port (m / 8)).ph == .awake && s.alive (portDom (m / 8))

/-! ### Links (R371) -/

/-- The link of a MAC goes down; under flush its egress queues are flushed. -/
def linkDown (s : State) (m : Nat) : State :=
  if !(s.mac m).link then s
  else
    let s := (s.updMac m fun x => { x with link := false }).bumpMac m 41
    let s := s.event 0x3001 0 3 m (det1 0) [s.macOwner m]
    if (s.mac m).hold then s else (List.range 8).foldl (fun s k => s.flush (egressQ m k)) s

/-- Every link of a group goes down. -/
def linksDown (s : State) (p : Nat) : State := (List.range 8).foldl (fun s i => s.linkDown (8 * p + i)) s

/-- A MAC's link goes up or down (R371). -/
def doLinkChange (s : State) (m : Nat) (up : Bool) : State :=
  if !up then s.linkDown m
  else if (s.mac m).link || !s.macExists m || !(s.mac m).en || (s.port (m / 8)).ph != .awake || !s.alive (portDom (m / 8)) then s
  else (s.updMac m fun x => { x with link := true }).event 0x3001 0 3 m (det1 1) [s.macOwner m]

/-! ### Reception (R372, R376) -/

/-- A class is paused for q quanta of 512 bit times, or resumes (R376). -/
def pauseClass (s : State) (m k q : Nat) : State :=
  let span := q * 320 * 2 ^ (s.port (m / 8)).mode
  s.updMac m fun x => { x with paused := if q = 0 then Tab.erase x.paused k else Tab.set 0 x.paused k (s.now + span) }

/-- A MAC control frame (R372, R376). -/
def macControl (s : State) (m : Nat) (bytes : List Byte) : State :=
  let op := beVal (Machine.slice bytes 14 2)
  let x := s.mac m
  if op = 1 then
    let s := s.bumpMac m 10
    if x.fcMode = 1 then (List.range 8).foldl (fun s k => s.pauseClass m k (beVal (Machine.slice bytes 16 2))) s else s
  else if op = 0x0101 then
    let vec : Byte := bytes.getD 17 0
    (List.range 8).foldl (fun s k =>
      if !vec.getLsbD k then s
      else
        let s := s.bumpMac m (12 + k)
        if x.fcMode = 2 ∧ x.pfcEn.getLsbD k then s.pauseClass m k (beVal (Machine.slice bytes (18 + 2 * k) 2)) else s) s
  else s.bumpMac m 11

/-- The counter of the first check of R372 that a frame fails; checks 1 to 4. -/
def rxCheck (s : State) (m : Nat) (f : HostFrame) : Option Nat :=
  let len := f.bytes.length + 4
  if f.pcsErr then some 9
  else if len < 64 then some (if f.fcsGood then 6 else 7)
  else if (s.mac m).maxFrame < len then some 8
  else if !f.fcsGood then some 5
  else none

/-- A frame received on a MAC (R372): a tributary frame goes to the tributary unit (R361), any other to the slice (R206). -/
def doHostFrame (s : State) (m : Nat) (f : HostFrame) : State :=
  if !s.macRuns m then s
  else match s.rxCheck m f with
    | some k => s.bumpMac m k
    | none =>
      if beVal (Machine.slice f.bytes 12 2) = 0x8808 then s.macControl m f.bytes
      else
        let s := (s.bumpMac m 0).bumpMac m 1 (f.bytes.length + 4)
        let s := s.bumpMac m (2 + destKind f.bytes)
        if s.tribAccepts m (tribOf f.bytes) then s.doTribFrame m (tribOf f.bytes)
        else ((s.stampRx m f.bytes f.off100).answerDelayReq m f.bytes f.off100).classifyHost m f.bytes

/-- The received pause time of a class runs out (R376). -/
def doPauseExpiry (s : State) (m k : Nat) : State := s.updMac m fun x => { x with paused := Tab.erase x.paused k }

/-- A pause point still asserted is refreshed (R377). -/
def doPauseRefresh (s : State) (m k : Nat) : State :=
  if (s.mac m).fcMode ≠ 0 ∧ (s.mac m).asserted.contains k then s.sendPause m k (s.mac m).quanta else s

/-! ### Transmission (R182, R373, R375) -/

/-- The highest class that is eligible some 100 ps units after the last tick, with its head frame (R182, R343, R376). -/
def nextClass (s : State) (m off100 : Nat) : Option (Nat × Frame) :=
  [7, 6, 5, 4, 3, 2, 1, 0].findSome? fun k => match (s.queue (egressQ m k)).frames.head? with
    | none => none
    | some f =>
      if (s.mac m).paused.any (fun p => p.1 == k) || !s.gateAllows m k (s.presentedAt (5 * off100)) (s.txTime m (wireLen f)) then none
      else some (k, f)

/-- An idle MAC takes a head frame some 100 ps units after the last tick (R182). One that still sends takes none (R375). -/
def doEgressTake (s : State) (m : Nat) (cellErr : Bool) (off100 : Nat) : State :=
  if !s.macRuns m || decide (s.now + 100 * off100 < (s.mac m).txEnd) then s
  else
    let s := (List.range 8).foldl (fun s k => s.settleHeads (egressQ m k)) s
    match s.nextClass m off100 with
    | none => s
    | some (k, f) =>
      let q := egressQ m k
      let s := ((s.askBanks (84 + m / 8) f.cells).takeOut q (fun h => h.id == f.id) (countDeq q)).occupy m (wireLen f) (s.now + 100 * off100)
      let (bytes, s) := s.stampTx m (f.bytes ++ zeros (60 - f.len)) off100
      let s := s.emit (.hostTx m bytes (!cellErr && !f.bad))
      if cellErr || f.bad then (if f.bad then s else s.bumpMem .bufEccUncorr).bumpMac m 25
      else ((s.bumpMac m 20).bumpMac m 21 (bytes.length + 4)).bumpMac m (22 + destKind bytes)

/-! ### Sleep (R379 to R382) -/

/-- The enabled MACs of a group. -/
def macsOn (s : State) (p : Nat) : List Nat :=
  ((List.range 8).map (8 * p + ·)).filter fun m => s.macExists m && (s.mac m).en

/-- The MACs of a waking group start their PCS, and HPORT_WAKE is posted with the time that Bracken took (R381). -/
def portAwake (s : State) (p : Nat) : State :=
  let x := s.port p
  (s.updPort p fun x => { x with ph := .awake }).event 0x3003 0 2 p
    (det2 (wakeCode x.wakeCause) (min ((x.grantedAt - x.wakeAsked) / 1000000) 4294967295)) [x.owner]

/-- The group's domain is there: the wake pattern is sent unless a detector has found the partner's (R381). -/
def portPowered (s : State) (p : Nat) : State :=
  if (s.port p).wakeCause = 0 then s.portAwake p
  else
    let s := (s.updPort p fun x => { x with ph := .pattern }).emit (.portPattern p true)
    (s.macsOn p).foldl (fun s m => s.bumpMac m 44) s

/-- The quiet notice ends (R379); after an HPORT.WAKE the group stays powered and wakes (R382). -/
def doQuietEnd (s : State) (p : Nat) : State :=
  if (s.port p).ph ≠ .quiet then s
  else
    let s := s.linksDown p
    if (s.port p).wakeAfterQuiet then
      (s.updPort p fun x => { x with wakeAfterQuiet := false, wakeCause := 1, wakeAsked := s.now, grantedAt := s.now }).portPowered p
    else
      let s := (s.bumpMac (8 * p) 42).event 0x3002 0 2 p (det1 0) [(s.port p).owner]
      (s.updPort p fun x => { x with ph := .asleep }).requestRelease (portDom p)

/-- The detector finds the wake pattern (R380, R382). -/
def doWakeDetected (s : State) (p : Nat) : State :=
  if (s.port p).ph = .asleep then (s.bumpMac (8 * p) 43).wakePort p 0 else s

/-- WAKE_LEN of wake pattern has been sent (R381). -/
def doPatternEnd (s : State) (p : Nat) : State := if (s.port p).ph = .pattern then s.portAwake p else s

/-- An enabled tributary stream or a PTP source instance names a MAC of a set (R369, R379). -/
def macsNamed (s : State) (sel : Nat → Bool) : Bool :=
  s.trib.streams.any (fun x => x.2.en && sel x.2.mac) || s.time.ptp.any (fun x => x.2.en && sel x.2.mac)

/-- The mode of a group changes (R369, R378, R405). -/
def setMode (s : State) (p mode : Nat) : State :=
  let old := (s.port p).mode
  let s := s.linksDown p
  let s := (List.range 8).foldl (fun s i =>
    if modeHas old i && !modeHas mode i then (List.range 8).foldl (fun s k => s.flush (egressQ (8 * p + i) k)) s else s) s
  let s := s.updPort p fun x => { x with mode := mode }
  let s := (List.range 8).foldl (fun s i => s.updLane (256 + 8 * p + i) fun x => { x with ctr := [] }) s
  (List.range 8).foldl (fun s i => s.updMac (8 * p + i) fun x =>
    if modeHas old i && modeHas mode i then
      { ({} : MacSt) with
        tsMode := x.tsMode, txAdj := x.txAdj, rxAdj := x.rxAdj, gate := x.gate, gateNext := x.gateNext, gateIdx := x.gateIdx
        gateMask := x.gateMask, gateDrops := x.gateDrops, gateSwitches := x.gateSwitches }
    else {}) s

/-- A MAC's flow control takes another mode: its pause points are tested afresh (R377). -/
def restartPoints (s : State) (m : Nat) : State :=
  (List.range 8).foldl (fun s k => s.updatePoint m k) (s.updMac m fun x => { x with asserted := [] })

end State

/-! ### Commands -/

def execHostFrameReceived (m : Mac) (f : HostFrame) (s : State) : Host.Outcome State Fault Refusal := .next (s.doHostFrame m f)
def execPauseTimeExpiry (m : Mac) (k : Fin 8) (s : State) : Host.Outcome State Fault Refusal := .next (s.doPauseExpiry m k)
def execPauseRefresh (m : Mac) (k : Fin 8) (s : State) : Host.Outcome State Fault Refusal := .next (s.doPauseRefresh m k)
def execEgressFrameTake (m : Mac) (x : EgressTake) (s : State) : Host.Outcome State Fault Refusal :=
  .next (s.doEgressTake m x.cellErr x.off100)
def execQuietNoticeEnd (p : PortId) (s : State) : Host.Outcome State Fault Refusal := .next (s.doQuietEnd p)
def execWakeDetected (p : PortId) (s : State) : Host.Outcome State Fault Refusal := .next (s.doWakeDetected p)
def execWakePatternEnd (p : PortId) (s : State) : Host.Outcome State Fault Refusal := .next (s.doPatternEnd p)
def execLinkChange (m : Mac) (up : Bool) (s : State) : Host.Outcome State Fault Refusal := .next (s.doLinkChange m up)

/-! ### Host port commands (Table 18.11) -/

def applyHportModeSet (k : Nat) (p : List Byte) (s : State) : CmdResult :=
  let g := u8 p 0
  let mode := u8 p 1
  checked s (p.length == 2) (s.ownsPort k g) (firstBad p [(decide (31 < g), 0), (decide (3 < mode), 1)] [])
    (let gone := fun m => m / 8 == g && modeHas (s.port g).mode (m % 8) && !modeHas mode (m % 8)
     if (s.port g).ph ≠ .awake ∨ s.macsNamed gone ∨ s.lags.any fun l => l.2.members.any gone then fail s stState
     else done (s.setMode g mode))

def applyHportSet (k : Nat) (p : List Byte) (s : State) : CmdResult :=
  let m := u8 p 0
  let max := u16 p 10
  checked s (p.length == 16) (s.ownsMac k m)
    (firstBad p [(decide (1 < u8 p 1), 1), (decide (2 < u8 p 2), 2), (decide (max < 64) || decide (16383 < max), 10),
      (u16 p 12 == 0, 12), (decide (1 < u8 p 14), 14)] [(15, 1)])
    (if !s.macExists m then fail s stState
     else
       let x := s.mac m
       let s := if x.en && u8 p 1 == 0 then s.linkDown m else s
       let s := s.updMac m fun x => { x with
         en := u8 p 1 == 1, fcMode := u8 p 2, pfcEn := p.getD 3 0, sa := some (BitVec.ofNat 48 (beVal (slice p 4 6)))
         maxFrame := max, quanta := u16 p 12, hold := u8 p 14 == 0 }
       let s := if x.fcMode = u8 p 2 then s else s.restartPoints m
       -- the group's domain is woken on demand (R445, Table 13.4)
       done (if u8 p 1 == 1 && (s.port (m / 8)).ph == .awake then s.requestWake 1 (portDom (m / 8)) else s))

def applyHportSleepSet (k : Nat) (p : List Byte) (s : State) : CmdResult :=
  let g := u8 p 0
  checked s (p.length == 4) (s.ownsPort k g)
    (firstBad p [(decide (31 < g), 0), (decide (1 < u8 p 1), 1), (decide (u16 p 2 < 10) || decide (100 < u16 p 2), 2)] [])
    (done (s.updPort g fun x => { x with autoWake := u8 p 1 == 1, wakeLen := u16 p 2 }))

def applyHportSleep (k : Nat) (p : List Byte) (s : State) : CmdResult :=
  let g := u8 p 0
  checked s (p.length == 1) (s.ownsPort k g) (firstBad p [(decide (31 < g), 0)] [])
    (if (s.port g).ph ≠ .awake ∨ s.macsNamed fun m => m / 8 == g then fail s stState
     else
       let s := s.updPort g fun x => { x with ph := .quiet, wakeAfterQuiet := false }
       let s := (List.range 8).foldl (fun s i => s.updMac (8 * g + i) fun x => { x with paused := [] }) s
       done (if (s.macsOn g).isEmpty then s else s.emit (.portPattern g false)))

def applyHportWake (k : Nat) (p : List Byte) (s : State) : CmdResult :=
  let g := u8 p 0
  checked s (p.length == 1) (s.ownsPort k g) (firstBad p [(decide (31 < g), 0)] [])
    (match (s.port g).ph with
     | .asleep => done (s.wakePort g 1)
     | .quiet => done (s.updPort g fun x => { x with wakeAfterQuiet := true })
     | _ => done s)

def applyHportStatusGet (k : Nat) (p : List Byte) (s : State) : CmdResult :=
  let g := u8 p 0
  checked s (p.length == 1) (s.ownsPort k g) (firstBad p [(decide (31 < g), 0)] [])
    (let x := s.port g
     let ph := match x.ph with
       | .awake => 0 | .asleep => 1 | .quiet => 2 | .powering | .pattern => 4
     let links := State.bitMap ((List.range 8).filter fun i => (s.mac (8 * g + i)).link)
     done s [BitVec.ofNat 8 x.mode, BitVec.ofNat 8 ph, BitVec.ofNat 8 links, 0])

def applyHportStatsGet (k : Nat) (p : List Byte) (s : State) : CmdResult :=
  let m := u8 p 0
  checked s (p.length == 1) (s.ownsMac k m) none
    (done (s.updMac m fun x => { x with ctr := [], sat := 0 }) (ctrBytes (s.mac m).ctr 45 ++ leBytes 8 (s.mac m).sat.toNat))

end Sys2Proof.Machine
end

