-- ==== Sys2Proof/Machine/Lanes.lean ====
section
/-! DEFINITION. Serial lanes and test (12_serial_lanes.md): block lock and lane alignment (R388 to R393), detectors (R399), test modes
(R400 to R403), the eye monitor (R404), the front-end poll (R396), and what the commands of Table 18.12 apply. -/

namespace Sys2Proof.Machine

/-! ### Lane markers (Table 12.1) -/

/-- MSYNC and MCRC of a marker fit after polarity correction (R391). -/
def markerFits (m : BitVec 64) : Bool :=
  m.toNat >>> 48 == markerSync && m.toNat % 256 == (crc8 (markerBody m)).toNat
/-- LANE of a marker. -/
def markerLane (m : BitVec 64) : Nat := (m.toNat >>> 46) % 4
/-- MCOUNT of a marker. -/
def markerCount (m : BitVec 64) : Nat := (m.toNat >>> 16) % 16777216

/-- The logical lanes of a set are 0 to 3 in some assignment to pins (R392). -/
def isPerm (l : List Nat) : Bool := l.length == 4 && (List.range 4).all l.contains

/-- Blocks from one arrival to another, the counts modulo 2^32 (DEDUCED: arrivals of one set lie within half of it). -/
def blocksFrom (a b : Nat) : Int := (BitVec.ofNat 32 b - BitVec.ofNat 32 a).toInt

/-- The pin lane a lane number names, and its channel (R383). -/
def lineLane (l : Nat) : Bool := decide (l < 256)

/-- MAC of a host lane in a group's mode (Table 11.1): a MAC of the mode takes 8, 4, 2 or 1 lanes. -/
def macOfLane (mode l : Nat) : Nat :=
  let i := (l - 256) % 8
  let w := 8 / 2 ^ mode
  (l - 256) / 8 * 8 + i / w * w

/-- The taps of a lane (R397). -/
def LaneSt.tapsNow (x : LaneSt) (line : Bool) : Int × Int × Int × Int :=
  x.taps.getD (if line then (0, -6, 54, -4) else (2, -8, 50, -4))

namespace State

/-! ### Block lock and alignment (R388 to R393) -/

/-- Lane alignment of a channel is lost (R393); nothing of it is carried over. -/
def alignLost (s : State) (c : Nat) : State :=
  if !(s.chan c).rx.lanesUp then s
  else
    let s := s.updChan c fun x => { x with rx := { x.rx with lanesUp := false }, markers := [], misSets := 0 }
    let s := (List.range 4).foldl (fun s i => s.updLane (4 * c + i) fun x => { x with lastMarker := none, badMarkers := 0 }) s
    (s.bumpLane (4 * c) .alignLoss).lineLost c

/-- Block lock is declared and fixes the polarity (R388). -/
def doBlockLock (s : State) (l : Nat) (inverted : Bool) : State :=
  let x := s.lane l
  if !lineLane l || !s.alive (dsDom (l / 4)) || x.blockLock || x.los || x.lol then s
  else s.updLane l fun x => { x with blockLock := true, inverted, lastMarker := none, badMarkers := 0 }

/-- Block lock of a line lane is lost (R389); `headers` invalid headers took it away. -/
def blockLost (s : State) (l headers : Nat) : State :=
  if !lineLane l || !(s.lane l).blockLock then s
  else
    let s := s.updLane l fun x => { x with blockLock := false, lastMarker := none, badMarkers := 0 }
    let s := s.updChan (l / 4) fun x => { x with markers := Tab.set none x.markers (l % 4) none }
    let s := s.bumpLane l .blockLockLoss
    (if headers = 0 then s else s.bumpLane l .hdrInvalid headers).alignLost (l / 4)

/-- Block lock ends by invalid headers, or by a detector that is already asserted (R389). -/
def doBlockLockLoss (s : State) (l : Nat) : State :=
  s.blockLost l (if (s.lane l).los || (s.lane l).lol then 0 else 32)

/-- A set of four good markers, one of each pin lane, meets the conditions of R392 or the aligned state (R393). -/
def markerSet (s : State) (c : Nat) (set : List (Nat × Nat × Nat)) : State :=
  let x := s.chan c
  let s := s.updChan c fun x => { x with markers := [] }
  let at0 := (set.headD (0, 0, 0)).2.2
  let rel := set.map fun m => blocksFrom at0 m.2.2
  let first := rel.foldl min 0
  let skew := rel.map fun d => (d - first).toNat
  let one := (set.all fun m => m.1 == (set.headD (0, 0, 0)).1) && isPerm (set.map (·.2.1))
  let inv := (List.range 4).map fun i => (s.lane (4 * c + i)).inverted
  if !x.rx.lanesUp then
    if !one then s
    else if 512 < skew.foldl max 0 then s.bumpLane (4 * c) .skewErr
    else s.updChan c fun x => { x with
      rxMap := set.map (·.2.1), rxInv := inv, rxSkew := skew, misSets := 0, rx := { x.rx with lanesUp := true } }
  else
    let moved := (skew.zip x.rxSkew).any fun d => decide (d.2 + 2 < d.1) || decide (d.1 + 2 < d.2)
    if one && set.map (·.2.1) == x.rxMap && inv == x.rxInv && !moved then s.updChan c fun x => { x with misSets := 0 }
    else if 3 ≤ x.misSets then s.alignLost c
    else s.updChan c fun x => { x with misSets := x.misSets + 1 }

/-- A good marker joins the set under collection; entries of another marker position leave it. -/
def collectMarker (s : State) (l : Nat) (m : BitVec 64) (arrival : Nat) : State :=
  let c := l / 4
  let near := fun (e : Nat × Option (Nat × Nat × Nat)) => match e.2 with
    | some x => decide ((blocksFrom x.2.2 arrival).natAbs ≤ markerSpan / 2)
    | none => false
  let s := s.updChan c fun x => { x with
    markers := Tab.set none (x.markers.filter near) (l % 4) (some (markerCount m, markerLane m, arrival)) }
  let set := (List.range 4).filterMap fun i => Tab.get none (s.chan c).markers i
  if set.length = 4 then s.markerSet c set else s

/-- A completed lane marker is tested (R391, R393). -/
def doLaneMarker (s : State) (l : Nat) (raw : BitVec 64) (arrival : Nat) : State :=
  let x := s.lane l
  if !lineLane l || !x.blockLock then s
  else
    let m := if x.inverted then ~~~raw else raw
    let due := x.lastMarker.all fun p => (arrival + 4294967296 - p % 4294967296) % 4294967296 % markerSpan == 0
    if markerFits m && due then
      (s.updLane l fun x => { x with lastMarker := some arrival, badMarkers := 0 }).collectMarker l m arrival
    else
      let s := s.bumpLane l .markerErr
      if !due then s
      else if (s.chan (l / 4)).rx.lanesUp && decide (3 ≤ x.badMarkers) then s.alignLost (l / 4)
      else s.updLane l fun x => { x with badMarkers := x.badMarkers + 1 }

/-- The downstream domain of a channel goes off: its receivers hold no lock. -/
def lanesOff (s : State) (c : Nat) : State :=
  let s := (List.range 4).foldl (fun s i => s.updLane (4 * c + i) fun x => { x with
    blockLock := false, lastMarker := none, badMarkers := 0, prbsLock := false }) s
  s.updChan c fun x => { x with rx := { x.rx with lanesUp := false }, markers := [], misSets := 0 }

/-! ### Detectors (R399) -/

/-- LANE_DETECT goes to the owner of the lane (R399). -/
def laneDetect (s : State) (l detector : Nat) (on : Bool) : State :=
  s.event 0x3101 0 8 l (det2 detector on.toNat) [s.laneOwner l]

/-- Loss of signal or of lock on a lane ends block lock or takes the link down (R389, R399). -/
def laneFails (s : State) (l : Nat) : State :=
  if lineLane l then s.blockLost l 0 else s.linkDown (macOfLane (s.port ((l - 256) / 8)).mode l)

/-- The receiver of a lane is powered. -/
def rxAlive (s : State) (l : Nat) : Bool :=
  if lineLane l then s.alive (dsDom (l / 4)) else s.alive (portDom ((l - 256) / 8))

/-- A detector changes state after its debounce (R399): loss of signal is 0, loss of lock is 1. -/
def doDetect (s : State) (l detector : Nat) (on : Bool) : State :=
  let x := s.lane l
  if !s.rxAlive l || (if detector = 0 then x.los else x.lol) == on then s
  else
    let s := s.updLane l fun x => if detector = 0 then { x with los := on } else { x with lol := on }
    let s := if on then s.bumpLane l (if detector = 0 then .los else .lol) else s
    let s := s.laneDetect l detector on
    if on then s.laneFails l else s

/-- FELOScc changes state (R57, R60, R399). A sleeping channel loses its wait for the awake multiframe with it (R124, R433). -/
def doFelos (s : State) (c : Nat) (on : Bool) : State :=
  if (s.chan c).rx.felos == on then s
  else
    let s := s.updRx c fun r => { r with felos := on }
    let s := (if on then s.bumpLane (4 * c) .felos else s).laneDetect (4 * c) 2 on
    if !on then s
    else match (s.chan c).tc.doze with
      | some d => if s.asleep c then
          let h : HoldInfo := { tag := d.recTag, sfc := d.recSfc, tds := d.recTds, since := s.now }
          (s.enterHoldover c h).requestWake 0 (dsDom c)
        else s.lineLost c
      | none => s.lineLost c

/-! ### Test modes (R400 to R403) -/

/-- The checker of a lane runs (R400). -/
def checkerRuns (s : State) (l : Nat) : Bool :=
  let x := s.lane l
  (x.test == 1 || x.test == 2 || x.test == 4) && x.chk != 0xFF

/-- Pattern lock is declared (R401). -/
def doPrbsLock (s : State) (l : Nat) : State :=
  if s.checkerRuns l && s.rxAlive l then s.updLane l fun x => { x with prbsLock := true } else s

/-- Pattern lock is lost by 256 errors (R401). -/
def doPrbsLoss (s : State) (l : Nat) : State :=
  if (s.lane l).prbsLock then
    ((s.updLane l fun x => { x with prbsLock := false }).bumpLane l .prbsErr 256).bumpLane l .prbsLoss
  else s

/-- The power of a channel's lane test: both domains while a lane is in a mode, released with the last (R400, R403). -/
def testPower (s : State) (c : Nat) (was : Bool) : State :=
  let now := s.inTest c
  if now && !was then ((s.driveBgate c false s.now).requestWake 1 (dsDom c)).requestWake 1 (usDom c)
  else if was && !now then (s.requestRelease (usDom c)).requestRelease (dsDom c)
  else s

/-! ### Eye monitor and front end (R396, R404, R584) -/

/-- The payloads of the result events of a result: a result above 65,536 bytes goes out in parts, each with its index and their count
before it (R530); every part but the last is full (DESIGN CHOICE, log 70). -/
def resultParts (result : List Byte) : List (List Byte) :=
  if result.length ≤ 65536 then [result]
  else
    let n := (result.length + 65531) / 65532
    (List.range n).map fun i => leBytes 2 i ++ leBytes 2 n ++ (result.drop (65532 * i)).take 65532

/-- A scan ends and posts LANE_EYE (R404). -/
def doEyeDone (s : State) (l : Nat) (counts : List Nat) : State :=
  match (s.lane l).scan with
  | none => s
  | some (hd, n) =>
    (resultParts ((List.range n).flatMap fun i => leBytes 8 (counts.getD i 0))).foldl (fun s detail => s.post
      { e := { code := 0x0105, sev := 0, raised := false, kind := 8, idx := l, detail, time := 0, pstate := 0,
               parts := [hd.ep.val], seq := 0, flash := false }
        tag := hd.tag, epoch := some hd.epoch, status := stOk }) (s.updLane l fun x => { x with scan := none })

/-- The lane-status register of a front end is read (R133, R396). -/
def doFePoll (s : State) (c : Nat) (code : Byte) (mismatch : Bool) (txFault : Byte) : State :=
  if !(s.chan c).cfg.fePoll || !(s.chan c).tc.opened || !s.fw.ready then s
  else
    let s := (s.setPin (34 + c / 8) 4).setPin (42 + c / 8) 4
    let s := if mismatch then s.event 0x3102 1 8 (4 * c) (det1 code.toNat) (s.chanParts c) else s
    if txFault = 0 then s.clearChan c 2 0
    else if s.alarmOpen 0x2002 1 c then s else s.raiseChan c 2 txFault.toNat

/-- SCL held low over 25 ms: the firmware frees the bus (R584). -/
def doFeRelease (s : State) (k : Nat) : State :=
  if s.fw.ready then ((s.setPin (34 + k) 4).setPin (42 + k) 4).emit (.feRelease k) else s

end State

/-! ### Commands -/

def execBlockLock (l : LaneId) (inverted : Bool) (s : State) : Host.Outcome State Fault Refusal := .next (s.doBlockLock l inverted)
def execBlockLockLoss (l : LaneId) (s : State) : Host.Outcome State Fault Refusal := .next (s.doBlockLockLoss l)
def execLaneMarker (l : LaneId) (raw : BitVec 64) (arrival : Nat) (s : State) : Host.Outcome State Fault Refusal :=
  .next (s.doLaneMarker l raw arrival)
def execLosDetect (l : LaneId) (on : Bool) (s : State) : Host.Outcome State Fault Refusal := .next (s.doDetect l 0 on)
def execLolDetect (l : LaneId) (on : Bool) (s : State) : Host.Outcome State Fault Refusal := .next (s.doDetect l 1 on)
def execFelosDetect (c : Chan) (on : Bool) (s : State) : Host.Outcome State Fault Refusal := .next (s.doFelos c on)
def execPrbsLock (l : LaneId) (s : State) : Host.Outcome State Fault Refusal := .next (s.doPrbsLock l)
def execPrbsLockLoss (l : LaneId) (s : State) : Host.Outcome State Fault Refusal := .next (s.doPrbsLoss l)
def execEyeScanDone (l : LaneId) (counts : List Nat) (s : State) : Host.Outcome State Fault Refusal := .next (s.doEyeDone l counts)
def execFeLanePoll (c : Chan) (code : Byte) (mismatch : Bool) (txFault : Byte) (s : State) : Host.Outcome State Fault Refusal :=
  .next (s.doFePoll c code mismatch txFault)
def execFeBusStretchTimeout (k : Fin 8) (s : State) : Host.Outcome State Fault Refusal := .next (s.doFeRelease k)

/-! ### Lane commands (Table 18.12) -/

def applyLaneStatusGet (k : Nat) (p : List Byte) (s : State) : CmdResult :=
  let l := u16 p 0
  checked s (p.length == 2) (s.ownsLane k l) (firstBad p [(decide (511 < l), 0)] [])
    (let x := s.lane l
     let c := s.chan (l / 4)
     let line := lineLane l
     let flags := x.los.toNat + 2 * x.lol.toNat + 4 * (line && c.rx.felos).toNat + 8 * (line && x.blockLock).toNat
       + 16 * (line && c.rx.lanesUp).toNat + 32 * x.frozen.toNat + 64 * x.scan.isSome.toNat
     done s (if line then
         [BitVec.ofNat 8 flags, BitVec.ofNat 8 (c.rxMap.getD (l % 4) (l % 4)), bByte x.inverted, BitVec.ofNat 8 x.test]
           ++ leBytes 2 (c.rxSkew.getD (l % 4) 0) ++ zeros 2
       else BitVec.ofNat 8 flags :: zeros 7))

/-- The four taps at offset 4 (R397). -/
def tapsAt (p : List Byte) : Int × Int × Int × Int := (i8 p 4, i8 p 5, i8 p 6, i8 p 7)

/-- Faults of the taps (R397). -/
def tapsBad (p : List Byte) : List (Bool × Nat) :=
  if bitAt p 2 0 then
    [(decide (64 < (i8 p 4).natAbs + (i8 p 5).natAbs + (i8 p 6).natAbs + (i8 p 7).natAbs), 4), (decide (i8 p 6 < 32), 6)]
  else []

/-- Faults of the channel fields (R394, R395, R559). -/
def txFieldsBad (p : List Byte) : List (Bool × Nat) :=
  if bitAt p 2 1 then
    [(!isPerm ((slice p 8 4).map (·.toNat)), 8), (decide (15 < u8 p 12), 12),
      (decide (u16 p 14 < 200) || decide (2000 < u16 p 14), 14)]
  else []

def applyLaneTxSet (k : Nat) (p : List Byte) (s : State) : CmdResult :=
  let l := u16 p 0
  checked s (p.length == 16) (s.ownsLane k l)
    (firstBad p ([(decide (511 < l), 0), (decide (3 < u8 p 2) || (bitAt p 2 1 && !lineLane l), 2)] ++ tapsBad p ++ txFieldsBad p)
      [(3, 1), (13, 1)])
    (let s := if !bitAt p 2 0 then s
       else if lineLane l then s.updLane l fun x => { x with tapsNext := some (tapsAt p) }
       else s.updLane l fun x => { x with taps := some (tapsAt p) }
     done (if !bitAt p 2 1 then s else s.updChan (l / 4) fun x => { x with cfg := { x.cfg with
       txMap := (slice p 8 4).map (·.toNat), txInv := u8 p 12, txLeadNs := u16 p 14 } }))

def applyLaneRxSet (k : Nat) (p : List Byte) (s : State) : CmdResult :=
  let l := u16 p 0
  checked s (p.length == 8) (s.ownsLane k l)
    (firstBad p [(decide (511 < l), 0), (decide (1 < u8 p 2), 2), (u32 p 4 == 0 || decide (1000 < u32 p 4), 4)] [(3, 1)])
    (done (s.updLane l fun x => { x with frozen := u8 p 2 == 1, losDebUs := u32 p 4 }))

/-- A lane cannot be tested: its channel is open, its group is not awake or has a MAC enabled (R400). -/
def State.testBarred (s : State) (l : Nat) : Bool :=
  if lineLane l then (s.chan (l / 4)).tc.opened
  else
    let g := (l - 256) / 8
    (s.port g).ph != .awake || (List.range 8).any fun i => (s.mac (8 * g + i)).en

/-- A pattern byte: one of the nine of R401, or none. -/
def patternBad (b : Byte) : Bool := b != 0xFF && decide (8 < b.toNat)

def applyLaneTestSet (k : Nat) (p : List Byte) (s : State) : CmdResult :=
  let l := u16 p 0
  checked s (p.length == 6) (s.ownsLane k l)
    (firstBad p [(decide (511 < l), 0), (decide (4 < u8 p 2), 2), (patternBad (p.getD 3 0), 3), (patternBad (p.getD 4 0), 4),
      (decide (3 < u8 p 5), 5)] [])
    (if s.testBarred l then fail s stState
     else
       let was := lineLane l && s.inTest (l / 4)
       let s := s.updLane l fun x => { x with
         test := u8 p 2, gen := u8 p 3, chk := u8 p 4, genInv := bitAt p 5 0, chkInv := bitAt p 5 1, prbsLock := false
         injM := if u8 p 2 = 1 then x.injM else 0, injE := if u8 p 2 = 1 then x.injE else 0 }
       done (if lineLane l then s.testPower (l / 4) was else s))

def applyLaneInject (k : Nat) (p : List Byte) (s : State) : CmdResult :=
  let l := u16 p 0
  let form := u8 p 2
  checked s (p.length == 6) (s.ownsLane k l)
    (firstBad p [(decide (511 < l), 0), (decide (2 < form), 2), (form == 1 && (u8 p 3 == 0 || decide (64 < u8 p 3)), 3),
      (form == 2 && decide (9 < u8 p 4), 4),
      (form == 2 && u8 p 4 != 0 && (decide (u8 p 5 < 3) || decide (12 < u8 p 5)), 5)] [])
    (if (s.lane l).test ≠ 1 then fail s stState
     else match form with
       | 0 => done (s.bumpLane l .injected)
       | 1 => done (s.bumpLane l .injected (u8 p 3))
       | _ => done (s.updLane l fun x => { x with injM := u8 p 4, injE := if u8 p 4 = 0 then 0 else u8 p 5 }))

/-- Grid points of a scan (R404). -/
def eyePoints (p : List Byte) : Nat :=
  (((i8 p 5 - i8 p 4).toNat / max 1 (u8 p 6)) + 1) * (((i8 p 9 - i8 p 8).toNat / max 1 (u8 p 10)) + 1)

def applyLaneEyeGet (hd : CmdHdr) (p : List Byte) (s : State) : CmdResult :=
  let l := u16 p 0
  checked s (p.length == 12) (s.ownsLane hd.ep l)
    (firstBad p [(decide (511 < l), 0), (decide (2 < u8 p 2), 2), (decide (u8 p 3 < 16) || decide (36 < u8 p 3), 3),
      (decide (i8 p 4 < -32) || decide (31 < i8 p 4), 4),
      (decide (i8 p 5 < -32) || decide (31 < i8 p 5) || decide (i8 p 5 < i8 p 4), 5), (u8 p 6 == 0, 6),
      (decide (i8 p 8 < -127), 8), (decide (i8 p 9 < -127) || decide (i8 p 9 < i8 p 8), 9), (u8 p 10 == 0, 10)] [(7, 1), (11, 1)])
    (if (s.lane l).scan.isSome then fail s stBusy
     else pending (s.updLane l fun x => { x with scan := some (hd, eyePoints p) }))

def applyLaneStatsGet (k : Nat) (p : List Byte) (s : State) : CmdResult :=
  let l := u16 p 0
  checked s (p.length == 3) (s.ownsLane k l) (firstBad p [(decide (511 < l), 0), (decide (1 < u8 p 2), 2)] [])
    (done (if u8 p 2 = 1 then s.updLane l fun x => { x with ctr := [] } else s) (ctrBytes (s.lane l).ctr 12))

end Sys2Proof.Machine
end

