-- ==== Sys2Proof/Machine/Store.lean ====
section
/-! DEFINITION. The spill store, the buffer banks and the arbiter (07_buffers_arbitration.md): page transfers, stacks, spill
ports, scrub, and what the commands of Table 18.14 apply. -/

namespace Sys2Proof.Machine

namespace State

/-- A transfer on a stack's link repeated n times; the eighth failure retrains the link (R265). -/
def linkErrors (s : State) (i n : Nat) : State :=
  let s := s.bumpMem .spillLinkRetry n
  if 8 ≤ n then s.updStack i fun x => { x with retraining := true } else s

/-- The tail cells of the frames whose records are written whole are freed (R257). -/
def freeWritten (s : State) (q hi : Nat) : State :=
  let sel := fun (f : Frame) => match f.place with
    | .stream st n => decide (st + n ≤ hi) && !f.cells.isEmpty
    | .head => false
  let out := (s.queue q).frames.filter sel
  let s := s.updQueue q fun x => { x with frames := x.frames.map fun f => if sel f then { f with cells := [] } else f }
  out.foldl freeFrame s

/-- The first page being written is in the store (R257). -/
def doPageWriteDone (s : State) (q n : Nat) : State :=
  match (s.queue q).pages.find? fun p => p.ph == .writing with
  | none => s
  | some p =>
    if s.stackRefuses p.stack then s
    else
    let s := s.linkErrors p.stack n
    if 8 ≤ n then s
    else
      let s := s.updQueue q fun x => { x with
        pages := x.pages.map fun y => if y.start == p.start then { y with ph := .stored } else y }
      let s := s.updStack p.stack fun y => { y with writes := y.writes - 1 }
      ((s.bumpMem .spillPagesWritten).bumpQ q .spillPages).freeWritten q (p.start + 16384)

/-- A burst planned or asked for of a queue's allocation: its map has been handed off (R261). -/
def granted (s : State) (q : Nat) : Bool :=
  match (s.queue q).cfg.alloc with
  | none => false
  | some a => (s.chan (q / 128)).us.bursts.any fun b => b.grants.any fun g => g.ctx == a

/-- Bytes of a queue that are or will be in its head for a prefetch: the unclaimed share, and the pages being read. -/
def headComing (x : QueueSt) : Nat := x.unclaimedShare + 16384 * (x.pages.filter fun p => p.ph == .reading).length

/-- A live run-ahead prediction prefetches for the queue's allocation, up to its predicted drain: what the allocation's queues have in
their heads, or coming, does not reach it yet (R160, R258). That the drain bounds the prefetch so is a DESIGN CHOICE (log 108). -/
def prefetched (s : State) (q : Nat) : Bool :=
  match (s.queue q).cfg.alloc with
  | none => false
  | some a =>
    let x := s.chan (q / 128)
    let coming := (((List.range 128).filter fun l => (s.queue (128 * (q / 128) + l)).cfg.alloc == some a).map fun l =>
      headComing (s.queue (128 * (q / 128) + l))).sum
    x.us.preds.any fun p => p.prefetch && decide (coming < p.drain)
      && (Tab.get none x.tc.allocs a == some p.alloc || (a == 0 && x.tc.defAlloc == some p.alloc))

/-- The next page is read when R258 allows it; a sleeping stack or controller is woken in the class of R261. A stack that cannot take
the request refuses it, and then the page reader backs off, with later reads of its stack behind it (R265, R276). -/
def doPageReadIssue (s : State) (q : Nat) : State :=
  let x := s.queue q
  match x.pages.find? fun p => p.ph != .reading with
  | none => s
  | some p =>
    let room := decide (headComing x + 16384 ≤ x.spillCfg.onMax)
    if p.ph ≠ .stored ∨ !(room || s.prefetched q) ∨ (Tab.get {} s.mem.ports p.stack).wait ≠ 0 then s
    else
      let s := if (s.pdom (stackDom p.stack)).ph == .off || (s.stack p.stack).selfRefresh then
          s.wakeStack p.stack (if room && s.granted q then 1 else 2)
        else s
      if (s.pdom (stackDom p.stack)).ph == .off then s
      else if s.stackRefuses p.stack then s.refuseSpill p.stack (some q)
      else s.updQueue q fun x => { x with
        pages := x.pages.map fun y => if y.start == p.start then { y with ph := .reading } else y }

/-- A page leaves the queue's page list and the store. -/
def freePage (s : State) (q : Nat) (p : Page) : State :=
  let s := s.updQueue q fun x => { x with pages := x.pages.filter fun y => y.start != p.start }
  s.updStack p.stack fun y => { y with pages := y.pages - 1 }

/-- The oldest page read lands in staging; damage loses records to the end of the page (R258, R259, R266). -/
def doPageReadDone (s : State) (q n : Nat) (damage : Option Nat) : State :=
  match (s.queue q).pages.find? fun p => p.ph == .reading with
  | none => s
  | some p =>
    if s.stackRefuses p.stack then s
    else
    let s := s.linkErrors p.stack n
    if 8 ≤ n then s
    else
      let s := match damage with
        | some d => (s.bumpMem .spillEccUncorr).loseStream q (p.start + d) (p.start + 16384)
        | none => s
      let s := s.updQueue q fun x => { x with readEnd := p.start + 16384 }
      let s := (s.stageFrames q (16 + p.stack)).freePage q p
      ((((s.bumpMem .spillPagesRead).bumpQ q .refillPages).joinTail q).pressureTest q).cellsChanged

/-- The pages of a queue on a failed stack: those still in tail cells go elsewhere, the others are lost (R267). -/
def losePages (s : State) (i q : Nat) : State :=
  let gone := (s.queue q).pages.filter fun p => p.stack == i
  let s := gone.foldl (fun s p =>
    if p.ph == .waiting || p.ph == .writing then
      (s.freePage q p).storePage q fun j a => { p with stack := j, addr := a, ph := .waiting }
    else
      let s := s.loseStream q p.start (p.start + 16384)
      let s := s.updQueue q fun x => { x with readEnd := max x.readEnd (if (x.pages.head?.map (·.start)) == some p.start
        then p.start + 16384 else x.readEnd) }
      s.freePage q p) s
  (((s.stageFrames q 120).joinTail q).pressureTest q).cellsChanged

/-- Link retraining of a stack has failed (R267). -/
def doStackFailed (s : State) (i : Nat) : State :=
  if (s.stack i).failed then s
  else
    let s := s.updStack i fun x => { x with failed := true, retraining := false }
    let s := (s.acceptSpill i).acceptSpill (4 + i)
    let s := s.bumpMem .spillStackFail
    let s := s.raiseAlarm 0x1040 2 0 i (det1 i) allParts
    let s := s.queues.foldl (fun s p => if p.2.pages.any fun y => y.stack == i then s.losePages i p.1 else s) s
    s.updStack i fun x => { x with pages := 0, writes := 0 }

/-- A stack with no page and no request for 50 µs enters self-refresh, and its controller is released (R268). -/
def doStackSelfRefresh (s : State) (i : Nat) : State :=
  let x := s.stack i
  if x.pages = 0 ∧ x.writes = 0 ∧ !x.selfRefresh then
    ((s.updStack i fun x => { x with selfRefresh := true }).bumpMem .spillSelfRefresh).requestRelease (stackDom i)
  else s

/-- A spill port makes its request again, and it is accepted or refused, by a bank or by its stack (R276, R277). An accepted one goes on:
the read of a page reader, the waiting writes of a page writer. -/
def doSpillPortRetry (s : State) (i : Nat) (refused : Bool) : State :=
  let x := Tab.get {} s.mem.ports i
  let s := if x.k = 10 then s.bumpMem .spillBackoffMax else s
  if refused || s.stackRefuses (i % 4) then s.refuseSpill i x.held
  else
    let s := s.acceptSpill i
    match x.held with
    | some q => if i < 4 then s.doPageReadIssue q else s.startWrites (i - 4)
    | none => s

/-- A pass of the patrol scrub over the allocated pages of a stack, of the opportunistic class, with the link transfers repeated and the
reads that reported an uncorrectable error. Such a read is counted; the records are lost when the page is read for its queue (R266),
which is a DESIGN CHOICE (log 109). -/
def doPatrolScrub (s : State) (i n bad : Nat) : State :=
  let x := s.stack i
  if x.pages = 0 ∨ x.failed then s
  else if s.stackReady i then
    let s := s.linkErrors i n
    if 8 ≤ n then s
    else
      let s := if bad = 0 then s else s.bumpMem .spillEccUncorr bad
      s.updStack i fun x => { x with scrubbed := x.scrubbed + x.pages }
  else s.requestWake 2 (stackDom i)

/-- Successful retraining: the stack accepts requests again (R265). -/
def doStackLinkRetrained (s : State) (i : Nat) : State := s.updStack i fun x => { x with retraining := false }

/-- A frame with an uncorrectable cell error (R273): an unclaimed one of an upstream queue leaves it; a claimed one is marked for its
executor to replace, one of an egress queue, or held for one by a reorder engine, for its port to end with a bad FCS. -/
def cellError (s : State) (fid : Nat) : State :=
  let mark := fun (f : Frame) => if f.id == fid then { f with bad := true } else f
  match s.queues.find? fun p => p.2.frames.any fun f => f.id == fid with
  | some p =>
    if p.1 < 8192 ∧ p.2.frames.any (fun f => f.id == fid && !f.claimed) then
      s.takeOut p.1 (fun f => f.id == fid && !f.claimed) fun s f => countDeq p.1 (s.bumpMem .bufEccDrop) f
    else s.updQueue p.1 fun x => { x with frames := x.frames.map mark }
  | none => s.bonds.foldl (fun s p => s.updBond p.1 fun b => { b with
      held := b.held.map fun h => { h with frame := h.frame.map mark } }) s

/-- What the background scrub finds (R269). A word of another memory that reads as zero is noted by its memory and address: no rule
places a field of State in either (a DESIGN CHOICE; log 110). -/
def doBackgroundScrub (s : State) : ScrubFinding → State
  | .clean => s
  | .corrected => s.bumpMem .bufEccCorr
  | .uncorrectableCell none => s.bumpMem .bufEccUncorr
  | .uncorrectableCell (some f) => (s.bumpMem .bufEccUncorr).cellError f
  | .uncorrectable mem addr =>
    (s.raiseAlarm 0x1041 2 0 mem.toNat (det2 mem.toNat addr.toNat) allParts).updMem fun m => { m with
      zeroWords := if m.zeroWords.contains (mem.toNat, addr.toNat) then m.zeroWords else m.zeroWords ++ [(mem.toNat, addr.toNat)] }

end State

/-! ### The commands of the block's own events -/

def execPageWriteDone (q : QueueId) (n : Fin 9) (s : State) : Host.Outcome State Fault Refusal := .next (s.doPageWriteDone q n)
def execPageReadIssue (q : QueueId) (s : State) : Host.Outcome State Fault Refusal := .next (s.doPageReadIssue q)
def execPageReadDone (q : QueueId) (n : Fin 9) (damage : Option Nat) (s : State) : Host.Outcome State Fault Refusal :=
  .next (s.doPageReadDone q n damage)
def execStackFailed (i : Fin 4) (s : State) : Host.Outcome State Fault Refusal := .next (s.doStackFailed i)
def execStackSelfRefresh (i : Fin 4) (s : State) : Host.Outcome State Fault Refusal := .next (s.doStackSelfRefresh i)
def execSpillPortRetry (i : Fin 8) (refused : Bool) (s : State) : Host.Outcome State Fault Refusal :=
  .next (s.doSpillPortRetry i refused)
def execPatrolScrub (i : Fin 4) (x : PatrolPass) (s : State) : Host.Outcome State Fault Refusal :=
  .next (s.doPatrolScrub i x.linkErrs x.uncorr)
def execStackLinkRetrained (i : Fin 4) (s : State) : Host.Outcome State Fault Refusal := .next (s.doStackLinkRetrained i)
def execBackgroundScrub (e : ScrubFinding) (s : State) : Host.Outcome State Fault Refusal := .next (s.doBackgroundScrub e)

/-! ### Arbiter and memory commands (Table 18.14) -/

def applyArbPrioSet (k : Nat) (p : List Byte) (s : State) : CmdResult :=
  let first := u8 p 0
  let n := u8 p 1
  checked s (p.length == 2 + n) (right0 k)
    (firstBad p ([(decide (119 < first), 0), (n == 0 || decide (120 < n) || decide (120 < first + n), 1)]
      ++ (List.range n).map fun i => (decide (7 < u8 p (2 + i)), 2 + i)) [])
    (done (s.updMem fun m => { m with
      shadow := (List.range n).foldl (fun t i => Tab.set 0 t (first + i) (u8 p (2 + i) + 1)) m.shadow }))

/-- A commit copies every shadow base into the active set and caps the aging of waiting requesters (R275). -/
def applyArbCommit (k : Nat) (p : List Byte) (s : State) : CmdResult :=
  checked s (p.length == 0) (right0 k) none
    (let s := s.updMem fun m => { m with
       active := m.shadow
       commits := m.commits + 1
       aging := Tab.mapVals 0 (fun i a => min a (15 - baseOf m.shadow (i % 120))) m.aging }
     done s (leBytes 2 s.mem.commits.toNat))

def applyArbGet (k : Nat) (p : List Byte) (s : State) : CmdResult :=
  checked s (p.length == 0) (right0 k) none
    (done s (((List.range 120).map fun i => BitVec.ofNat 8 (baseOf s.mem.shadow i))
      ++ (List.range 120).map fun i => BitVec.ofNat 8 (baseOf s.mem.active i)))

/-- MEM.BANK.SET opens and closes banks; an empty closed bank is gated, an opened one woken (R251). -/
def applyMemBankSet (k : Nat) (p : List Byte) (s : State) : CmdResult :=
  let mask := BitVec.ofNat 16 (u16 p 0)
  checked s (p.length == 2) (right0 k) none
    (if ((List.range 16).filter mask.getLsbD).length < 4 then fail s stState
     else done ((List.range 16).foldl (fun s b =>
       if mask.getLsbD b then
         if (s.bank b).opened then s else (s.updBank b fun x => { x with opened := true }).requestWake 1 (bankDom b)
       else (s.updBank b fun x => { x with opened := false }).gateIfEmpty b) s).cellsChanged)

/-- The counters of Table 7.9 with their gauges in place. -/
def memStats (s : State) : List Byte :=
  let c := fun (k : MemCtr) => leBytes 8 (Ctrs.get s.mem.ctr k.ctorIdx)
  leBytes 8 s.freeCells ++ leBytes 8 s.banksOpen ++ c .bufPressure ++ c .bufEccCorr ++ c .bufEccUncorr ++ c .bufEccDrop
    ++ c .bufUnderrunDrop ++ leBytes 8 s.freePages ++ c .spillPagesWritten ++ c .spillPagesRead ++ c .spillLinkRetry
    ++ c .spillEccUncorr ++ c .spillEccDrop ++ c .spillStackFail ++ c .spillRetry ++ c .spillBackoffMax ++ c .spillSelfRefresh

def applyMemStatsGet (k : Nat) (p : List Byte) (s : State) : CmdResult :=
  checked s (p.length == 1) (if u8 p 0 % 2 = 1 ∧ k ≠ 0 then some 0 else none) (firstBad p [(decide (1 < u8 p 0), 0)] [])
    (done (if u8 p 0 = 1 then s.updMem fun m => { m with ctr := [] } else s) (memStats s))

end Sys2Proof.Machine
end

