-- ==== Sys2Proof/Machine/Reset.lean ====
section
/-! DEFINITION. Reset (14_reset_pins_straps.md): what a domain loses when it is powered down or reset (R31), the pins of the fuse
map (R458 to R460), the reach of each source (Table 14.2), combining and release (R443 to R446), RESET_N (R449 to R451), the
reset-cause record (R466), and the start of a boot (R467 to R469, Table 15.8). -/

namespace Sys2Proof.Machine

/-! ### Numbers of the reset-cause record (Table 14.9) -/

def srcPowerOn : Nat := 0
def srcResetN : Nat := 1
def srcResetNHeld : Nat := 2
def srcWatchdog : Nat := 3
def srcDevReset : Nat := 4
def srcSideband : Nat := 5
def srcAlarm : Nat := 6
def srcThermal : Nat := 7
def srcWithdrawal : Nat := 8
def srcRailLoss : Nat := 9
def srcDomain2 : Nat := 10

/-- The sources of COLD reach that stay asserted (Table 14.1). -/
def coldSources : List Nat := [srcPowerOn, srcResetNHeld]
/-- The sources of WARM reach that stay asserted. -/
def warmSources : List Nat := [srcResetN, srcThermal, srcWithdrawal, srcRailLoss]

/-- Every domain but Heath, in the order of Table 14.3. -/
def leaveOrder : List Nat :=
  [1, 2, 3, 216] ++ (List.range 20).map (196 + ·) ++ [217] ++ (List.range 32).map (fun i => if i < 16 then 180 + i else 148 + i)
    ++ (List.range 160).map (4 + ·)

/-- The step of Table 14.3 at which a domain leaves reset. -/
def leaveStep (d : Nat) : Nat :=
  if d = 0 then 1 else if d = 1 then 4 else if d = 2 then 5 else if d = 3 then 6
  else if d = 216 ∨ d = 217 ∨ (196 ≤ d ∧ d < 216) then 7
  else if 180 ≤ d ∧ d < 196 then 8
  else if 164 ≤ d ∧ d < 180 then 9
  else 10

/-- The domains that a WARM or COLD reset stages down, each before those it depends on (R446). -/
def stageOrder : List Nat := (List.range 64).map (68 + ·) ++ (List.range 64).map (4 + ·) ++ (List.range 48).map (132 + ·)
  ++ (List.range 36).map (180 + ·) ++ [217, 216]

namespace State

/-! ### Pins (R458 to R460) -/

/-- A reset reaches a pin: it takes its fuse-map state, pull-down while the map is not applied. A held pin keeps the level it drove
(R459): that of its pulse for PPS_OUT and the triggers; on the pins of a serial message a free value, the bit under way. -/
def pinReset (s : State) (cold : Bool) (i : Nat) : State :=
  let p := s.pin i
  if !s.rst.pinMapOn then s.setPin i 0
  else if p.fuse ≠ 3 then s.setPin i p.fuse
  else if cold ∨ p.st = 0 then s.setPin i 0
  else
    let level := match p.st with
      | 1 => false
      | 2 => true
      | 3 => p.level
      | _ =>
        if i = 0 then s.ppsLevel
        else if 2 ≤ i ∧ i < 10 then s.trigLevel (i - 2)
        else (Config.open64 7 s.draws).getLsbD 0
    ({ s with draws := s.draws + 1 }.updPin i fun p => { p with level := level }).setPin i 3

/-- A reset reaches some pins. -/
def pinsReset (s : State) (cold : Bool) (l : List Nat) : State := l.foldl (fun s i => s.pinReset cold i) s

/-- The pins of the trigger outputs of a partition (Table 14.8). -/
def trigPins (s : State) (k : Nat) : List Nat := ((List.range 8).filter fun i => (s.trig i).owner == k).map (2 + ·)

/-- The pins of the ODC ports. -/
def odcPins : List Nat := (List.range 24).map (10 + ·)

/-! ### What domains lose (R31) -/

/-- A queue returns to its defaults with its frames flushed (Table 5.11). -/
def queueReset (s : State) (q : Nat) : State :=
  let fc := (s.queue q).fc
  let s := (s.flush q).updQueue q fun _ => {}
  match fc with
  | some f => s.updatePoint f.mac f.prio
  | none => s

/-- The buffer frames of a bank are lost (R31), counted as departed from their queues (R199); so are those that the reorder engines
hold in it. -/
def bankLost (s : State) (b : Nat) : State :=
  let s := s.queues.foldl (fun s p =>
    if p.2.frames.any (fun f => f.cells.contains b) then s.takeOut p.1 (fun f => f.cells.contains b) (countDeq p.1) else s) s
  s.bonds.foldl (fun s p =>
    let gone := p.2.held.filter fun h => h.frame.any fun f => f.cells.contains b
    let s := s.updBond p.1 fun g => { g with held := g.held.map fun h => if gone.contains h then { h with frame := none } else h }
    (gone.filterMap (·.frame)).foldl freeFrame s) s

/-- The contents of a stack are lost (Table 13.6). -/
def stackLost (s : State) (i : Nat) : State :=
  let s := s.queues.foldl (fun s p =>
    (p.2.pages.filter fun y => y.stack == i).foldl (fun s y =>
      if y.ph == .stored || y.ph == .reading then (s.loseStream p.1 y.start (y.start + 16384)).freePage p.1 y
      else s.updQueue p.1 fun x => { x with
        pages := x.pages.map fun z => if z.start == y.start then { z with ph := .waiting } else z }) s) s
  ((s.updStack i fun x => { x with selfRefresh := true, retraining := false }).acceptSpill i).acceptSpill (4 + i)

/-- The memories of the crossbar spine lose what they hold: queues, tables and counters return to their defaults (Table 1.4,
Table 5.11, R233, R274); a failed stack stays failed (R267). -/
def spineLost (s : State) : State :=
  let s := { s with
    queues := [], allocs := [], peaks := [], policers := [], rules := [], counters := [], slices := []
    bonds := Tab.mapVals {} (fun _ b => { owner := b.owner }) s.bonds, lags := []
    parts := Tab.mapVals {} (fun _ p => { p with cl := {} }) s.parts
    mem := { stackTab := Tab.mapVals {} (fun _ x => { failed := x.failed }) s.mem.stackTab } }
  { s with macs := Tab.mapVals {} (fun _ m => { m with ctr := [], sat := 0, asserted := [] }) s.macs }

/-- The tributary unit loses its connection memory, its streams and its ports (Table 1.4). -/
def tribLost (s : State) : State :=
  { s with
    trib := {}
    chans := Tab.mapVals {} (fun _ x => { x with trib := { binds := x.trib.binds, ctr := x.trib.ctr, tseq := x.trib.tseq } }) s.chans }

/-- An engine cluster is gone: it stays away from planning until it reports ready, with its mirror queue lost (R162, R487). -/
def clusterGone (s : State) (k : Nat) : State :=
  let s := s.updFw fun f => { f with
    absent := if f.absent.contains k then f.absent else f.absent ++ [k], mirrors := Tab.set [] f.mirrors k [] }
  (List.range 4).foldl (fun s i => if (s.chan (4 * k + i)).us.bursts.isEmpty && (s.chan (4 * k + i)).us.plans.isEmpty then s
    else s.enginesGone (4 * k + i)) s

/-- The faults that the endpoints' status shows for the management cluster follow it (Table 17.2). -/
def epFaults (s : State) (n : Nat) : State :=
  (List.range 8).foldl (fun s k => if (s.ep k).fault < 3 then s.updEp k fun e => { e with fault := n } else s) s

/-- The management firmware stops: READY falls; its log and its open list lie in domain 2 (R31, R496, R498). -/
def mgmtLost (s : State) : State :=
  let s := { s with
    fw := { s.fw with ready := false, restarting := true, mgmtFree := false }
    mgmt := { s.mgmt with alarms := [], log := [], wdogArmed := false } }
  s.epFaults 1

/-- Gorse is down: every volatile key is gone and the DRBG stands (R428, Table 8.3). -/
def gorseLost (s : State) : State :=
  let s := s.kweCut.eraseKeys
  { s with gorse := { s.gorse with drbgRun := false } }

/-- What a domain holds is lost with its power (R31, R428). -/
def domLost (s : State) (d : Nat) : State :=
  let s := s.dropReqs d
  if d = 1 then s.gorseLost
  else if d = 2 then s.mgmtLost
  else if d = 3 then { s with eps := [] }
  else if d < 4 then s
  else if d < 68 then
    let s := s.lanesOff (d - 4)
    if s.asleep (d - 4) then s else s.lineLost (d - 4)
  else if d < 132 then s.stopUpstream (d - 68)
  else if d < 164 then s.linksDown (d - 132)
  else if d < 180 then s.clusterGone (d - 164)
  else if d < 196 then s
  else if d < 212 then s.bankLost (d - 196)
  else if d < 216 then s.stackLost (d - 212)
  else if d = 216 then s.spineLost
  else s.tribLost

/-! ### Sources and episodes (R443, R444) -/

/-- A source that stays asserted, or a held command source, holds the domain (R443). -/
def held (s : State) (d : Nat) : Bool :=
  s.rst.asserted.any (fun r => coldSources.contains r || (warmSources.contains r && d != 0))
    || s.rst.heldDom.contains d
    || (4 ≤ d && d < 132 && s.rst.heldChan.contains ((d - 4) % 64))

/-- Some domains enter reset, for a source with this stretch (R443, R453, R454). -/
def enterReset (s : State) (us : Nat) (ds : List Nat) : State :=
  ds.foldl (fun s d => s.updPdom d fun p => { p with
    inReset := true, stretching := false, stretchUs := max p.stretchUs us
    epoch := if p.inReset then p.epoch else p.epoch + 1, fenced := true }) s

/-- A release frees the domains among these that nothing holds: their stretch starts (R444). -/
def freeDoms (s : State) (ds : List Nat) : State :=
  let l := ds.filter fun d => (s.pdom d).inReset && !(s.pdom d).stretching && !s.held d
  if l.isEmpty then s
  else
    let n := s.rst.releases + 1
    l.foldl (fun s d => s.updPdom d fun p => { p with stretching := true, freedBy := n })
      (s.updRst fun r => { r with releases := n })

/-- The record of an asserted source (R466): reach 0 COLD, 1 WARM, 2 MGMT, 6 SECURITY. -/
def recordCause (s : State) (reach src : Nat) : State := s.updRst fun r => { r with
  lastReach := reach, lastSrc := src, seen := r.seen ||| BitVec.ofNat 11 (2 ^ src) }

/-- The device drives RESET_N low at the assertion of a source of WARM or COLD reach (R451). -/
def driveResetN (s : State) (src : Nat) : State :=
  (s.updRst fun r => { r with
    driving := true, blanking := false, driveForN := src == srcResetN || src == srcResetNHeld }).emit (.resetN true)

/-! ### The start of a boot (R467 to R469) -/

/-- The candidates of the latched BOOT_SRC (Table 15.1). -/
def bootOrder (s : State) : List Nat := match s.rst.bootSrc with
  | 0 => [s.fw.prefB.toNat, 1 - s.fw.prefB.toNat, 2]
  | 1 => [2]
  | _ => []

/-- Recovery wait (R468): the management cluster leaves reset with its cores halted (R469). -/
def enterRecovery (s : State) : State :=
  (s.updFw fun f => { f with
    recoveryWait := true, coresHalted := true, mgmtFree := true, cands := [], restarting := false }).epFaults 2

/-- Gorse's ROM looks for a package (R467, Table 15.8): after an MGMT reset the running slot first. -/
def bootBegin (s : State) : State :=
  if s.fw.recoveryWait then s.enterRecovery
  else match s.fw.pkg with
    | some _ =>
      if s.fw.pushed then (s.updFw fun f => { f with pkg := none, pushed := false, bootSlot := 0xF }).enterRecovery
      else s.updFw fun f => { f with record := [], cands := f.bootSlot :: s.bootOrder }
    | none =>
      if s.rst.bootSrc < 2 then s.updFw fun f => { f with record := [], cands := s.bootOrder }
      else s.updFw fun f => { f with record := [], cands := [], coresHalted := true, mgmtFree := true }

/-- Gorse runs after a reset or a wake: DRK is derived unless the erasure latch is set (R309), the DRBG is instantiated (R477),
and the boot begins when the management cluster waits for it. -/
def gorseStart (s : State) : State :=
  let s := { s with gorse := { s.gorse with drk := !s.gorse.erasure, drbgRun := true, drbgReqs := 0 } }
  if (s.pdom 2).inReset && !s.fw.mgmtFree && s.fw.cands.isEmpty then s.bootBegin else s

/-! ### Out of reset (R445) -/

/-- The fuse cache is loaded and the fuse map applied to the pins (Table 14.3, steps 2 and 3). -/
def loadFuses (s : State) : State :=
  let cold := !s.rst.pinMapOn
  let s := s.updRst fun r => { r with fuseLoaded := true, pinMapOn := true }
  if cold then s.pinsReset true (List.range 50) else s.pinsReset false ((List.range 50).filter fun i => (s.pin i).st != 4)

/-- A domain waits for its turn: nothing holds it and its stretch is over. -/
def awaitsTurn (s : State) (d : Nat) : Bool := (s.pdom d).inReset && !(s.pdom d).stretching && !s.held d

/-- Its turn has come (R445); the management cluster also waits for Gorse. -/
def mayLeave (s : State) (d : Nat) : Bool :=
  s.awaitsTurn d && s.rst.fuseLoaded
    && (0 :: leaveOrder).all (fun e => decide (leaveStep d ≤ leaveStep e) || !(s.pdom e).inReset
      || ((s.pdom e).freedBy != (s.pdom d).freedBy && !(domDepsAll d).contains e))
    && (d != 2 || s.fw.mgmtFree)

/-- A domain leaves reset, as a record when it is down (R445, R454). Gorse, the management cluster and the endpoints are then
woken (R424); an open channel asks for its downstream domain. -/
def leaveReset (s : State) (d : Nat) : State :=
  let s := s.updPdom d fun p => { p with inReset := false, stretchUs := 0, fenced := p.ph != .on }
  if d = 1 then if s.powered 1 then s.gorseStart else s.requestWake 1 1
  else if d = 2 ∨ d = 3 then if s.powered d then s else s.requestWake 1 d
  else if 4 ≤ d ∧ d < 68 ∧ (s.chan (d - 4)).tc.opened ∧ !s.asleep (d - 4) then s.requestWake 1 d
  else s

/-- Every domain whose turn has come leaves reset, in the order of Table 14.3. -/
def turns (s : State) : State :=
  let s := if s.awaitsTurn 1 && !s.rst.fuseLoaded && !(s.pdom 0).inReset then s.loadFuses else s
  leaveOrder.foldl (fun s d => if s.mayLeave d then s.leaveReset d else s) s

/-- The latch of one strap field from its last three readings (R464): a pin whose readings disagree reads 0. -/
def strapBits (x : StrapSample) : BitVec 4 := x.r0 &&& x.r1 &&& x.r2

/-- A domain's stretch ends (R444, R445); at that of Heath the straps are latched (R464). -/
def doStretchEnd (s : State) (d : Nat) (x : StrapSample) : State :=
  if !(s.pdom d).stretching then s
  else
    let s := s.updPdom d fun p => { p with stretching := false, stretchUs := 0 }
    if d = 0 then
      let v := strapBits x
      let s := s.updRst fun r => { r with
        bootSrc := v.toNat % 4, clkMode := v.toNat / 4
        strapUnstable := x.r0 != x.r1 || x.r1 != x.r2 }
      (s.updPdom 0 fun p => { p with inReset := false, fenced := false, ph := .on }).turns
    else s.turns

/-! ### Narrow reaches (Table 14.2) -/

/-- What a CHANNEL or PARTITION reset does to a channel (R89, R98, R438, R463). -/
def chanReset (s : State) (c : Nat) : State :=
  let opened := (s.chan c).tc.opened
  let tested := s.inTest c
  let s := s.updUs c fun u => { u with preds := [] }
  let s := (((s.stopUpstream c).clearContext c).dropEpochs c).lanesOff c
  let s := s.updChan c fun x => { x with
    rx := { felos := x.rx.felos, felosDebUs := x.rx.felosDebUs }, us := {}, ctr := []
    tc := { x.tc with upSeq := 0, hold := none, announceCur := none, announceNext := none, feOld := [] }
    trib := { x.trib with ctr := [], adopted := false, odcLast := none } }
  let s := (List.range 4).foldl (fun s i => s.updLane (4 * c + i) fun x => { x with
    test := 0, gen := 0xFF, chk := 0xFF, genInv := false, chkInv := false, injM := 0, injE := 0, ctr := [] }) s
  let s := s.testPower c tested
  if opened then (s.setState c (if s.latched c then .silenced else .listen) .reset).bondMemberDown c else s

/-- What a PARTITION reset does to a port group (R370, R378, R405). -/
def portReset (s : State) (p : Nat) : State :=
  let s := s.linksDown p
  let s := s.updPort p fun x => ({
    owner := x.owner, ph := if x.ph = .asleep ∨ x.ph = .powering then x.ph else .awake
    wakeCause := x.wakeCause, wakeAsked := x.wakeAsked, grantedAt := x.grantedAt } : PortSt)
  (List.range 8).foldl (fun s i =>
    let s := (List.range 8).foldl (fun s k => s.queueReset (egressQ (8 * p + i) k)) s
    (s.updMac (8 * p + i) fun _ => {}).updLane (256 + 8 * p + i) fun x => { los := x.los, lol := x.lol }) s

/-- The command state of endpoint k after a PARTITION reset (R592). -/
def epReset (s : State) (k : Nat) : State := s.updEp k fun e => { e with
  epoch := 0, expSeq := none, seqReset := true, eseq := 0, lostEvents := 0, lostRestart := 0, stale := 0
  smp := { e.smp with base := 0, log2 := 0 }, ts := { e.ts with base := 0, log2 := 0 } }

/-- Rules, profiles and source configurations of a partition are gone (R233). -/
def rulesReset (s : State) (k : Nat) : State :=
  { (s.updPart k fun p => { p with cl := { cur := p.cl.cur + 1 } }) with rules := s.rules.filter fun r => r.part != k }

/-- Triggers, captures, streams, bond and LAG groups of a partition return to their defaults. -/
def groupsReset (s : State) (k : Nat) : State :=
  let s := s.pinsReset false (s.trigPins k)
  let s := s.updTime fun t => { t with
    trig := Tab.mapVals {} (fun _ x => if x.owner = k then { owner := k } else x) t.trig
    capt := Tab.mapVals {} (fun _ x => if x.owner = k then { owner := k } else x) t.capt }
  let mine := fun (x : StreamSt) => s.macOwner x.mac == k || (s.chan x.chan).owner == k
  let s := { s with
    trib := { s.trib with streams := Tab.mapVals {} (fun _ x => if mine x then {} else x) s.trib.streams }
    bonds := Tab.mapVals {} (fun _ x => if x.owner = k then { owner := k } else x) s.bonds
    lags := Tab.mapVals {} (fun _ x => if x.owner = k then {} else x) s.lags }
  s.tribPower

/-- A PARTITION reset of k takes effect (R441, Table 14.2). -/
def partReset (s : State) (k : Nat) : State :=
  let chs := (List.range 64).filter fun c => (s.chan c).owner == k
  let pts := (List.range 32).filter fun p => (s.port p).owner == k
  let s := chs.foldl (fun s c =>
    let s := (s.chanReset c).updHeath c fun h => { h with flowEn := [] }
    let s := (List.range 128).foldl (fun s l => s.queueReset (128 * c + l)) s
    let s := (List.range 64).foldl (fun s a => s.updAlloc (allocIdx c a) fun _ => {}) s
    s.updPeak c fun _ => {}) s
  let s := pts.foldl (fun s p => s.portReset p) s
  let s := ((s.rulesReset k).groupsReset k).epReset k
  let s := if s.gorse.kwe.owner = k then s.kweCut.serveKeyJobs else s
  let s := s.updGorse fun g => { g with
    ps := Tab.set none g.ps k none, kek := g.kek.filter fun e => !chs.contains e.1 }
  let s := if k ≠ 0 then s
    else
      let s := s.pinsReset false ([0, 1] ++ odcPins)
      { (s.updTime fun t => { t with ppsEn := false, todEn := false }) with trib := { s.trib with odcOn := [] } }
  -- an operation of the partition that the reset interrupts posts no result (R530)
  let s := s.updFw fun f => { f with ops := f.ops.filter fun o => o.hdr.ep.val != k }
  let dropScan := fun (x : LaneSt) => if (x.scan.map fun h => h.1.ep.val) = some k then { x with scan := none } else x
  let s := { s with lanes := Tab.mapVals {} (fun _ x => dropScan x) s.lanes }
  let ds := chs.flatMap (fun c => [dsDom c, usDom c]) ++ pts.map portDom
  (s.enterReset 10 ds).freeDoms ds

/-- CHAN.RESET (R439): HOLD keeps the source asserted. -/
def chanResetCmd (s : State) (c : Nat) (hold : Bool) : State :=
  let s := s.chanReset c
  let s := if hold && !s.rst.heldChan.contains c then s.updRst fun r => { r with heldChan := r.heldChan ++ [c] } else s
  (s.enterReset 10 [dsDom c, usDom c]).freeDoms [dsDom c, usDom c]

/-- An MGMT reset (Table 14.2, Table 15.8). -/
def mgmtReset (s : State) (src : Nat) : State :=
  let s := s.recordCause 2 src
  let s := if s.gorse.kwe.owner = 8 then s.kweCut else s
  let s := s.mgmtLost.pinsReset false ((List.range 16).map (34 + ·))
  let s := s.enterReset 10 [2]
  let s := if s.alive 1 && s.fw.cands.isEmpty then s.bootBegin else s
  s.freeDoms [2]

/-- DOMAIN.RESET of a domain other than 2 (R440): links of a port group go down, a cluster leaves planning, the tributary unit
loses its memory. -/
def domReset (s : State) (d : Nat) : State :=
  let s := if (132 ≤ d ∧ d < 180) ∨ d = 217 then s.domLost d else s
  let s := if d = 217 then s.pinsReset false odcPins else s
  (s.enterReset 10 [d]).freeDoms [d]

/-- The SECURITY reset that follows an erasure (R309). -/
def securityReset (s : State) : State :=
  let s := (s.recordCause 6 srcAlarm).kweCut
  -- the other fields of the engine's registers take their reset values (R16)
  let s := s.updKwe fun x => { lost := x.lost, cuts := x.cuts, claimBad := x.claimBad }
  let s := { s with gorse := { s.gorse with drbgRun := false } }
  (s.enterReset 10 [1]).freeDoms [1]

/-! ### WARM and COLD (Table 14.2) -/

/-- State of a channel that survives a WARM reset: the latches of Heath, and the filtered level of FELOScc. -/
def chanWarm (x : ChanSt) : ChanSt :=
  { heath := { headLatch := x.heath.headLatch, guardLatch := x.heath.guardLatch, guardArmed := x.heath.guardArmed }
    rx := { felos := x.rx.felos } }

/-- The firmware's state: what lies in flash and fuses stays (Table 15.2, R475), and across a WARM reset the count of quotes. -/
def fwKept (f : FwSt) (cold : Bool) : FwSt :=
  { hdr0 := f.hdr0, hdr1 := f.hdr1, svn := f.svn, target := { written := f.target.written, spoiled := f.target.spoiled }
    recov := f.recov, qcount := if cold then 0 else f.qcount, keyHash := f.keyHash }

/-- Management state: the flash log, its sequence and the asserted trip comparators stay; Heath's registers only across a WARM
reset (R498, R501, R503, R504). -/
def mgmtKept (m : MgmtSt) (cold : Bool) : MgmtSt :=
  if cold then { flog := m.flog, fseq := m.fseq, trips := m.trips, temps := m.temps }
  else { m with
    minorT := 95, majorT := 105, alarms := [], alarmLost := 0, log := [], flogRetry := false, flogStopped := false
    wdogArmed := false, wdogFired := false }

/-- The time unit lies in Heath: a WARM reset takes its outputs and pins only (R313, Table 14.8). -/
def timeKept (t : TimeSt) (cold : Bool) : TimeSt :=
  if cold then {} else { t with trig := [], capt := [], ptp := [], ppsEn := false, todEn := false }

/-- The state that a WARM or COLD reset leaves outside Heath, and for COLD in it (R44, R438, R507, Table 5.11, R233). -/
def wideClear (s : State) (cold : Bool) : State :=
  let s := s.chans.foldl (fun s p => (s.stopUpstream p.1).chanLosesTime p.1) s
  let s := s.pinsReset cold (List.range 50)
  let g := s.kweCut.gorse
  { s with
    chans := Tab.mapVals {} (fun _ x => if cold then { rx := { felos := x.rx.felos } } else chanWarm x) s.chans
    queues := [], allocs := [], peaks := [], policers := [], rules := [], counters := [], slices := [], bonds := [], lags := []
    mem := {}, trib := {}, ports := [], macs := []
    lanes := Tab.mapVals {} (fun _ x => { los := x.los, lol := x.lol }) s.lanes
    -- the counters restart, and count the cut of this reset (R305)
    gorse := { kwe := { lost := g.kwe.lost, cuts := g.kwe.cuts - s.gorse.kwe.cuts }, erasure := g.erasure && !cold }
    time := timeKept s.time cold
    fw := fwKept s.fw cold
    mgmt := mgmtKept s.mgmt cold
    parts := [(0, { quotas := wholeQuotas })]
    eps := []
    recRates := if cold then [] else s.recRates
    now := if cold then 0 else s.now }

/-- Bracken's settings return to their defaults with a COLD reset: budgets, energy, insertion mode (R424, R435). -/
def pwrCold (p : PwrSt) : PwrSt :=
  { p with
    railBudget := [], budgetW := 740, slew := [], overBudget := false, okRun := 0, insMode := true, baseEnergy := 0, railEnergy := [], energyCarry := []
    doms := Tab.mapVals {} (fun _ d => { d with energy := 0 }) p.doms }

/-- Heath's own part of a COLD reset (R437, R439): held command sources are released, the fuse map is off until it is loaded. -/
def rstCold (r : RstSt) : RstSt :=
  { r with
    heldChan := [], heldDom := [], thermRestart := true, thermReleases := [], thermLock := false, fuseLoaded := false
    pinMapOn := false, devReset := none
    asserted := if r.thermLock then r.asserted.filter fun x => x != srcThermal else r.asserted }

/-- Everything but Heath, Gorse, the management cluster and the endpoints is staged down (R446). -/
def stageDown (s : State) : State := stageOrder.foldl (fun s d => s.requestRelease d) s

/-- A WARM or COLD reset applies now to the whole device. -/
def wideApply (s : State) (us : Nat) (cold : Bool) : State :=
  let s := if cold then { s with rst := rstCold s.rst, pwr := pwrCold s.pwr }
    else s.updRst fun r => { r with fuseLoaded := false, devReset := none }
  let s := s.wideClear cold
  let ds := if cold then 0 :: leaveOrder else leaveOrder
  (s.enterReset us ds).stageDown

/-- A source of WARM or COLD reach asserts (R436, R438, R446, R451); `stays` for one that is not released at once. During an
emergency shutdown it applies to each domain as the shutdown leaves it, and to the rest at its end. -/
def wideReset (s : State) (src us : Nat) (cold stays : Bool) : State :=
  let s := (s.recordCause (if cold then 0 else 1) src).driveResetN src
  let s := if stays && !s.rst.asserted.contains src then s.updRst fun r => { r with asserted := r.asserted ++ [src] } else s
  match s.pwr.emergency with
  | some _ => s.updRst fun r => { r with latent := match r.latent with
      | some (u, k) => some (max u us, k || cold)
      | none => some (us, cold) }
  | none => (s.wideApply us cold).freeDoms (0 :: leaveOrder)

/-- Sources release (Table 14.1). -/
def releaseSources (s : State) (l : List Nat) : State :=
  if s.rst.asserted.any l.contains then
    (s.updRst fun r => { r with asserted := r.asserted.filter fun x => !l.contains x }).freeDoms (0 :: leaveOrder)
  else s

/-- A trip that is not released automatically ends with a RESET_N assertion or a sideband reset request (R442). -/
def endThermLock (s : State) : State :=
  if s.rst.thermLock then (s.updRst fun r => { r with thermLock := false }).releaseSources [srcThermal] else s

/-- The power-on source asserts (R436, R437): it alone resets the controller, the filters and the monitors. -/
def doPowerOn (s : State) : State :=
  let good := s.pwr.railGood.contains 6 && s.pwr.railGood.contains 7
  let s := { s with
    rst := { asserted := [srcPowerOn], xaon := s.rst.xaon && !good, releases := s.rst.releases, pins := s.rst.pins }
    pwr := { doms := Tab.mapVals {} (fun _ d => ({ epoch := d.epoch, freedBy := d.freedBy, inReset := d.inReset } : PwrDom)) s.pwr.doms
             railGood := s.pwr.railGood, railV := s.pwr.railV, railI := s.pwr.railI, measured := s.pwr.measured } }
  let s := s.wideClear true
  (s.driveResetN srcPowerOn).enterReset 1000 (0 :: leaveOrder)

/-- The power-on source releases when VAON and VIO are good and XAON runs. -/
def powerOnTest (s : State) : State :=
  if s.rst.xaon && s.pwr.railGood.contains 6 && s.pwr.railGood.contains 7 then s.releaseSources [srcPowerOn] else s

/-! ### RESET_N (R449 to R451) -/

def doResetNLow (s : State) : State :=
  if s.rst.driving || s.rst.blanking || s.rst.asserted.contains srcPowerOn then s
  else ((s.updRst fun r => { r with nLow := true }).wideReset srcResetN 100 false true).endThermLock

def doResetNHigh (s : State) : State :=
  if s.rst.driving || s.rst.blanking then s
  else (s.updRst fun r => { r with nLow := false }).releaseSources [srcResetN, srcResetNHeld]

def doResetNHeld (s : State) : State :=
  if s.rst.asserted.contains srcResetN && s.rst.nLow && !s.rst.asserted.contains srcResetNHeld then
    s.wideReset srcResetNHeld 1000 true true
  else s

/-- The drive ends once every other source of WARM or COLD reach has released. -/
def doDriveEnd (s : State) : State :=
  if s.rst.driving && s.rst.asserted.all (fun x => x == srcResetN || x == srcResetNHeld) then
    (s.updRst fun r => { r with driving := false, blanking := true }).emit (.resetN false)
  else s

def doBlankingEnd (s : State) (low : Bool) : State :=
  if !s.rst.blanking then s
  else
    let s := s.updRst fun r => { r with blanking := false }
    if !low then (s.updRst fun r => { r with nLow := false }).releaseSources [srcResetN, srcResetNHeld]
    else if s.rst.driveForN && s.rst.nLow then s
    else ((s.updRst fun r => { r with nLow := true }).wideReset srcResetN 100 false true).endThermLock

end State

end Sys2Proof.Machine
end

