-- ==== Sys2Proof/Machine/Bracken.lean ====
section
/-! DEFINITION. Bracken and insertion (13_power_insertion.md): grants and ramps (R413 to R418), power over budget (R422), energy
(R434), seating and withdrawal (R423 to R426), rails (R408, R409), the emergency shutdown (R427, R428), and the power commands of
Table 18.13. -/

namespace Sys2Proof.Machine

/-- The domains of each step of an emergency shutdown (Table 13.6), steps counted from 1. -/
def emergencyGroup (n : Nat) : List Nat :=
  let span := fun a k => (List.range k).map (a + ·)
  match n with
  | 1 => span 212 4 | 2 => span 164 16 | 3 => span 132 16 | 4 => span 148 16 | 5 => span 68 32 | 6 => span 100 32
  | 7 => span 4 32 | 8 => span 36 32 | 9 => [217] | 10 => span 180 8 | 11 => span 188 8 | 12 => span 196 8 | 13 => span 204 8
  | 14 => [216] | 15 => [2] | 16 => [1, 3] | _ => []

/-- Temperature that releases THERMTRIP_N, and rail and sensor alarms by code (Table 16.3). -/
def alTrip : Nat := 0x1003
def alRail : Nat := 0x1012
def alOver : Nat := 0x1020
def alErase : Nat := 0x1030

namespace State

/-! ### Grants (R413, R417) -/

/-- Bracken grants the wake set of a domain; a waiting port group notes the instant for its HPORT_WAKE (R381). -/
def grantNow (s : State) (cls d : Nat) : State :=
  let ds := s.wakeSet d
  let s := s.grantWake cls d
  ds.foldl (fun s e => if 132 ≤ e ∧ e < 164 then s.updPort (e - 132) fun x => { x with grantedAt := s.now } else s) s

/-- A waiting request is granted when it fits (R413, R417); a committed one needs no test of the budgets (R416). -/
def doGrant (s : State) (d : Nat) : State :=
  let x := s.pdom d
  if x.wait && s.canWake d
      && (x.cls == 0 || (s.fits (s.wakeSet d) && (s.blocker == none || s.blocker == some d) && !s.pwr.overBudget)) then
    s.grantNow x.cls d
  else s

/-- A service request has waited 1 ms (R417). -/
def doWaitLimit (s : State) (d : Nat) : State :=
  if (s.pdom d).wait && (s.pdom d).cls == 1 && !(s.pdom d).waitLimit then
    (s.updPdom d fun p => { p with waitLimit := true }).event 0x6001 0 5 d (det1 d) [0]
  else s

/-! ### Ramps (R414, R415, R418) -/

/-- Domains whose release waited for this one and that nothing needs any more begin to go down (R33). -/
def releaseFreed (s : State) (d : Nat) : State :=
  (domDeps d).reverse.foldl (fun s e => if (s.pdom e).ph == .on && (s.pdom e).releaseNext then s.requestRelease e else s) s

/-- A domain is up: what begins with its power begins. -/
def domUp (s : State) (d : Nat) : State :=
  if d = 1 then (if (s.pdom 1).inReset then s else s.gorseStart).turns
  else if 132 ≤ d ∧ d < 164 ∧ (s.port (d - 132)).ph = .powering then s.portPowered (d - 132)
  else if 212 ≤ d ∧ d < 216 then s.startWrites (d - 212)
  else if d = 216 then (List.range 16).foldl (fun s b => if (s.bank b).opened then s.requestWake 1 (bankDom b) else s) s
  else s

/-- What a domain loses when its power goes: as R31 says; the tributary unit keeps its streams, which the firmware holds, and
loses its connection memory. An upstream domain goes down between bursts (R166); only an emergency shutdown finds a burst under way
and cuts it (R428). -/
def domDown (s : State) (d : Nat) : State :=
  if d = 217 then { s with trib := { s.trib with conn := [] } }
  else if 68 ≤ d ∧ d < 132 ∧ s.burstsOver (d - 68) then s
  else s.domLost d

/-- A domain's ramp ends (R414, R418). A domain counts as powered only once those it depends on are, Gorse among them (R33, R35), and its
PLLs have locked (R37): until then the end of its switches' stages leaves it ramping. -/
def doRampEnd (s : State) (d : Nat) : State := match (s.pdom d).ph with
  | .up =>
    if !(domDeps d).all s.powered then s
    else
    let release := (s.pdom d).releaseNext
    let s := (s.updPdom d fun p => { p with ph := .on, fenced := p.inReset, releaseNext := false }).domUp d
    if release then s.requestRelease d else s
  | .down => ((s.updPdom d fun p => { p with ph := .off, fenced := true }).domDown d).releaseFreed d
  | .off | .on => s

/-! ### Power over budget (R422) -/

/-- Buffer banks are closed under R251 while at least four stay open and at least a tenth of the cells stay free. -/
def closeBanks (s : State) : State := [15, 14, 13, 12, 11, 10, 9, 8, 7, 6, 5, 4, 3, 2, 1, 0].foldl (fun s b =>
  if (s.bank b).opened && decide (4 < s.banksOpen) && decide (s.banksOpen * 24576 ≤ 10 * (s.freeCells - (24576 - (s.bank b).used)))
  then (s.updBank b fun x => { x with opened := false }).gateIfEmpty b else s) s

/-- The measured total has exceeded the budget by more than 5 % through 1 ms. -/
def doOverBudget (s : State) (measured : Nat) : State :=
  let s := s.updPwr fun p => { p with overBudget := true, okRun := 0, measured := measured }
  let s := (List.range 4).foldl (fun s i => if (s.stack i).pages = 0 then s.requestRelease (stackDom i) else s) s
  (s.closeBanks.cellsChanged).raiseAlarm alOver 2 0 0 (det1 measured) allParts

/-! ### Energy (R434) -/

/-- A domain's energy counter takes some µJ, saturating (R435). -/
def addEnergy (s : State) (d n : Nat) : State := s.updPdom d fun p => { p with energy := min (p.energy + n) ctrMax }

/-- The energy of a budgeted rail is divided among the powered domains that draw on it and the base allowance; what the division
leaves over goes to the base counter. -/
def shareRail (s : State) (r uj : Nat) : State :=
  let ds := (List.range 218).filter fun d => s.powered d && (stepCur d).getD r 0 != 0
  let w := fun d => Config.energyWeight s.draws r d
  let total := (ds.map w).sum + Config.baseWeight s.draws r
  let s' := if total = 0 then s else ds.foldl (fun s d => s.addEnergy d (uj * w d / total)) s
  let given := if total = 0 then 0 else (ds.map fun d => uj * w d / total).sum
  s'.updPwr fun p => { p with baseEnergy := min (p.baseEnergy + (uj - given)) ctrMax, railEnergy := p.railEnergy.add r uj }

/-- The whole µJ of a rail's energy in nJ with what the last interval left over. -/
def wholeUj (s : State) (nj : List Nat) (r : Nat) : Nat := (Tab.get 0 s.pwr.energyCarry r + nj.getD r 0) / 1000

/-- 10 µs of rail energy is accounted, in nJ by rail: what is below 1 µJ is carried to the next interval; VIO and VAON count in the base
counter. -/
def doEnergy (s : State) (nj : List Nat) : State :=
  let t := (List.range 6).foldl (fun t r => t.shareRail r (s.wholeUj nj r)) s
  let t := [6, 7].foldl (fun t r => t.updPwr fun p => { p with
    baseEnergy := min (p.baseEnergy + s.wholeUj nj r) ctrMax, railEnergy := p.railEnergy.add r (s.wholeUj nj r) }) t
  let t := (List.range 8).foldl (fun t r => t.updPwr fun p => { p with
    energyCarry := Tab.upd 0 p.energyCarry r fun c => (c + nj.getD r 0) % 1000 }) t
  { t with draws := t.draws + 1 }

/-! ### Emergency shutdown (R427, R428) -/

/-- The shutdown starts; one that runs goes on. No burst is committed from here (R428). -/
def startEmergency (s : State) : State := s.updPwr fun p => { p with emergency := some (p.emergency.getD 0) }

/-- A domain is released by its step; one that is off is skipped. -/
def emergencyOff (s : State) (d : Nat) : State := if (s.pdom d).ph == .off then s else (s.domLost d).rampDown d

/-- A reset that waits for the shutdown reaches the domains its step leaves (R446). -/
def latentReach (s : State) (ds : List Nat) : State := match s.rst.latent with
  | some x => s.enterReset x.1 ds
  | none => s

/-- The shutdown is over: a waiting reset applies to the rest of the device. -/
def endEmergency (s : State) : State :=
  let s := s.updPwr fun p => { p with emergency := none }
  match s.rst.latent with
  | some (us, cold) =>
    ((s.updRst fun r => { r with latent := none }).wideApply us cold).freeDoms (0 :: leaveOrder)
  | none => s

/-- The next step of the shutdown begins (Table 13.6). -/
def doEmergencyStep (s : State) : State := match s.pwr.emergency with
  | none => s
  | some n =>
    let g := emergencyGroup (n + 1)
    let s := s.updPwr fun p => { p with emergency := some (n + 1) }
    let s := (g.foldl (fun s d => s.emergencyOff d) s).latentReach g
    if 16 ≤ n + 1 then s.endEmergency else s

/-! ### Insertion (R423 to R426) -/

/-- Every rail is good. -/
def allRails (s : State) : Bool := (List.range 8).all s.pwr.railGood.contains

/-- The sources that seating and good rails release (Table 14.1). -/
def railsRelease (s : State) : State :=
  if s.allRails && s.pwr.seated then
    (s.updPwr fun p => { p with lockout := false }).releaseSources [srcRailLoss]
  else s

/-- The card is seated (R423, R424). -/
def doSeated (s : State) : State :=
  if s.pwr.seated then s
  else
    let s := (s.updPwr fun p => { p with seated := true }).releaseSources [srcWithdrawal]
    let s := s.railsRelease
    if !(s.pdom 1).inReset && (s.pdom 1).ph == .off then s.requestWake 1 1 else s

/-- The card is withdrawn (R426). -/
def doWithdrawal (s : State) : State :=
  if !s.pwr.seated then s
  else
    let s := s.updPwr fun p => { p with seated := false, insMode := true }
    let s := (List.range 64).foldl (fun s c =>
      if (s.chan c).tc.opened then s.chanCondition c 6 0 else s) s
    s.startEmergency.wideReset srcWithdrawal 100 false true

/-- Insertion mode ends, and PWR_RELEASED says who ended it (R425). -/
def release (s : State) (by_ : Nat) : State :=
  if s.pwr.insMode then
    (s.updPwr fun p => { p with insMode := false }).event 0x6002 0 0 0 (det1 by_) allParts
  else s

/-! ### Rails (R408, R409, R427) -/

/-- A domain that draws on a rail is powered (R409). -/
def railDrawn (s : State) (r : Nat) : Bool :=
  (List.range 218).any fun d => d != 0 && s.drawing d && decide (r < 6) && (stepCur d).getD r 0 != 0

/-- Power good is lost on a rail. -/
def doRailLoss (s : State) (r : Nat) : State :=
  let s := s.updPwr fun p => { p with railGood := p.railGood.erase r }
  if 6 ≤ r then s.doPowerOn
  else if s.railDrawn r then
    let s := (s.raiseAlarm alRail 3 6 r (det1 r) allParts).updPwr fun p => { p with lockout := true }
    s.startEmergency.wideReset srcRailLoss 100 false true
  else s

/-- A rail becomes good. -/
def doRailGood (s : State) (r : Nat) : State :=
  let s := s.updPwr fun p => { p with railGood := if p.railGood.contains r then p.railGood else p.railGood ++ [r] }
  ((s.clearAlarm alRail 6 r).powerOnTest).railsRelease

/-- A rail's current has been above its maximum through 10 µs (R427). -/
def doOvercurrent (s : State) (r : Nat) : State :=
  (s.raiseAlarm alRail 3 6 r (det1 r) allParts).startEmergency

/-! ### Thermal trip (R427, R428, R442, R491) -/

def doTrip (s : State) (sensor : Nat) : State :=
  let s := s.updMgmt fun m => { m with trips := if m.trips.contains sensor then m.trips else m.trips ++ [sensor] }
  let s := s.raiseAlarm alTrip 3 7 sensor (det1 sensor) allParts
  let s := if s.pwr.thermtrip then s else (s.updPwr fun p => { p with thermtrip := true }).emit (.thermtrip true)
  s.startEmergency.wideReset srcThermal 100 false true

/-- Tj is below 100 °C: THERMTRIP_N rises, and the thermal source releases where R442 lets it, at most three times in 60 minutes. -/
def doThermRestart (s : State) : State :=
  let s := s.mgmt.trips.foldl (fun s i => s.clearAlarm alTrip 7 i) s
  let s := s.updMgmt fun m => { m with trips := [] }
  let s := if s.pwr.thermtrip then (s.updPwr fun p => { p with thermtrip := false }).emit (.thermtrip false) else s
  if !s.rst.asserted.contains srcThermal then s
  else
    let recent := s.rst.thermReleases.filter fun t => decide (s.now < t + 3600000000000000)
    if s.rst.thermRestart && decide (recent.length < 3) then
      (s.updRst fun r => { r with thermReleases := recent ++ [s.now] }).releaseSources [srcThermal]
    else s.updRst fun r => { r with thermReleases := recent, thermLock := true }

/-! ### XAON, erasure -/

/-- XAON runs (R436). -/
def doXaon (s : State) : State := (s.updRst fun r => { r with xaon := true }).powerOnTest

/-- An erasure source zeroes every volatile key (R309): channel keys, secrets and wrapping keys, whatever was to become current. -/
def doErasure (s : State) (src : Nat) : State :=
  let s := (List.range 64).foldl (fun s c => s.suspectCheck c) s.eraseKeys
  let s := { s with gorse := { s.gorse with erasure := true } }
  (s.raiseAlarm alErase 3 0 0 (det1 src) allParts).securityReset

end State

/-! ### Commands of the hardware -/

def execBrackenGrant (d : DomainId) (s : State) : Host.Outcome State Fault Refusal := .next (s.doGrant d)
def execServiceWaitLimit (d : DomainId) (s : State) : Host.Outcome State Fault Refusal := .next (s.doWaitLimit d)
def execPowerOverBudget (measured : Nat) (s : State) : Host.Outcome State Fault Refusal := .next (s.doOverBudget measured)
def execEnergyIntegration (nj : List Nat) (s : State) : Host.Outcome State Fault Refusal := .next (s.doEnergy nj)
def execCardSeated (s : State) : Host.Outcome State Fault Refusal := .next s.doSeated
def execCardWithdrawal (s : State) : Host.Outcome State Fault Refusal := .next s.doWithdrawal
def execRailPowerGoodLoss (r : Fin 8) (s : State) : Host.Outcome State Fault Refusal := .next (s.doRailLoss r)
def execRailPowerGood (r : Fin 8) (s : State) : Host.Outcome State Fault Refusal := .next (s.doRailGood r)
def execRailOvercurrent (r : Fin 8) (s : State) : Host.Outcome State Fault Refusal := .next (s.doOvercurrent r)
def execThermalTrip (i : Fin 48) (s : State) : Host.Outcome State Fault Refusal := .next (s.doTrip i)
def execEmergencyStep (s : State) : Host.Outcome State Fault Refusal := .next s.doEmergencyStep
def execThermalRestart (s : State) : Host.Outcome State Fault Refusal := .next s.doThermRestart
def execPowerOn (s : State) : Host.Outcome State Fault Refusal := .next s.doPowerOn
def execXaonRunning (s : State) : Host.Outcome State Fault Refusal := .next s.doXaon
def execResetNLow (s : State) : Host.Outcome State Fault Refusal := .next s.doResetNLow
def execResetNHigh (s : State) : Host.Outcome State Fault Refusal := .next s.doResetNHigh
def execResetNHeld (s : State) : Host.Outcome State Fault Refusal := .next s.doResetNHeld
def execResetNDriveEnd (s : State) : Host.Outcome State Fault Refusal := .next s.doDriveEnd
def execBlankingEnd (low : Bool) (s : State) : Host.Outcome State Fault Refusal := .next (s.doBlankingEnd low)
def execErasureAlarm (src : Fin 5) (s : State) : Host.Outcome State Fault Refusal := .next (s.doErasure src)
def execEngineClusterFault (k : Fin 16) (s : State) : Host.Outcome State Fault Refusal := .next (s.clusterGone k)

/-! ### Table 18.13 -/

def applyPwrBudgetSet (k : Nat) (p : List Byte) (s : State) : CmdResult :=
  let rails := (List.range 6).map fun r => u32 p (4 * r)
  let slews := (List.range 6).map fun r => u32 p (28 + 4 * r)
  let w := u32 p 24
  let bad := (List.range 6).map (fun r =>
      (decide (10 * rails.getD r 0 < railMax.getD r 0) || decide (railMax.getD r 0 < rails.getD r 0), 4 * r))
    ++ [(decide (w < 60) || decide (740 < w), 24)]
    ++ (List.range 6).map fun r => (decide (slews.getD r 0 < 500) || decide (64000 < slews.getD r 0), 28 + 4 * r)
  let l := s.ledgers
  let low := (List.range 6).any (fun r =>
      decide (25 * slews.getD r 0 < s.slewFloor25 0 r) || decide (rails.getD r 0 < l.getD r 0))
    || decide (w * 10000000 < s.powerTotal l)
  checked s (p.length == 52) (right0 k) (firstBad p bad [])
    (if low then fail s stState
     else done (s.updPwr fun x => { x with
       railBudget := ((List.range 6).zip rails).filter fun e => e.2 ≠ 0
       budgetW := w
       slew := ((List.range 6).zip slews).filter fun e => e.2 ≠ 0 }))

def applyPwrRelease (k : Nat) (p : List Byte) (s : State) : CmdResult :=
  checked s (p.length == 0) (right0 k) none (if s.pwr.seated then done (s.release 0) else fail s stState)

/-- A partition sees the domains of its own channels and port groups, partition 0 every one (R435). -/
def State.seesDom (s : State) (k d : Nat) : Bool :=
  k == 0 || (decide (4 ≤ d ∧ d < 132) && (s.chan ((d - 4) % 64)).owner == k)
    || (decide (132 ≤ d ∧ d < 164) && (s.port (d - 132)).owner == k)

def applyPwrEnergyGet (k : Nat) (p : List Byte) (s : State) : CmdResult :=
  let a := u8 p 0
  let n := u8 p 1
  let named := (List.range n).map (a + ·)
  let hidden := named.find? fun d => decide (d < 218) && !s.seesDom k d
  checked s (p.length == 2) hidden (firstBad p [(decide (217 < a), 0), (n == 0 || decide (218 < a + n), 1)] [])
    (done s ((named.flatMap fun d => leBytes 8 (s.pdom d).energy) ++ leBytes 8 s.pwr.baseEnergy
      ++ (List.range 8).flatMap fun r => leBytes 8 (Ctrs.get s.pwr.railEnergy r)))

/-- A domain's byte of PWR.STATE.GET; Heath is always powered. -/
def State.domByte (s : State) (d : Nat) : Byte :=
  let ph := if d = 0 then 3 else (s.pdom d).ph.ctorIdx
  BitVec.ofNat 8 (ph + (if s.reserved d then 8 else 0) + 16 * (s.pdom d).cls)

def applyPwrStateGet (_k : Nat) (p : List Byte) (s : State) : CmdResult :=
  checked s (p.length == 0) none none
    (done s ((List.range 218).map s.domByte ++ zeros 6 ++ s.ledgers.flatMap (leBytes 4)
      ++ (List.range 6).flatMap (fun r => leBytes 4 (s.railBudget r)) ++ leBytes 2 s.budgetW
      ++ leBytes 2 (min s.pwr.measured 65535)
      ++ [BitVec.ofNat 8 (s.pwr.insMode.toNat + 2 * s.pwr.seated.toNat)] ++ zeros 11
      ++ (List.range 218).flatMap fun d => leBytes 4 (min (s.pdom d).orphan 4294967295) ++ leBytes 4 (min (s.pdom d).absent 4294967295)))

/-- A domain that DOMAIN.RESET cannot take now (R440): it holds cells, pages or an enabled stream. -/
def State.domBusy (s : State) (d : Nat) : Bool :=
  if 196 ≤ d ∧ d < 212 then decide (0 < (s.bank (d - 196)).used)
  else if 212 ≤ d ∧ d < 216 then decide (0 < (s.stack (d - 212)).pages)
  else if d = 217 then s.trib.streams.any fun x => x.2.en
  else false

/-- The domains DOMAIN.RESET does not name (R440). -/
def domBarred (d : Nat) : Bool := decide (217 < d) || d == 0 || d == 1 || d == 3 || d == 216 || decide (4 ≤ d ∧ d < 132)

def applyDomainReset (k : Nat) (p : List Byte) (s : State) : CmdResult :=
  let d := u8 p 0
  let f := u8 p 1
  checked s (p.length == 2) (right0 k) (firstBad p [(domBarred d, 0), (decide (2 < f), 1)] [])
    (if f = 2 then
       if s.rst.heldDom.contains d then
         done ((s.updRst fun r => { r with heldDom := r.heldDom.filter fun x => x != d }).freeDoms [d])
       else fail s stState
     else if s.domBusy d then fail s stState
     else
       let s := if f = 1 ∧ !s.rst.heldDom.contains d then s.updRst fun r => { r with heldDom := r.heldDom ++ [d] } else s
       done (if d = 2 then s.mgmtReset srcDomain2 else s.domReset d))

end Sys2Proof.Machine
end

