-- ==== Sys2Proof/Machine/Mgmt.lean ====
section
/-! DEFINITION. Sensors, rails, alarms and logs (16_management_sensors_log.md): samples and warning alarms (R490 to R493), the
flash log (R500 to R502), and the commands of Table 18.15. -/

namespace Sys2Proof.Machine

/-- Tolerance of a rail in 0.1 mV (Table 13.1). -/
def railTol (r : Nat) : Nat := match r with
  | 0 => 100
  | 6 | 7 => railNominal.getD r 0 * 5 / 100
  | _ => railNominal.getD r 0 * 3 / 100

/-- A rail's voltage in 0.1 mV lies outside its tolerance (R406). -/
def railOut (r v : Nat) : Bool := decide (v + railTol r < railNominal.getD r 0) || decide (railNominal.getD r 0 + railTol r < v)
/-- A rail's current in 10 mA exceeds 95 % of its maximum (R493). -/
def railHigh (r i : Nat) : Bool := decide (railMaxAll.getD r 0 * 95 < i * 1000)

/-- The 32 bytes of a log record (Table 16.4); a result event's record holds the first 8 bytes of its payload. -/
def EvRec.bytes (r : EvRec) : List Byte :=
  let body := leBytes 4 r.seq ++ leBytes 6 r.time.sec ++ leBytes 4 r.time.ns ++ leBytes 2 r.code
    ++ [BitVec.ofNat 8 (64 * r.sev + 32 * r.raised.toNat + 16 * r.flash.toNat + r.pstate),
        BitVec.ofNat 8 ((r.parts.map fun k => 2 ^ k).sum), BitVec.ofNat 8 r.kind, 0]
    ++ leBytes 2 r.idx ++ slice r.detail 0 8
  body ++ leBytes 2 (crc16 body).toNat

namespace State

/-! ### Temperatures (R490 to R492) -/

/-- A warning alarm is raised for the first sensor at its threshold, unless the alarm is open. -/
def tempAlarm (s : State) (code sev thr : Nat) : State :=
  if s.mgmt.alarms.any (fun a => a.code == code && a.present) then s
  else match (List.range 48).find? fun i => decide ((16 * thr : Int) ≤ Tab.get 0 s.mgmt.temps i) with
    | some i => s.raiseAlarm code sev 7 i (det2 i (satS 32 (Tab.get 0 s.mgmt.temps i))) allParts
    | none => s

/-- The 48 thermal sensors are sampled, in 1/16 °C (R492). -/
def doSensorSample (s : State) (temps : List Int) : State :=
  let s := s.updMgmt fun m => { m with temps := ((List.range 48).zip temps).filter fun e => e.2 ≠ 0 }
  (s.tempAlarm 0x1001 1 s.mgmt.minorT).tempAlarm 0x1002 2 s.mgmt.majorT

/-- Every sensor has read at least 3 °C below a threshold for 1 s. -/
def doTempClear (s : State) (major : Bool) : State :=
  let code := if major then 0x1002 else 0x1001
  let thr := if major then s.mgmt.majorT else s.mgmt.minorT
  if (List.range 48).all (fun i => decide (Tab.get 0 s.mgmt.temps i ≤ 16 * ((thr : Int) - 3))) then
    match s.mgmt.alarms.find? fun a => a.code == code && a.present with
    | some a => s.clearAlarm code 7 a.idx
    | none => s
  else s

/-! ### Rails (R422, R493) -/

/-- A run of samples that show a condition through 1 ms raises its alarm. -/
def railAlarm (s : State) (r code sev run reading : Nat) : State :=
  if 100 ≤ run ∧ !s.alarmOpen code 6 r then s.raiseAlarm code sev 6 r (det2 r reading) allParts else s

/-- One rail's sample. -/
def railTake (s : State) (r : Nat) (x : RailReading) : State :=
  let out := if railOut r x.v && s.pwr.railGood.contains r then Tab.get 0 s.mgmt.railOutRun r + 1 else 0
  let high := if railHigh r x.i then Tab.get 0 s.mgmt.railHiRun r + 1 else 0
  let s := s.updPwr fun p => { p with railV := Tab.set 0 p.railV r x.v, railI := Tab.set 0 p.railI r x.i }
  let s := s.updMgmt fun m => { m with
    railOutRun := Tab.set 0 m.railOutRun r (min out 100), railHiRun := Tab.set 0 m.railHiRun r (min high 100) }
  (s.railAlarm r 0x1010 2 out x.v).railAlarm r 0x1011 1 high x.i

/-- The measured power has been within the budget for 1 ms: the restriction of R422 ends. -/
def overTest (s : State) : State :=
  if !s.pwr.overBudget then s
  else if s.budgetW * 10 < s.pwr.measured then s.updPwr fun p => { p with okRun := 0 }
  else if s.pwr.okRun + 1 < 100 then s.updPwr fun p => { p with okRun := p.okRun + 1 }
  else (s.updPwr fun p => { p with overBudget := false, okRun := 0 }).clearAlarm alOver 0 0

/-- The eight rails are sampled; their sum is the measured power total in 0.1 W. -/
def doRailSample (s : State) (vs : List RailReading) : State :=
  let s := ((List.range 8).zip vs).foldl (fun s e => s.railTake e.1 e.2) s
  (s.updPwr fun p => { p with measured := (vs.map fun x => x.v * x.i).sum / 100000 }).overTest

/-- A rail alarm's condition has been absent for 100 ms. -/
def doRailClear (s : State) (r : Nat) (current : Bool) : State :=
  if current then if Tab.get 0 s.mgmt.railHiRun r = 0 then s.clearAlarm 0x1011 6 r else s
  else if Tab.get 0 s.mgmt.railOutRun r = 0 then s.clearAlarm 0x1010 6 r else s

/-! ### Flash log (R500 to R502) -/

/-- The record to copy next: one the last-gasp buffer holds whose log is lost comes first (R501), then the oldest of the log. -/
def flashNext (s : State) : Option EvRec :=
  match s.mgmt.gasp.find? fun g => !s.mgmt.log.any fun r => r.seq == g.seq with
  | some g => some g
  | none => s.mgmt.log.find? fun r => decide (2 ≤ r.sev) && !r.flash

/-- The alarm of a failed flash log stands in the open list and the on-chip log only (R502). -/
def flashFailed (s : State) : State :=
  let sector := (s.mgmt.fseq / 128 + 1) % 256
  let s := if s.alarmOpen 0x1052 0 0 then s else s.enterAlarm 0x1052 2 0 0 allParts
  s.logAppend { code := 0x1052, sev := 2, raised := true, kind := 0, idx := 0, detail := det1 sector, time := s.presented
                pstate := s.pstate, parts := allParts, seq := 0, flash := false }

/-- A record is copied to flash, or the write fails: the first failure is tried again, the second stops the flash log. -/
def doFlashWrite (s : State) (ok : Bool) : State :=
  if s.mgmt.flogStopped || !s.fw.ready then s
  else match s.flashNext with
    | none => s
    | some r =>
      if ok then s.updMgmt fun m =>
        let l := m.flog ++ [{ r with seq := m.fseq, flash := true }]
        { m with
          flog := if 4096 < l.length then l.drop 1 else l
          fseq := (m.fseq + 1) % 4294967296
          flogRetry := false
          gasp := m.gasp.filter fun g => g.seq != r.seq
          log := m.log.map fun x => if x.seq == r.seq then { x with flash := true } else x }
      else if s.mgmt.flogRetry then (s.updMgmt fun m => { m with flogRetry := false, flogStopped := true }).flashFailed
      else s.updMgmt fun m => { m with flogRetry := true }

/-- The flash log record of an age, 0 the newest (R500). -/
def flogAge (s : State) (n : Nat) : Option EvRec := if n < s.mgmt.flog.length then s.mgmt.flog[s.mgmt.flog.length - 1 - n]? else none

end State

/-! ### Commands of the hardware -/

def execSensorSample (temps : List Int) (s : State) : Host.Outcome State Fault Refusal := .next (s.doSensorSample temps)
def execTempAlarmClear (major : Bool) (s : State) : Host.Outcome State Fault Refusal := .next (s.doTempClear major)
def execRailSample (vs : List RailReading) (s : State) : Host.Outcome State Fault Refusal := .next (s.doRailSample vs)
def execRailAlarmClear (r : Fin 8) (current : Bool) (s : State) : Host.Outcome State Fault Refusal :=
  .next (s.doRailClear r current)
def execFlashLogWrite (ok : Bool) (s : State) : Host.Outcome State Fault Refusal := .next (s.doFlashWrite ok)

/-! ### Table 18.15 -/

def applySensorGet (k : Nat) (p : List Byte) (s : State) : CmdResult :=
  let rails := (List.range 8).flatMap fun r => leBytes 4 (Tab.get 0 s.pwr.railV r) ++ leBytes 4 (Tab.get 0 s.pwr.railI r)
  checked s (p.length == 0) none none
    (done s ((List.range 48).flatMap (fun i => sBytes 2 (Tab.get 0 s.mgmt.temps i))
      ++ if k = 0 then rails ++ leBytes 4 s.pwr.measured else zeros 68))

def applyAlarmThreshSet (k : Nat) (p : List Byte) (s : State) : CmdResult :=
  let a := u8 p 0
  let b := u8 p 1
  let out := fun t => decide (t < 60) || decide (110 < t)
  checked s (p.length == 2) (right0 k) (firstBad p [(out a || decide (b ≤ a), 0), (out b, 1)] [])
    (done (s.updMgmt fun m => { m with minorT := a, majorT := b }))

def applyAlarmAck (k : Nat) (p : List Byte) (s : State) : CmdResult :=
  let key := State.sameAlarm (u16 p 0) (u8 p 2) (u16 p 4)
  checked s (p.length == 6) (right0 k) (firstBad p [(decide (9 < u8 p 2), 2)] [(3, 1)])
    (if s.mgmt.alarms.any (fun a => key a && a.sev == 3 && !a.present && a.listed) then
       done (s.updMgmt fun m => { m with alarms := m.alarms.filter fun a => !key a })
     else fail s stState)

def applyLogRead (k : Nat) (p : List Byte) (s : State) : CmdResult :=
  let from_ := u32 p 0
  let n := u16 p 4
  let later := fun (r : EvRec) => decide (0 ≤ (BitVec.ofNat 32 r.seq - BitVec.ofNat 32 from_).toInt)
  let l := (s.mgmt.log.filter fun r => later r && r.parts.contains k).take n
  checked s (p.length == 6) none (firstBad p [(n == 0 || decide (2047 < n), 4)] [])
    (done s (leBytes 4 ((l.head?.map (·.seq)).getD from_) ++ leBytes 4 l.length ++ l.flatMap EvRec.bytes))

def applyFlogRead (k : Nat) (p : List Byte) (s : State) : CmdResult :=
  let a := u16 p 0
  let n := u16 p 2
  checked s (p.length == 4) (right0 k) (firstBad p [(decide (4095 < a), 0), (n == 0 || decide (2047 < n), 2)] [])
    (done s (((List.range n).filterMap fun i => s.flogAge (a + i)).flatMap EvRec.bytes))

def applyWdogSet (k : Nat) (p : List Byte) (s : State) : CmdResult :=
  checked s (p.length == 4) (right0 k) (firstBad p [(decide (u32 p 0 < 10) || decide (10000 < u32 p 0), 0)] [])
    (done (s.updMgmt fun m => { m with wdogNext := u32 p 0 }))

end Sys2Proof.Machine
end

