-- ==== Sys2Proof/Machine/Summary.lean ====
section
/-! DEFINITION. The SUMMARY record (Tables 17.13 to 17.15), the digests of R534, the reset-cause record as a word (Table 14.9), and
what a partition owns. -/

namespace Sys2Proof.Machine

/-- A byte of flags, bit i as the list gives it. -/
def flagByte (l : List Bool) : Byte := BitVec.ofNat 8 (((List.range l.length).zip l).map fun e => if e.2 then 2 ^ e.1 else 0).sum
/-- A bit per index below n, in whole bytes, least significant first. -/
def maskBytes (n : Nat) (sel : Nat → Bool) : List Byte :=
  (List.range (n / 8)).map fun i => flagByte ((List.range 8).map fun j => sel (8 * i + j))

/-- Order of alarms by code; those of one code keep their order of raising. -/
def insertAlarm (a : AlarmSt) : List AlarmSt → List AlarmSt
  | [] => [a]
  | b :: l => if a.code < b.code then a :: b :: l else b :: insertAlarm a l

/-- An entry of Table 17.15. -/
def AlarmSt.bytes (a : AlarmSt) : List Byte :=
  leBytes 2 a.code ++ [BitVec.ofNat 8 (64 * a.sev + 32 * a.present.toNat + 16 * (a.sev == 3 && !a.present).toNat), BitVec.ofNat 8 a.kind]
    ++ leBytes 2 a.idx ++ [0, 0] ++ leBytes 4 a.raises ++ leBytes 4 a.first.sec

namespace State

/-- IDENT_LOST (R480): no copy of the identity store unwraps, or DRK is absent. -/
def identLost (s : State) : Bool := !Config.identStoreGood || !s.gorse.drk

/-- RST_CAUSE (Table 14.9). -/
def rstCause (s : State) : Nat :=
  s.rst.lastReach * 268435456 + s.rst.lastSrc * 16777216 + s.rst.strapUnstable.toNat * 65536 + s.rst.seen.toNat

/-! ### Ownership (R42, R45) -/

def ownChanBytes (s : State) (k : Nat) : List Byte := maskBytes 64 fun c => (s.chan c).owner == k
/-- Channels, port groups, trigger and capture pins, bond and LAG groups a partition owns: bytes 112 to 139 of SUMMARY. -/
def ownBytes (s : State) (k : Nat) : List Byte :=
  s.ownChanBytes k ++ maskBytes 32 (fun p => (s.port p).owner == k) ++ maskBytes 8 (fun i => (s.trig i).owner == k)
    ++ maskBytes 8 (fun i => decide (i < 4) && (s.capt i).owner == k) ++ [0, 0]
    ++ maskBytes 32 (fun g => (s.bond g).owner == k)
    ++ maskBytes 64 (fun g => !(s.lag g).members.isEmpty && (s.lag g).owner == k)

/-- Quotas in the order of Table 16.9, as SUMMARY and PART.GET give them: seven of 32 bits, then key profiles. -/
def quotaBytes (s : State) (k : Nat) : List Byte := (List.range 7).flatMap (fun i => leBytes 4 (s.quota k i)) ++ leBytes 1 (s.quota k 7)

/-! ### Digests (R534, Table 15.7) -/

def digestBytes (d : BitVec 256) : List Byte := beBytes 32 d.toNat
def queueDigest (s : State) (k : Nat) : List Byte :=
  digestBytes (sha256 (((List.range 10240).filter fun q => s.queueOwner q == k).flatMap (queueRecord s)))
def allocDigest (s : State) (k : Nat) : List Byte :=
  digestBytes (sha256 (((List.range 64).filter fun c => (s.chan c).owner == k).flatMap fun c =>
    (List.range 64).flatMap (allocRecord s c)))
def chanDigest (s : State) (c : Nat) : List Byte :=
  (digestBytes (sha256 ((List.range 128).flatMap (fun l => queueRecord s (128 * c + l))
    ++ (List.range 64).flatMap (allocRecord s c)))).take 8
/-- Image digests of clusters 0 to 15; zero for one that has loaded none. -/
def imageDigests (s : State) : List Byte := (List.range 16).flatMap fun k =>
  digestBytes (((Tab.get none s.fw.images k).map (·.1)).getD 0)
def engDigest (s : State) : List Byte := digestBytes (sha256 s.imageDigests)
def pkgDigest (s : State) : List Byte := digestBytes ((s.fw.pkg.map (·.digest)).getD 0)

/-! ### The record (R533) -/

/-- Planning of the channel falls to the fallback planner: its cluster is away (R162). -/
def fallbackPlanning (s : State) (c : Nat) : Bool := s.fw.absent.contains (c / 4) || !s.alive (engDom (c / 4))

/-- The slot of a current key, 0 for none. -/
def currentSlot (a b : KeyReg) : Nat := if a.ph = .current then 1 else if b.ph = .current then 2 else 0

/-- A channel's entry (Table 17.14). -/
def chanEntry (s : State) (k c : Nat) : List Byte :=
  let x := s.chan c
  let t := x.tc
  if x.owner ≠ k then 0xFF :: zeros 31
  else
    [BitVec.ofNat 8 (if t.opened then t.st.code else 0),
     flagByte [x.cfg.enc, x.rx.aligned, x.rx.lock, (s.pdom (dsDom c)).inReset || (s.pdom (usDom c)).inReset,
       s.fallbackPlanning c, x.heath.guardLatch, x.heath.headLatch, t.opened && t.st == .doze]]
    ++ leBytes 2 t.tid.toNat ++ leBytes 3 t.eqd
    ++ [((t.epochs.filter Epoch.complete).getLast?.map (·.num)).getD 0]
    ++ leBytes 2 x.cfg.feDs ++ leBytes 2 x.cfg.feUs ++ leBytes 2 ((x.rx.treeTag.map (·.toNat)).getD 0)
    ++ leBytes 2 ((t.defAlloc.map (·.toNat)).getD 0) ++ leBytes 6 (((x.rx.prevSfc <|> t.hold.map (·.sfc)).map (·.toNat)).getD 0)
    ++ [BitVec.ofNat 8 (64 * currentSlot x.keys.ds1 x.keys.ds2 + 16 * currentSlot x.keys.us1 x.keys.us2
          + 8 * x.keys.bc.live.toNat + 4 * (anySuspect x.keys).toNat),
        BitVec.ofNat 8 (t.allocs.filter fun e => e.2.isSome).length]
    ++ s.chanDigest c

/-- The open alarms of a partition in ascending code order (R496). -/
def alarmsOf (s : State) (k : Nat) : List AlarmSt :=
  (s.mgmt.alarms.filter fun a => a.listed && a.parts.contains k).foldl (fun l a => insertAlarm a l) []

/-- The SUMMARY record of partition k. -/
def summary (s : State) (k : Nat) : List Byte :=
  let e := s.ep k
  let al := s.alarmsOf k
  [0x4C, 0x4D, 0x44, 0x53] ++ leBytes 2 1 ++ [BitVec.ofNat 8 k, flagByte [s.fw.pushed, s.identLost]]
    ++ leBytes 4 (2384 + 16 * al.length) ++ leBytes 2 e.epoch.toNat ++ [0, 0] ++ leBytes 4 ((e.expSeq.map (·.toNat)).getD 0)
    ++ leBytes 4 e.eseq.toNat ++ beBytes 8 Config.serial.toNat ++ leBytes 2 Config.siRev ++ [bByte Config.variant48, 0]
    ++ leBytes 8 ((s.fw.pkg.map (·.imgVer.toNat)).getD 0) ++ s.pkgDigest ++ s.engDigest ++ leBytes 4 s.rstCause
    ++ s.ownBytes k ++ s.quotaBytes k ++ zeros 3
    ++ leBytes 4 (s.part k).cl.cur ++ leBytes 4 (s.part k).cl.drain ++ leBytes 4 (s.part k).cl.staged.length
    ++ s.queueDigest k ++ s.allocDigest k
    ++ [BitVec.ofNat 8 s.time.active, BitVec.ofNat 8 s.pstate, domStateByte s 0, domStateByte s 1]
    ++ [BitVec.ofNat 8 ((s.dom 0).chan.getD 255), BitVec.ofNat 8 ((s.dom 1).chan.getD 255), 0, 0]
    ++ sBytes 8 (s.time.ofs.tdiv fracU) ++ leBytes 6 s.presented.sec ++ leBytes 4 s.presented.ns
    ++ [flagByte [s.pwr.insMode, s.pwr.seated], 0] ++ leBytes 2 s.budgetW ++ leBytes 2 (min s.pwr.measured 65535)
    ++ [BitVec.ofNat 8 s.gorse.kwe.owner, bByte s.gorse.kwe.lost, 0, 0]
    ++ leBytes 4 e.lostEvents ++ leBytes 4 e.lostRestart ++ leBytes 4 s.mgmt.alarmLost ++ leBytes 4 e.stale
    ++ leBytes 2 ((s.fw.ops.filter fun o => o.hdr.ep.val == k).length + (s.lanes.filter fun l =>
        (l.2.scan.map fun h => h.1.ep.val) == some k).length) ++ zeros 18
    ++ (List.range 64).flatMap (s.chanEntry k) ++ leBytes 2 al.length ++ zeros 14 ++ al.flatMap AlarmSt.bytes

end State

end Sys2Proof.Machine
end

