-- ==== Sys2Proof/Machine/Boot.lean ====
section
/-! DEFINITION. Boot, entropy, identity and firmware update (15_boot_identity_update.md): candidates (R467 to R474), READY (R476), the
DRBG (R477, R478), quotes (R481), update and activation (R482 to R488), the watchdog (R503), the packages pushed through the mailbox
and the sideband window (R506, R536), and the commands of Table 18.16. -/

namespace Sys2Proof.Machine

/-- Opcodes of the operations that return PENDING_ASYNC (Table 18.16). -/
def opStage : Nat := 0x0E01
def opVerify : Nat := 0x0E02
def opActivate : Nat := 0x0E03
def opSvn : Nat := 0x0E05
def opQuote : Nat := 0x0E07

/-- The size of a slot (Table 15.2). -/
def slotSize : Nat := 4194304

/-- The status codes a result event may carry (R530). -/
def asyncStatus (x : Nat) : Bool := [0x00, 0x10, 0x11, 0x12, 0x13, 0x14, 0x15, 0x16, 0x17, 0x20].contains x

namespace State

/-- The result event of an operation goes to the partition that issued it, with its TAG and EPOCH (R529, R530). -/
def result (s : State) (code : Nat) (hd : CmdHdr) (status : Nat) (detail : List Byte) : State :=
  s.post { e := { code, sev := 0, raised := false, kind := 0, idx := 0, detail, time := 0, pstate := 0, parts := [hd.ep.val]
                  seq := 0, flash := false }
           tag := hd.tag, epoch := some hd.epoch, status }

/-! ### Candidates (R468, R473) -/

/-- A package runs: the management cores are released under the watchdog (R474, R503). -/
def coresRun (s : State) (g : PackageInfo) (slot : Nat) (pushed : Bool) : State :=
  let s := s.updFw fun f => { f with
    pkg := some g, bootSlot := slot, pushed := pushed, recoveryWait := false, coresHalted := false, mgmtFree := true, cands := []
    push := none, pushSb := none }
  let s := s.updMgmt fun m => { m with wdogArmed := true, wdogMs := m.wdogNext }
  ((List.range 8).foldl (fun s k => if (s.ep k).fault = 2 then s.updEp k fun e => { e with fault := 0 } else s) s).turns

/-- A package is rejected: its reason code stands in the boot record (R473). -/
def reject (s : State) (slot code : Nat) : State :=
  (s.updFw fun f => { f with lastReason := code }).raiseAlarm 0x1051 2 0 slot (det2 slot code) allParts

/-- A candidate goes into the boot record. -/
def recordCandidate (s : State) (slot code : Nat) : State := s.updFw fun f => { f with record := f.record ++ [(slot, code)] }

/-- Verification of the candidate at hand ends (R468, R473); under BOOT_SRC 01 it must be a recovery package. -/
def doVerified (s : State) (readOk : Bool) (img : PkgImage) : State := match s.fw.cands with
  | [] => s
  | slot :: rest =>
    if !s.alive 1 then s
    else
      let code := s.verifyCode readOk img slotSize (s.rst.bootSrc == 1 && !s.fw.recoveryWait)
      let s := s.recordCandidate slot code
      if code = 0 then s.coresRun (pkgInfo img.head) slot false
      else
        let s := s.reject slot code
        if rest.isEmpty then s.enterRecovery.turns else s.updFw fun f => { f with cands := rest }

/-! ### Update (R482 to R488) -/

/-- The update operation in progress (R482). -/
def updating (s : State) : Bool := s.fw.ops.any fun o => [opStage, opVerify, opActivate, opSvn].contains o.opcode.toNat
/-- A quote is in progress (R481). -/
def quoting (s : State) : Bool := s.fw.ops.any fun o => o.opcode.toNat == opQuote
/-- The target slot: the one the running package did not come from; with a package from neither, the slot not preferred (R483). -/
def targetSlot (s : State) : Nat := match s.fw.bootSlot with
  | 0 => 1
  | 1 => 0
  | _ => 1 - s.fw.prefB.toNat

/-- An operation is accepted. -/
def startOp (s : State) (op : Nat) (hd : CmdHdr) (arg : List Byte) : State :=
  s.updFw fun f => { f with ops := f.ops ++ [{ opcode := BitVec.ofNat 16 op, hdr := hd, arg }] }

/-- A chunk is written; one at offset 0 erases the slot first, and any chunk ends its verification (R483, R484). -/
def writeChunk (t : TargetSt) (off len : Nat) : TargetSt :=
  { written := if off = 0 then [(0, len)] else t.written ++ [(off, off + len)], spoiled := t.spoiled && off != 0 }
/-- A chunk lies over bytes already written. -/
def overlaps (t : TargetSt) (off len : Nat) : Bool :=
  off != 0 && t.written.any fun w => decide (w.1 < off + len) && decide (off < w.2)

/-- A cluster runs the image of a package. -/
def setImage (s : State) (k : Nat) (g : Option PackageInfo) : State := s.updFw fun f => { f with
  images := match g with
    | some g => Tab.set none f.images k (some (g.engDigest, g.cifv))
    | none => f.images }

/-- Every selected component runs: PERSIST writes the boot header, and FW_ACTIVATED is posted (R488). -/
def activateEnd (s : State) : State :=
  let slot := match s.fw.bootSlot with
    | 0 => 0
    | 1 => 1
    | _ => s.targetSlot
  let s := if s.fw.actPersist then s.updFw fun f => { f.writeHeader (slot == 1) with actPersist := false } else s
  (s.updFw fun f => { f with actPkg := none }).event 0x0102 0 0 0 (det1 slot) allParts

/-- The next selected cluster is fenced and loads its image; one that is down takes it at its next wake (R485, R487). -/
def activateNext : Nat → State → State
  | 0, s => s
  | n + 1, s => match s.fw.actClusters with
    | [] => s.activateEnd
    | k :: rest =>
      if s.alive (engDom k) then
        (s.clusterGone k).updPdom (engDom k) fun p => { p with fenced := true, epoch := p.epoch + 1 }
      else activateNext n ((s.setImage k s.fw.actPkg).updFw fun f => { f with actClusters := rest })

/-- The activation goes no further (R486). -/
def activateStop (s : State) : State :=
  s.updFw fun f => { f with actMgmt := false, actClusters := [], actPersist := false, actPkg := none, actFailed := true }

/-- An engine cluster reports ready, with an image whose interface version the firmware accepts or not (R162, R487). -/
def doClusterReady (s : State) (k : Nat) (ok : Bool) : State :=
  if !s.alive (engDom k) then s
  else
    let mine := !s.fw.actMgmt && s.fw.actClusters.head? == some k
    let s := s.setImage k (if mine then s.fw.actPkg else s.fw.pkg)
    if !ok then
      -- it stays fenced until a compatible image is activated (R487)
      let s := s.updPdom (engDom k) fun p => { p with fenced := true }
      if mine then s.activateStop else s
    else
      let s := (s.updFw fun f => { f with absent := f.absent.filter fun x => x != k }).updPdom (engDom k) fun p => { p with fenced := false }
      if mine then activateNext 17 (s.updFw fun f => { f with actClusters := f.actClusters.tail }) else s

/-- FW.ACTIVATE applies: the management firmware restarts on the staged image, or the first cluster begins (R485, R486). -/
def activate (s : State) (mgmt persist : Bool) (clusters : List Nat) : State :=
  let s := s.updFw fun f => { f with
    actMgmt := mgmt, actPersist := persist, actClusters := clusters, actPkg := f.target.verified
    actFailed := false }
  if mgmt then
    let s := s.updFw fun f => { f with
      prevPkg := f.pkg, pkg := f.actPkg, ready := false, restarting := true }
    (s.updMgmt fun m => { m with wdogArmed := true, wdogMs := m.wdogNext }).epFaults 1
  else activateNext 17 s

/-- The new firmware did not come up: the cluster restarts on the image it ran before (R486). -/
def rollBack (s : State) : State :=
  let s := (s.updFw fun f => { f with pkg := f.prevPkg, prevPkg := none }).activateStop
  s.event 0x0103 2 0 0 (det1 1) allParts

def doRestartTimeout (s : State) : State := if s.fw.actMgmt && !s.fw.ready then s.rollBack else s

/-- The restarted firmware was the activated one: it runs from the target slot, so the target is now the other one, and the selected
clusters follow (R483, R485). -/
def mgmtActivated (s : State) : State :=
  if !s.fw.actMgmt then s
  else
    let slot := s.targetSlot
    activateNext 17 (s.updFw fun f => { f with
      actMgmt := false, prevPkg := none, bootSlot := slot, pushed := false, target := { written := [(0, slotSize)] } })

/-! ### READY (R476, R486, R503) -/

/-- The kept events are posted after READY (R486). -/
def postKept (s : State) : State :=
  let l := s.fw.kept
  l.foldl (fun s p => s.postNow p) (s.updFw fun f => { f with kept := [] })

/-- The management firmware serves the rings. -/
def doReady (s : State) : State :=
  if !s.alive 2 || !s.fw.mgmtFree || s.fw.coresHalted || s.fw.pkg.isNone || s.fw.ready then s
  else
    let s := (s.updFw fun f => { f with ready := true, restarting := false }).epFaults 0
    let s := s.postKept
    let s := if s.mgmt.wdogFired then
        (s.updMgmt fun m => { m with wdogFired := false }).raiseAlarm 0x1050 2 0 0 (det1 s.mgmt.wdogCount) allParts
      else s
    ((s.requestWake 1 216).mgmtActivated).serveKeyJobs

/-- The watchdog expires (R503); during an activation the old image comes back (R486). -/
def doWatchdog (s : State) : State :=
  if !s.mgmt.wdogArmed then s
  else
    let s := if s.fw.actMgmt && !s.fw.ready then s.rollBack else s
    let s := s.updMgmt fun m => { m with wdogCount := min (m.wdogCount + 1) 255, wdogFired := true }
    s.mgmtReset srcWatchdog

/-! ### The DRBG (R477, R478) -/

def doDrbgFail (s : State) (test : Nat) : State :=
  if !s.gorse.drbgRun then s
  else ({ s with gorse := { s.gorse with drbgRun := false } }).raiseAlarm 0x1031 2 0 0 (det1 test) allParts
def doDrbgRestart (s : State) : State :=
  if s.gorse.drbgRun || !s.alive 1 then s
  else ({ s with gorse := { s.gorse with drbgRun := true, drbgReqs := 0 } }).clearAlarm 0x1031 0 0
def doDrbgReseed (s : State) : State :=
  if s.gorse.drbgRun then { s with gorse := { s.gorse with drbgReqs := 0 } } else s

/-! ### Quotes (R481) -/

/-- What the fuse cache holds: the anti-rollback count and the pin map. -/
def fuseBytes (s : State) : List Byte :=
  leBytes 1 s.fw.svn ++ (List.range 50).flatMap fun i => leBytes 1 ((s.pin i).fuse + 4 * (s.pin i).locked.toNat)

/-- The quote body (Table 15.7). -/
def quoteBody (s : State) (k : Nat) (challenge : List Byte) : List Byte :=
  let mixed := (List.range 16).any fun i => (List.range 16).any fun j =>
    match Tab.get none s.fw.images i, Tab.get none s.fw.images j with
    | some a, some b => a.1 != b.1
    | _, _ => false
  [0x4C, 0x4D, 0x44, 0x51] ++ leBytes 2 1 ++ [BitVec.ofNat 8 k, flagByte [s.fw.pushed, mixed]]
    ++ beBytes 8 Config.serial.toNat ++ leBytes 2 Config.siRev ++ [bByte Config.variant48, 0]
    ++ Machine.slice challenge 0 32 ++ digestBytes Config.romDigest ++ s.pkgDigest ++ s.engDigest
    ++ [BitVec.ofNat 8 s.fw.svn, flagByte [s.rst.pins.any fun p => p.2.locked, true], 0, 0]
    ++ digestBytes s.fw.keyHash ++ digestBytes (Config.digestOf 0 s.fuseBytes)
    ++ digestBytes (Config.digestOf 1 (s.queueDigest k ++ s.allocDigest k ++ s.ownBytes k))
    ++ leBytes 8 (s.fw.qcount.toNat + 1) ++ leBytes 6 s.presented.sec ++ leBytes 4 s.presented.ns
    ++ [BitVec.ofNat 8 s.pstate, 0]

/-! ### Operations end (R530) -/

/-- The first open operation of an opcode. -/
def openOp (s : State) (op : Nat) : Option AsyncOp := s.fw.ops.find? fun o => o.opcode.toNat == op

/-- What an operation that ends with OK has done, with its reason code and, of FW.VERIFY, the package read. -/
def opEffect (s : State) (o : AsyncOp) (reason : Nat) (g : PackageInfo) : State :=
  let recovery := bitAt o.arg 0 0
  if o.opcode.toNat = opStage then
    let off := u32 o.arg 4
    let len := o.arg.length - 8
    if recovery then s.updFw fun f => { f with recov := writeChunk f.recov off len }
    else s.updFw fun f => { f with target := writeChunk f.target off len }
  else if o.opcode.toNat = opVerify then
    let v := if reason = 0 then some g else none
    if recovery then s.updFw fun f => { f with recov := { f.recov with verified := v } }
    else s.updFw fun f => { f with target := { f.target with verified := v } }
  else if o.opcode.toNat = opSvn then
    s.updFw fun f => { f with svn := max f.svn ((f.pkg.map (·.svn)).getD 0) }
  else if o.opcode.toNat = opQuote then s.updFw fun f => { f with qcount := f.qcount + 1 }
  else s

/-- What an operation that ends with TIMEOUT or INTERNAL leaves (R545): a slot whose chunk failed is spoiled, and the fuses burned so
far stay burned, a free value up to the version asked for. -/
def opBroken (s : State) (o : AsyncOp) : State :=
  if o.opcode.toNat = opStage then
    if bitAt o.arg 0 0 then s.updFw fun f => { f with recov := { f.recov with spoiled := true } }
    else s.updFw fun f => { f with target := { f.target with spoiled := true } }
  else if o.opcode.toNat = opSvn then
    let top := (s.fw.pkg.map (·.svn)).getD 0
    { (s.updFw fun f => { f with svn := f.svn + (Config.open64 9 s.draws).toNat % (top - f.svn + 1) }) with draws := s.draws + 1 }
  else s

/-- A spoiled slot does not pass FW.VERIFY (R545). -/
def passesSpoiled (s : State) (o : AsyncOp) (reason : Nat) : Bool :=
  o.opcode.toNat == opVerify && reason == 0 && (if bitAt o.arg 0 0 then s.fw.recov.spoiled else s.fw.target.spoiled)

/-- FW.ACTIVATE cannot end with OK before every selected component runs (R488). -/
def activating (s : State) : Bool := s.fw.actMgmt || !s.fw.actClusters.isEmpty || s.fw.actPkg.isSome || s.fw.actFailed

/-- An operation ends and posts its one result event. The checks of Table 15.6 give the reason code of FW.VERIFY; the operand of 1 says that
a read of the slot did not complete. -/
def doAsyncDone (s : State) (op status reason : Nat) (img : PkgImage) : State :=
  match s.openOp op with
  | none => s
  | some o =>
    let reason := if op = opVerify then s.verifyCode (reason != 1) img slotSize false else reason
    if !asyncStatus status || (status == 0 && ((op == opActivate && s.activating) || s.passesSpoiled o reason)) then s
    else
      let quote := s.quoteBody o.hdr.ep.val o.arg
      let s := s.updFw fun f => { f with ops := f.ops.erase o }
      let s := if status = 0 then s.opEffect o reason (pkgInfo img.head) else if op = opActivate then s.activateStop
        else if status = 0x17 ∨ status = 0x20 then s.opBroken o else s
      if op = opQuote then
        s.result 0x0104 o.hdr status (if status = 0 then quote ++ Config.identSign quote else [])
      else s.result 0x0101 o.hdr status (det2 op reason)

/-! ### Pushed packages (R469, R506, R536) -/

/-- A push is accepted through a path: under the strap that names it or in recovery wait, while no package runs. -/
def pushOpen (s : State) (src : Nat) : Bool := s.alive 1 && s.fw.coresHalted && (s.rst.bootSrc == src || s.fw.recoveryWait)

/-- PUSH.BEGIN: result and state of the push. -/
def pushBegin (req : List Byte) : Nat × Option PushSt :=
  if req.length ≠ 4 ∨ u32 req 0 = 0 ∨ slotSize < u32 req 0 then (stBadParam, none) else (stOk, some { len := u32 req 0 })
/-- PUSH.DATA: at most n bytes of package at an offset within the length given. -/
def pushData (n : Nat) (x : PushSt) (req : List Byte) : Nat × PushSt :=
  if req.length < 5 ∨ n + 4 < req.length ∨ x.len < u32 req 0 + (req.length - 4) then (stBadParam, x)
  else (stOk, { x with chunks := (u32 req 0, req.drop 4) :: x.chunks })

/-- A pushed package is verified: it boots, and a push through the other path ends with it, or it is rejected. -/
def pushVerified (s : State) (slot : Nat) (x : PushSt) (sigOk : Bool) : Nat × State :=
  let img := x.image sigOk
  let code := s.verifyCode true img x.len false
  let s := s.recordCandidate slot code
  (code, if code = 0 then s.coresRun (pkgInfo img.head) slot true else s.reject slot code)

/-! ### The boot record and the flash log through both windows (Table 16.8) -/

def bootRecBytes (s : State) : List Byte := s.fw.record.flatMap fun r => leBytes 1 r.1 ++ leBytes 1 r.2
/-- FLOG.GET: result and reply. -/
def flogReply (s : State) (req : List Byte) : Nat × List Byte :=
  if req.length ≠ 2 ∨ 4095 < u16 req 0 then (stBadParam, [])
  else (stOk, ((s.flogAge (u16 req 0)).map EvRec.bytes).getD [])

end State

/-! ### Commands of the hardware -/

def execCandidateVerified (readOk : Bool) (img : PkgImage) (s : State) : Host.Outcome State Fault Refusal :=
  .next (s.doVerified readOk img)
def execMgmtRestartTimeout (s : State) : Host.Outcome State Fault Refusal := .next s.doRestartTimeout
def execClusterReady (k : Fin 16) (ok : Bool) (s : State) : Host.Outcome State Fault Refusal := .next (s.doClusterReady k ok)
def execWatchdogExpiry (s : State) : Host.Outcome State Fault Refusal := .next s.doWatchdog
def execDrbgHealthFailure (test : Byte) (s : State) : Host.Outcome State Fault Refusal := .next (s.doDrbgFail test.toNat)
def execDrbgRestart (s : State) : Host.Outcome State Fault Refusal := .next s.doDrbgRestart
def execDrbgReseed (s : State) : Host.Outcome State Fault Refusal := .next s.doDrbgReseed
def execAsyncOperationDone (op status : BitVec 16) (reason : Byte) (img : PkgImage) (s : State) :
    Host.Outcome State Fault Refusal := .next (s.doAsyncDone op.toNat status.toNat reason.toNat img)

/-! ### Table 18.16 -/

def applyFwStage (hd : CmdHdr) (p : List Byte) (s : State) : CmdResult :=
  let t := if bitAt p 0 0 then s.fw.recov else s.fw.target
  let off := u32 p 4
  let len := p.length - 8
  checked s (decide (9 ≤ p.length) && decide (p.length ≤ 61448)) (right0 hd.ep.val)
    (firstBad p [(decide (1 < u8 p 0), 0), (decide (slotSize < off + len) || State.overlaps t off len, 4)] [(1, 3)])
    (if s.updating then fail s stBusy
     else
       let s := s.startOp opStage hd p
       -- a staged chunk ends the verification that FW.ACTIVATE needs (R484)
       pending (if bitAt p 0 0 then s.updFw fun f => { f with recov := { f.recov with verified := none } }
         else s.updFw fun f => { f with target := { f.target with verified := none } }))

def applyFwVerify (hd : CmdHdr) (p : List Byte) (s : State) : CmdResult :=
  checked s (p.length == 1) (right0 hd.ep.val) (firstBad p [(decide (1 < u8 p 0), 0)] [])
    (if s.updating then fail s stBusy else pending (s.startOp opVerify hd p))

def applyFwActivate (hd : CmdHdr) (p : List Byte) (s : State) : CmdResult :=
  let mask := BitVec.ofNat 16 (u16 p 2)
  let mgmt := bitAt p 0 0
  let persist := bitAt p 0 1
  checked s (p.length == 4) (right0 hd.ep.val)
    (firstBad p [(decide (3 < u8 p 0) || (persist && !(mgmt && mask == 0xFFFF#16)), 0)] [(1, 1)])
    (match s.fw.target.verified with
     | none => fail s stState
     | some g =>
       if g.svn < s.fw.svn then fail s stState
       else if s.updating then fail s stBusy
       else pending ((s.startOp opActivate hd p).activate mgmt persist ((List.range 16).filter mask.getLsbD)))

def applyFwStatusGet (_k : Nat) (p : List Byte) (s : State) : CmdResult :=
  let f := s.fw
  let slot := if f.target.verified.isSome then 2 else if f.target.written.isEmpty then 0 else 1
  checked s (p.length == 0) none none
    (done s ([BitVec.ofNat 8 f.bootSlot, BitVec.ofNat 8 slot, BitVec.ofNat 8 f.lastReason, 0]
      ++ leBytes 8 ((f.pkg.map (·.imgVer.toNat)).getD 0) ++ leBytes 8 ((f.target.verified.map (·.imgVer.toNat)).getD 0)
      ++ Machine.slice s.bootRecBytes 0 16 ++ s.imageDigests))

/-- Whether the recovery slot passes verification at the running package's version (R475): as FW.VERIFY found it, and a free value
where nothing has told the model what the slot holds. -/
def recoveryPasses (s : State) : Bool := match s.fw.recov.verified with
  | some g => decide ((s.fw.pkg.map (·.svn)).getD 0 ≤ g.svn)
  | none => (Config.open64 8 s.draws).getLsbD 0

def applyFuseSvnAdvance (hd : CmdHdr) (p : List Byte) (s : State) : CmdResult :=
  checked s (p.length == 0) (right0 hd.ep.val) none
    (if s.fw.pushed || !recoveryPasses s then fail s stState
     else if s.updating then fail s stBusy
     else pending (({ s with draws := s.draws + 1 }).startOp opSvn hd p))

def applyFusePinmapBurn (k : Nat) (p : List Byte) (s : State) : CmdResult :=
  let named := (List.range 50).filter fun i => (BitVec.ofNat 64 (u64 p 0)).getLsbD i
  checked s (p.length == 24) (right0 k) (firstBad p [(decide (2 ^ 50 ≤ u64 p 0), 6)] [])
    (if named.any fun i => (s.pin i).locked then fail s stState
     else done (named.foldl (fun s i => s.updPin i fun x => { x with
       fuse := u8 p (8 + i / 4) / 4 ^ (i % 4) % 4, locked := true }) s))

def applyAttestQuote (hd : CmdHdr) (p : List Byte) (s : State) : CmdResult :=
  checked s (p.length == 32) none none
    (if s.identLost then fail s stState else if s.quoting then fail s stBusy else pending (s.startOp opQuote hd p))

def applyAttestCertGet (_k : Nat) (p : List Byte) (s : State) : CmdResult :=
  checked s (p.length == 0) none none
    (if s.identLost then fail s stState
     else done s (leBytes 4 Config.devCert.length ++ Config.devCert ++ Config.caCert))

end Sys2Proof.Machine
end

