-- ==== Sys2Proof/Machine/Flags.lean ====
section
/-! DEFINITION. The status words the block shows, computed from its state: MBX_STATUS and MBX_RING_CTRL (Table 17.2, Table 17.3),
SB_STATUS (Table 16.6) and KWE_LOCK and KWE_STATUS (Table 8.5, Table 8.7). -/

namespace Sys2Proof.Machine.State

/-- MBX_STATUS of endpoint k: READY, FAULT and EPOCH (Table 17.2). -/
def mbxStatus (s : State) (k : Nat) : BitVec 32 :=
  BitVec.ofNat 32 (s.fw.ready.toNat * 2147483648 + (s.ep k).fault % 16 * 16777216 + (s.ep k).epoch.toNat)

/-- STOPPED: RUN is 0 and no command is applying (Table 17.3, R522). -/
def stopped (s : State) (k : Nat) : Bool := !(s.ep k).run && (s.ep k).applying.isNone

/-- MBX_RING_CTRL of endpoint k (Table 17.3). -/
def ringCtrl (s : State) (k : Nat) : BitVec 32 := BitVec.ofNat 32 ((s.stopped k).toNat * 2147483648 + (s.ep k).run.toNat)

/-- An alarm of a severity is open. -/
def openSev (s : State) (sev : Nat) : Bool := s.mgmt.alarms.any fun a => a.listed && a.sev == sev

/-- SB_STATUS (Table 16.6). -/
def sbStatus (s : State) : BitVec 32 := BitVec.ofNat 32
  (s.fw.ready.toNat * 2147483648 + s.fw.recoveryWait.toNat * 1073741824 + s.pwr.seated.toNat * 536870912
    + s.pwr.insMode.toNat * 268435456 + (!s.mgmt.trips.isEmpty).toNat * 134217728 + s.mgmt.sbRefused.toNat * 67108864
    + (s.openSev 3).toNat * 33554432 + (s.openSev 2).toNat * 16777216 + s.mgmt.wdogCount % 256 * 65536
    + s.fw.lastReason % 256 * 256 + s.fw.bootSlot % 16 * 16 + s.rst.clkMode % 4 * 4 + s.rst.bootSrc % 4)

/-- KWE_LOCK (Table 8.5). -/
def kweLock (s : State) : BitVec 32 :=
  BitVec.ofNat 32 (s.gorse.kwe.lost.toNat * 2147483648 + s.gorse.kwe.owner % 256 * 65536)

/-- KWE_STATUS (Table 8.7). -/
def kweStatus (s : State) : BitVec 32 := BitVec.ofNat 32
  (s.gorse.kwe.busy.toNat * 2147483648 + s.gorse.kwe.done.toNat * 1073741824 + s.gorse.kwe.err % 256 * 65536
    + s.gorse.kwe.outLen % 2048)

end Sys2Proof.Machine.State
end

