-- ==== Sys2Proof/Machine/Images.lean ====
section
/-! DEFINITION. The byte images of what the rings carry (R6): a command in its units (Table 17.8), a completion (Table 17.9), an event
(Table 17.11) and the index block (Table 17.7). -/

namespace Sys2Proof.Machine

/-- A command in its ring: the header of Table 17.8 and the payload. -/
def RawCmd.image (c : RawCmd) : List Byte :=
  leBytes 2 c.opcode.toNat ++ leBytes 2 c.hdr.flags.toNat ++ leBytes 4 c.hdr.tag.toNat ++ leBytes 4 c.hdr.seq.toNat
    ++ leBytes 2 c.hdr.epoch.toNat ++ leBytes 2 c.hdr.rsv.toNat ++ leBytes 4 c.payload.length
    ++ leBytes 12 (c.hdr.rsv.toNat / 65536) ++ c.payload

/-- The command that the units of endpoint k hold from their first byte on; what follows the payload in the last unit is ignored
(R519). -/
def RawCmd.ofImage (k : EpId) (p : List Byte) : RawCmd :=
  { opcode := BitVec.ofNat 16 (u16 p 0)
    hdr := { ep := k, flags := BitVec.ofNat 16 (u16 p 2), tag := BitVec.ofNat 32 (u32 p 4), seq := BitVec.ofNat 32 (u32 p 8)
             epoch := BitVec.ofNat 16 (u16 p 12)
             rsv := BitVec.ofNat 112 (u16 p 14 + leVal (slice p 20 12) * 65536) }
    payload := slice p 32 (u32 p 16) }

/-- The header of a completion (Table 17.9): RLEN and whether the reply is truncated. -/
def Completion.header (c : Completion) (rlen : Nat) (cut : Bool) : List Byte :=
  leBytes 2 c.opcode.toNat ++ leBytes 2 c.status ++ leBytes 4 c.tag.toNat ++ leBytes 4 c.seq.toNat ++ leBytes 2 c.epoch.toNat
    ++ [bByte cut, 0] ++ leBytes 4 rlen ++ leBytes 4 c.detail.toNat ++ zeros 8

/-- A completion in its ring: its header and its reply. -/
def Completion.image (c : Completion) : List Byte := c.header c.reply.length false ++ c.reply

/-- An event in its ring (Table 17.11): the payload of one that is no result is its DETAIL (R531). -/
def eventImage (e : EvRec) (tag : BitVec 32) (epoch : BitVec 16) (status : Nat) (loss : Bool) : List Byte :=
  leBytes 2 e.code ++ [BitVec.ofNat 8 (64 * e.sev + 32 * e.raised.toNat + 16 * loss.toNat + e.pstate % 4), BitVec.ofNat 8 e.kind]
    ++ leBytes 4 e.seq ++ leBytes 6 e.time.sec ++ leBytes 4 e.time.ns ++ leBytes 2 e.idx ++ leBytes 4 e.detail.length
    ++ leBytes 4 tag.toNat ++ leBytes 2 epoch.toNat ++ leBytes 2 status ++ e.detail

/-- The index block (Table 17.7). -/
def indexImage (cmdCi cmpPi evtPi smpPi tsPi : BitVec 32) (epoch : BitVec 16) : List Byte :=
  ([cmdCi, cmpPi, evtPi, smpPi, tsPi].flatMap fun i => leBytes 4 i.toNat) ++ leBytes 2 epoch.toNat ++ zeros 42

/-- What an output writes to host memory; nothing for the others. -/
def Out.image : Out → List Byte
  | .completion _ c => c.image
  | .event _ e tag epoch status loss => eventImage e tag epoch status loss
  | .index _ a b c d e epoch => indexImage a b c d e epoch
  | .record _ _ bytes => bytes
  | _ => []

end Sys2Proof.Machine
end

