-- ==== Sys2Proof/Machine/Channels.lean ====
section
/-! DEFINITION. The channel commands of Table 18.3: opening and closing (R90, R91, R419), front-end delays and timers (R120, R551),
counters (R89), the guard latch (R132), doze (R123, R430), CHANNEL reset (R439), flow contexts (R106), the front-end poll (R396). -/

namespace Sys2Proof.Machine

/-! ### Payload layouts -/

/-- The range faults of CHAN.FE.SET's fields (R117, R165, R399). -/
def feBad (p : List Byte) : List (Bool × Nat) :=
  [(decide (63 < u8 p 0), 0), (decide (25000 < u16 p 2), 2), (decide (25000 < u16 p 4), 4), (decide (1000 < u16 p 8), 8)]
/-- The range faults of CHAN.TIMER.SET's fields 1 to 23, which stand i bytes later (R153, Table 3.2). -/
def timerBad (p : List Byte) (i : Nat) : List (Bool × Nat) :=
  let out := fun o lo hi => (decide (u32 p (i + o) < lo) || decide (hi < u32 p (i + o)), i + o)
  [(decide (3 < u8 p (i + 1)), i + 1), (u16 p (i + 2) == 0 || decide (1024 < u16 p (i + 2)), i + 2), out 4 1000 60000, out 8 1 1000,
    out 12 100 10000, out 16 10 10000]
/-- Front-end delays, BGATE offsets and FELOS_DEB into a configuration. -/
def feFrom (p : List Byte) (x : ChanCfg) : ChanCfg := { x with feDs := u16 p 2, feUs := u16 p 4, bgLead := u8 p 6, bgLag := u8 p 7 }
/-- Timers, enables, HOL_WINDOW and SD_THRESH into a configuration. -/
def timerFrom (p : List Byte) (i : Nat) (x : ChanCfg) : ChanCfg :=
  { x with
    announce := bitAt p (i + 1) 0, bcast := bitAt p (i + 1) 1, holWindow := u16 p (i + 2), lockTo := u32 p (i + 4)
    annTo := u32 p (i + 8), rangeTo := u32 p (i + 12), holdTo := u32 p (i + 16), sdThresh := u32 p (i + 20) }

namespace State

/-- A domain the channel needs is in reset (R447). -/
def chanHeld (s : State) (c : Nat) : Bool := (usDom c :: domDepsAll (usDom c)).any fun d => (s.pdom d).inReset

/-- The reservation of a channel fits every ledger and keeps the slew floor (R419, R420). -/
def reservationFits (s : State) (c : Nat) : Bool :=
  s.fits (usDom c :: domDepsAll (usDom c)) && (List.range 6).all fun r => decide (s.slewFloor25 1 r ≤ 25 * s.slewBudget r)

/-- A channel of the engine cluster is open. -/
def clusterUsed (s : State) (k : Nat) : Bool := (List.range 4).any fun i => (s.chan (4 * k + i)).tc.opened

/-- The channel opens: its downstream domain and its engine cluster are woken (R90, R419). -/
def openChan (s : State) (c : Nat) (cfg : ChanCfg) (felosDebUs : Nat) : State :=
  let s := s.updChan c fun x => { x with cfg := cfg, closing := false, rx := { felos := x.rx.felos, felosDebUs := felosDebUs } }
  let s := s.setState c (if s.latched c then .silenced else .listen) .opened
  (s.requestWake 1 (dsDom c)).requestWake 1 (engDom (c / 4))

/-- The channel closes: context, epochs and queues are gone, the silence latches stay, its domains are released (R90,
Table 5.11). -/
def closeChan (s : State) (c : Nat) : State :=
  let s := (s.updUs c fun u => { u with preds := [] }).cancelBursts c
  let s := ((s.clearContext c).clearAlarm 0x2011 1 c).clearChan c 1 0
  let old := (s.chan c).tc.st.code
  let s := (((s.chanLosesTime c).trigFree c).lanesOff c).postChanState c old 0 .closed
  let s := s.updChan c fun x => { x with
    tc := {}, us := {}, closing := false, rx := { felos := x.rx.felos, felosDebUs := x.rx.felosDebUs }
    trib := { x.trib with adopted := false, odcLast := none } }
  let s := (List.range 128).foldl (fun s l => s.flush (128 * c + l)) s
  let s := ((s.driveBgate c false s.now).requestRelease (usDom c)).requestRelease (dsDom c)
  if s.clusterUsed (c / 4) then s else s.requestRelease (engDom (c / 4))

/-- A flow context holds a flow tag now or as last commanded (R106). -/
def flowHeldAt (s : State) (c f : Nat) : Bool :=
  (Tab.get none (s.chan c).tc.flows f).isSome ||
    match (s.chan c).tc.flowNext with
    | some n => (Tab.get none n.flows f).isSome
    | none => false

end State

/-! ### Table 18.3 -/

def applyChanOpen (k : Nat) (p : List Byte) (s : State) : CmdResult :=
  let c := u8 p 0
  checked s (p.length == 36) (s.ownsChan k c) (firstBad p (feBad p ++ timerBad p 12) [(1, 1), (10, 3)])
    (if (s.chan c).tc.opened || s.inTest c || s.chanHeld c then fail s stState
     else if !s.reservationFits c then fail s stNoResource
     else
       let s := s.openChan c (timerFrom p 12 (feFrom p (s.chan c).cfg)) (u16 p 8)
       ⟨s, if s.powered (dsDom c) then stOk else stApplying, 0, []⟩)

def applyChanClose (k : Nat) (p : List Byte) (s : State) : CmdResult :=
  let c := u8 p 0
  checked s (p.length == 1) (s.ownsChan k c) (firstBad p [(decide (63 < c), 0)] [])
    (if !(s.chan c).tc.opened then done s
     else if s.burstsOver c then done (s.closeChan c)
     else ⟨(s.cancelBursts c).updChan c fun x => { x with closing := true }, stApplying, 0, []⟩)

def applyChanFeSet (k : Nat) (p : List Byte) (s : State) : CmdResult :=
  let c := u8 p 0
  checked s (p.length == 12) (s.ownsChan k c) (firstBad p (feBad p) [(1, 1), (10, 2)])
    (if !(s.chan c).tc.opened then fail s stState
     else done (s.updChan c fun x =>
       { x with
         cfg := feFrom p x.cfg
         rx := { x.rx with felosDebUs := u16 p 8 }
         -- the delays apply from the first upstream frame that begins at least 250 µs from now (R120)
         tc := { x.tc with feOld := x.tc.feOld ++ [(x.cfg.feDs, x.cfg.feUs, s.now + 250000000)] } }))

def applyChanTimerSet (k : Nat) (p : List Byte) (s : State) : CmdResult :=
  let c := u8 p 0
  checked s (p.length == 24) (s.ownsChan k c) (firstBad p ((decide (63 < c), 0) :: timerBad p 0) [])
    (if !(s.chan c).tc.opened then fail s stState
     else done (s.updChan c fun x => { x with cfg := timerFrom p 0 x.cfg }))

def applyChanStatsGet (k : Nat) (p : List Byte) (s : State) : CmdResult :=
  let c := u8 p 0
  checked s (p.length == 2) (s.ownsChan k c) (firstBad p [(decide (63 < c), 0), (decide (1 < u8 p 1), 1)] [])
    (done (if u8 p 1 = 1 then s.updChan c fun x => { x with ctr := [] } else s) (ctrBytes (s.chan c).ctr 94))

def applyChanGuardClear (k : Nat) (p : List Byte) (s : State) : CmdResult :=
  let c := u8 p 0
  checked s (p.length == 1) (s.ownsChan k c) (firstBad p [(decide (63 < c), 0)] [])
    (if (s.chan c).heath.guardLatch && (s.chan c).heath.guardArmed then
       done (((s.updHeath c fun h => { h with guardLatch := false, guardArmed := false }).clearAlarm 0x1053 1 c).leaveSilenced c)
     else fail s stState)

def applyChanWake (k : Nat) (p : List Byte) (s : State) : CmdResult :=
  let c := u8 p 0
  checked s (p.length == 1) (s.ownsChan k c) (firstBad p [(decide (63 < c), 0)] [])
    (if (s.chan c).tc.opened && (s.chan c).tc.st == .doze then done (s.earlyWake c 2) else fail s stState)

def applyChanPlanSet (k : Nat) (p : List Byte) (s : State) : CmdResult :=
  let c := u8 p 0
  checked s (p.length == 2) (s.ownsChan k c) (firstBad p [(decide (63 < c), 0), (decide (1 < u8 p 1), 1)] [])
    (done (s.updChan c fun x => { x with cfg := { x.cfg with runAhead := bitAt p 1 0 } }))

def applyChanDozeSet (k : Nat) (p : List Byte) (s : State) : CmdResult :=
  let c := u8 p 0
  checked s (p.length == 10) (s.ownsChan k c)
    (firstBad p [(decide (63 < c), 0), (decide (3 < u8 p 1), 1), (decide (u16 p 2 < 2) || decide (256 < u16 p 2), 2),
      (u32 p 4 == 0 || decide (10000 < u32 p 4), 4), (decide (u16 p 8 < 60) || decide (1000 < u16 p 8), 8)] [])
    (done (s.updChan c fun x => { x with cfg := { x.cfg with
      dozeEn := bitAt p 1 0, dozeAuto := bitAt p 1 1, kReq := u16 p 2, idleMs := u32 p 4, dozeLeadUs := u16 p 8 } }))

def applyChanReset (k : Nat) (p : List Byte) (s : State) : CmdResult :=
  let c := u8 p 0
  let f := u8 p 1
  checked s (p.length == 2) (s.ownsChan k c) (firstBad p [(decide (63 < c), 0), (decide (2 < f), 1)] [])
    (if f = 2 then
       if s.rst.heldChan.contains c then
         done ((s.updRst fun r => { r with heldChan := r.heldChan.filter fun x => x != c }).freeDoms [dsDom c, usDom c])
       else fail s stState
     else done (s.chanResetCmd c (f == 1)))

def applyFlowCtxSet (k : Nat) (p : List Byte) (s : State) : CmdResult :=
  let c := u8 p 0
  let en := (List.range 256).filter fun f => bitAt p (4 + f / 8) (f % 8)
  checked s (p.length == 36) (s.ownsChan k c) (firstBad p [(decide (63 < c), 0)] [(1, 3)])
    (if (List.range 256).any fun f => !en.contains f && s.flowHeldAt c f then fail s stState
     else done (s.updHeath c fun h => { h with flowEn := en }))

def applyFeMgmtSet (k : Nat) (p : List Byte) (s : State) : CmdResult :=
  let c := u8 p 0
  checked s (p.length == 4) (s.ownsChan k c) (firstBad p [(decide (63 < c), 0), (decide (1 < u8 p 1), 1), (decide (127 < u8 p 2), 2)] [])
    (done (s.updChan c fun x => { x with cfg := { x.cfg with fePoll := bitAt p 1 0, feAddr := u8 p 2, feReg := u8 p 3 } }))

end Sys2Proof.Machine
end

