-- ==== Sys2Proof/Machine/Partitions.lean ====
section
/-! DEFINITION. Session, device and partition commands (Tables 18.1 and 18.2): DEV.INFO, DEV.RESET (R548), the reset-cause record
(R466), reassignment (R45, R46), quotas (R507) and PARTITION reset (R441). RESYNC stands with the rings. -/

namespace Sys2Proof.Machine

/-- Device totals of Table 16.9. -/
def quotaTotal (i : Nat) : Nat := wholeQuotas.getD i 0

namespace State

/-! ### Reassignment (R45) -/

/-- The configuration of a source moves to the new owner (R214), and the former owner's entries no longer match it (R233). -/
def moveSource (s : State) (src old new : Nat) : State :=
  if old = new then s
  else
    let cfg := s.sourceAt old src (s.cl old).cur
    let s := s.updCl old fun x => { x with sources := x.sources.filter fun e => e.1 != src }
    let s := s.updCl new fun x => { x with sources := (x.sources.filter fun e => e.1 != src) ++ [(src, cfg, x.cur, 0)] }
    { s with rules := s.rules.map fun r =>
        if r.part = old ∧ r.scope.getLsbD src ∧ !r.lost.contains src then { r with lost := r.lost ++ [src] } else r }

/-- Streams whose MAC and channel come to have different owners are disabled, with an event to both (R350). -/
def splitStreams (s : State) : State :=
  let gone := s.trib.streams.filter fun e => e.2.en && s.macOwner e.2.mac != (s.chan e.2.chan).owner
  let s := gone.foldl (fun s e =>
    (s.updStream e.1 fun x => { x with en := false, parts := [] }).event 0x4104 1 0 0 (det1 e.1)
      [s.macOwner e.2.mac, (s.chan e.2.chan).owner]) s
  if gone.isEmpty then s else s.tribPower

/-- A channel moves with what it carries. -/
def assignChan (s : State) (c k : Nat) : State :=
  (s.moveSource c (s.chan c).owner k).updChan c fun x => { x with owner := k }
/-- A port group moves with its MACs. -/
def assignPort (s : State) (p k : Nat) : State :=
  (s.moveSource (64 + p) (s.port p).owner k).updPort p fun x => { x with owner := k }

/-- A reassignment takes effect (R45, R549): channel, port group, bond group with its member channels, TRIG pin, CAPT pin. -/
def assign (s : State) (kind i k : Nat) : State := match kind with
  | 0 => (s.assignChan i k).splitStreams
  | 1 => (s.assignPort i k).splitStreams
  | 2 => (((s.bond i).members.foldl (fun s c => s.assignChan c k) s).updBond i fun g => { g with owner := k }).splitStreams
  | 3 => s.updTrig i fun x => { x with owner := k }
  | _ => s.updCapt i fun x => { x with owner := k }

/-- The owner a reassignment takes the resource from. -/
def assignedFrom (s : State) (kind i : Nat) : Nat := match kind with
  | 0 => (s.chan i).owner
  | 1 => (s.port i).owner
  | 2 => (s.bond i).owner
  | 3 => (s.trig i).owner
  | _ => (s.capt i).owner

/-- A reassignment the state forbids (R46, Table 18.2). -/
def assignBarred (s : State) (kind i k : Nat) : Bool := match kind with
  | 0 => match s.groupOf i with
    | some g => (s.bond g).owner != k
    | none => false
  | 1 => s.lags.any fun l => l.2.members.any fun m => m / 8 == i
  | _ => false

/-- A command of the endpoint is applying (R45, R441). -/
def busyEp (s : State) (k : Nat) : Bool := (s.ep k).applying.isSome || (s.ep k).mboxApplying.isSome

/-! ### Quotas (R507) -/

/-- The action sets of a partition's entries, miss actions and staged edits. -/
def actsOf (s : State) (k : Nat) : List ActionSet :=
  ((s.rules.filter fun r => r.part == k).map (·.act)) ++ (s.cl k).sources.map (·.2.1.miss)
    ++ (s.cl k).staged.filterMap fun e => match e with
      | .add r | .mod r => some r.act
      | .source _ c => some c.miss
      | _ => none

/-- The key profiles that a partition's sources, entries and staged edits name. -/
def profilesOf (s : State) (k : Nat) : List Nat :=
  let ofCfg := fun (c : SourceCfg) => [c.exp1, c.tep1, c.exp2, c.tep2].filterMap id
  ((s.rules.filter fun r => r.part == k).map (·.profile)) ++ (s.cl k).sources.flatMap (fun e => ofCfg e.2.1)
    ++ (s.cl k).staged.flatMap fun e => match e with
      | .add r | .mod r => [r.profile]
      | .source _ c => ofCfg c
      | _ => []

/-- An index at or above a new quota of policers, counters or key profiles is referenced. -/
def quotaHeld (s : State) (k : Nat) (q : List Nat) : Bool :=
  ((s.actsOf k).any fun a => (a.has 6 && decide (q.getD 5 0 ≤ a.policer)) || (a.has 10 && decide (q.getD 6 0 ≤ a.counter)))
    || (s.profilesOf k).any fun i => decide (q.getD 7 0 ≤ i)

/-- The quotas of an item would total more than the device holds. -/
def quotaOver (s : State) (k : Nat) (q : List Nat) : Bool :=
  (List.range 8).any fun i =>
    decide (quotaTotal i < q.getD i 0 + ((allParts.filter fun j => j != k).map fun j => s.quota j i).sum)

/-! ### PARTITION reset (R441) -/

/-- A completion of a command that did not start. -/
def abandon (s : State) (k : Nat) (c : RawCmd) : State :=
  s.complete k ⟨c.opcode, stAbandoned, c.hdr.tag, c.hdr.seq, c.hdr.epoch, 0, [], c.hdr.flags.getLsbD 0⟩

/-- Every fetched command of the partition that has not started completes with ABANDONED, oldest first (R441, R522). -/
def abandonAll (s : State) (k : Nat) : State :=
  let l := (s.ep k).kept ++ (s.ep k).waiting.take (s.ep k).fetched
  l.foldl (fun s c => s.abandon k c) (s.updEp k fun e => { e with kept := [], waiting := e.waiting.drop e.fetched, fetched := 0 })

/-- The PARTITION reset takes effect once no command of the partition is applying. -/
def resetPart (s : State) (k : Nat) : State := (s.abandonAll k).partReset k

end State

/-- A partition may name itself, and partition 0 any (R540). -/
def ownPart (k j : Nat) : Option Nat := if k = 0 ∨ j = k then none else some j

/-! ### Table 18.1 -/

def applyDevInfo (_k : Nat) (p : List Byte) (s : State) : CmdResult :=
  checked s (p.length == 0) none none
    (done s (beBytes 8 Config.serial.toNat ++ leBytes 2 Config.siRev
      ++ [bByte Config.variant48, Config.vcoreN, BitVec.ofNat 8 (s.rst.bootSrc + 4 * s.rst.clkMode), bByte s.identLost, 0, 0]
      ++ leBytes 4 s.rstCause ++ leBytes 8 ((s.fw.pkg.map (·.imgVer.toNat)).getD 0) ++ beBytes 6 Config.baseMac.toNat
      ++ leBytes 1 s.fw.svn ++ zeros 5))

def applyDevReset (k : Nat) (p : List Byte) (s : State) : CmdResult :=
  checked s (p.length == 1) (right0 k) (firstBad p [(decide (1 < u8 p 0), 0)] [])
    (done (s.updRst fun r => { r with devReset := some (u8 p 0) }))

def applyDevCauseClear (k : Nat) (p : List Byte) (s : State) : CmdResult :=
  checked s (p.length == 2) (right0 k) (firstBad p [(decide (2047 < u16 p 0), 0)] [])
    (done (s.updRst fun r => { r with seen := r.seen &&& ~~~(BitVec.ofNat 11 (u16 p 0)) }))

def applyRstPolicySet (k : Nat) (p : List Byte) (s : State) : CmdResult :=
  checked s (p.length == 1) (right0 k) (firstBad p [(decide (1 < u8 p 0), 0)] [])
    (done (s.updRst fun r => { r with thermRestart := u8 p 0 == 1 }))

def applySummaryGet (k : Nat) (p : List Byte) (s : State) : CmdResult :=
  checked s (p.length == 0) none none (done s (s.summary k))

/-! ### Table 18.2 -/

def applyPartAssign (k : Nat) (p : List Byte) (s : State) : CmdResult :=
  let kind := u8 p 0
  let i := u8 p 1
  let j := u8 p 2
  let old := s.assignedFrom kind i
  checked s (p.length == 4) (right0 k)
    (firstBad p [(decide (4 < kind), 0), (decide ([64, 32, 32, 8, 4].getD kind 256 ≤ i), 1), (decide (7 < j), 2)] [(3, 1)])
    (if s.assignBarred kind i j then fail s stState
     else if s.busyEp old then ⟨s, stApplying, 0, []⟩
     else done (s.assign kind i j))

def applyPartQuotaSet (k : Nat) (p : List Byte) (s : State) : CmdResult :=
  let j := u8 p 0
  let q := (List.range 7).map (fun i => u32 p (4 + 4 * i)) ++ [u8 p 32]
  checked s (p.length == 36) (right0 k) (firstBad p [(decide (7 < j), 0)] [(1, 3), (33, 3)])
    (if s.quotaHeld j q then fail s stState
     else if s.quotaOver j q then fail s stNoResource
     else done (s.updPart j fun x => { x with quotas := q }))

def applyPartReset (k : Nat) (p : List Byte) (s : State) : CmdResult :=
  let j := u8 p 0
  checked s (p.length == 1) (ownPart k j) (firstBad p [(decide (7 < j), 0)] [])
    (if s.busyEp j then ⟨s, stApplying, 0, []⟩ else done (s.resetPart j))

def applyPartGet (k : Nat) (p : List Byte) (s : State) : CmdResult :=
  let j := u8 p 0
  checked s (p.length == 1) (ownPart k j) (firstBad p [(decide (7 < j), 0)] [])
    (done s (s.ownBytes j ++ s.quotaBytes j ++ zeros 3))

end Sys2Proof.Machine
end

