-- ==== Sys2Proof/Machine/Rings.lean ====
section
/-! DEFINITION. The rings of the control endpoints (17_command_interface.md): the catalogue's opcodes with their meanings, the domains
a command needs (R447), the checks of R523 to R528 in order, fetching (R519), RESYNC (R532), stopping and restarting (R511, R522),
and the direct mailbox's CMD (R537). -/

namespace Sys2Proof.Machine

/-! ### The catalogue -/

/-- What applying a command of the catalogue comes to, by opcode (R546); RESYNC acts on the rings and stands below. -/
def hostApply (op : Nat) (hd : CmdHdr) (p : List Byte) (s : State) : Option CmdResult :=
  match op with
  | 0x0002 => some (applySummaryGet hd.ep.val p s)
  | 0x0003 => some (applyDevInfo hd.ep.val p s)
  | 0x0004 => some (applyDevReset hd.ep.val p s)
  | 0x0005 => some (applyDevCauseClear hd.ep.val p s)
  | 0x0006 => some (applyRstPolicySet hd.ep.val p s)
  | 0x0101 => some (applyPartAssign hd.ep.val p s)
  | 0x0102 => some (applyPartQuotaSet hd.ep.val p s)
  | 0x0103 => some (applyPartReset hd.ep.val p s)
  | 0x0104 => some (applyPartGet hd.ep.val p s)
  | 0x0201 => some (applyChanOpen hd.ep.val p s)
  | 0x0202 => some (applyChanClose hd.ep.val p s)
  | 0x0203 => some (applyChanFeSet hd.ep.val p s)
  | 0x0204 => some (applyChanTimerSet hd.ep.val p s)
  | 0x0205 => some (applyChanStatsGet hd.ep.val p s)
  | 0x0206 => some (applyChanGuardClear hd.ep.val p s)
  | 0x0207 => some (applyChanWake hd.ep.val p s)
  | 0x0208 => some (applyChanPlanSet hd.ep.val p s)
  | 0x0209 => some (applyChanDozeSet hd.ep.val p s)
  | 0x020A => some (applyChanReset hd.ep.val p s)
  | 0x020B => some (applyFlowCtxSet hd.ep.val p s)
  | 0x020C => some (applyFeMgmtSet hd.ep.val p s)
  | 0x0301 => some (applyQueueSet hd.ep.val p s)
  | 0x0302 => some (applyQueueShaperSet hd.ep.val p s)
  | 0x0303 => some (applyQueueDropSet hd.ep.val p s)
  | 0x0304 => some (applyQueueSampleSet hd.ep.val p s)
  | 0x0305 => some (applyQueueSpillSet hd.ep.val p s)
  | 0x0306 => some (applyQueueFcSet hd.ep.val p s)
  | 0x0307 => some (applyQueueFlush hd.ep.val p s)
  | 0x0308 => some (applyQueueGet hd.ep.val p s)
  | 0x0309 => some (applyQueueStatsGet hd.ep.val p s)
  | 0x030A => some (applyQueueLatGet hd.ep.val p s)
  | 0x0310 => some (applyAllocSet hd.ep.val p s)
  | 0x0311 => some (applyAllocShaperSet hd.ep.val p s)
  | 0x0312 => some (applyAllocGet hd.ep.val p s)
  | 0x0313 => some (applyChanPeakSet hd.ep.val p s)
  | 0x0320 => some (applyPolicerSet hd.ep.val p s)
  | 0x0321 => some (applyPolicerStatsGet hd.ep.val p s)
  | 0x0330 => some (applySampleRingSet hd.ep.val p s)
  | 0x0401 => some (applyRuleAdd hd.ep.val p s)
  | 0x0402 => some (applyRuleMod hd.ep.val p s)
  | 0x0403 => some (applyRuleDel hd.ep.val p s)
  | 0x0404 => some (applyRuleGet hd.ep.val p s)
  | 0x0405 => some (applyRuleCommit hd.ep.val p s)
  | 0x0406 => some (applyRuleAbort hd.ep.val p s)
  | 0x0407 => some (applyClProfileSet hd.ep.val p s)
  | 0x0408 => some (applyClSourceSet hd.ep.val p s)
  | 0x0409 => some (applyCounterGet hd.ep.val p s)
  | 0x040A => some (applyClStatsGet hd.ep.val p s)
  | 0x0501 => some (applyBondSet hd.ep.val p s)
  | 0x0502 => some (applyBondTableSet hd.ep.val p s)
  | 0x0503 => some (applyBondStatsGet hd.ep.val p s)
  | 0x0504 => some (applyLagSet hd.ep.val p s)
  | 0x0505 => some (applyLagTableSet hd.ep.val p s)
  | 0x0601 => some (applyKeyChanSet hd.ep.val p s)
  | 0x0602 => some (applyKeyStateGet hd.ep.val p s)
  | 0x0701 => some (applyTimeDomainBind hd.ep.val p s)
  | 0x0702 => some (applyTimeDomainSet hd.ep.val p s)
  | 0x0703 => some (applyTimeSelectSet hd.ep.val p s)
  | 0x0704 => some (applyTimeResolve hd.ep.val p s)
  | 0x0705 => some (applyTimeSet hd.ep.val p s)
  | 0x0706 => some (applyTimeGet hd.ep.val p s)
  | 0x0707 => some (applyTimeStatsGet hd.ep.val p s)
  | 0x0708 => some (applyPpsSet hd.ep.val p s)
  | 0x0709 => some (applyTodSet hd.ep.val p s)
  | 0x070A => some (applyTrigSet hd.ep.val p s)
  | 0x070B => some (applyCaptSet hd.ep.val p s)
  | 0x070C => some (applyPtpPortSet hd.ep.val p s)
  | 0x070D => some (applyPtpSourceSet hd.ep.val p s)
  | 0x070E => some (applyTsRingSet hd.ep.val p s)
  | 0x070F => some (applyGateSet hd.ep.val p s)
  | 0x0710 => some (applyGateGet hd.ep.val p s)
  | 0x0801 => some (applyTribAllocSet hd.ep.val p s)
  | 0x0802 => some (applyTribStreamSet hd.ep.val p s)
  | 0x0803 => some (applyTribConnSet hd.ep.val p s)
  | 0x0804 => some (applyTribConnGet hd.ep.val p s)
  | 0x0805 => some (applyTribPageArm hd.ep.val p s)
  | 0x0806 => some (applyTribPageDisarm hd.ep.val p s)
  | 0x0807 => some (applyTribStatsGet hd.ep.val p s)
  | 0x0808 => some (applyOdcPortSet hd.ep.val p s)
  | 0x0809 => some (applyOdcStatsGet hd.ep.val p s)
  | 0x0901 => some (applyHportModeSet hd.ep.val p s)
  | 0x0902 => some (applyHportSet hd.ep.val p s)
  | 0x0903 => some (applyHportSleepSet hd.ep.val p s)
  | 0x0904 => some (applyHportSleep hd.ep.val p s)
  | 0x0905 => some (applyHportWake hd.ep.val p s)
  | 0x0906 => some (applyHportStatusGet hd.ep.val p s)
  | 0x0907 => some (applyHportStatsGet hd.ep.val p s)
  | 0x0A01 => some (applyLaneStatusGet hd.ep.val p s)
  | 0x0A02 => some (applyLaneTxSet hd.ep.val p s)
  | 0x0A03 => some (applyLaneRxSet hd.ep.val p s)
  | 0x0A04 => some (applyLaneTestSet hd.ep.val p s)
  | 0x0A05 => some (applyLaneInject hd.ep.val p s)
  | 0x0A06 => some (applyLaneEyeGet hd p s)
  | 0x0A07 => some (applyLaneStatsGet hd.ep.val p s)
  | 0x0B01 => some (applyPwrBudgetSet hd.ep.val p s)
  | 0x0B02 => some (applyPwrRelease hd.ep.val p s)
  | 0x0B03 => some (applyPwrEnergyGet hd.ep.val p s)
  | 0x0B04 => some (applyPwrStateGet hd.ep.val p s)
  | 0x0B05 => some (applyDomainReset hd.ep.val p s)
  | 0x0C01 => some (applyArbPrioSet hd.ep.val p s)
  | 0x0C02 => some (applyArbCommit hd.ep.val p s)
  | 0x0C03 => some (applyArbGet hd.ep.val p s)
  | 0x0C04 => some (applyMemBankSet hd.ep.val p s)
  | 0x0C05 => some (applyMemStatsGet hd.ep.val p s)
  | 0x0D01 => some (applySensorGet hd.ep.val p s)
  | 0x0D02 => some (applyAlarmThreshSet hd.ep.val p s)
  | 0x0D03 => some (applyAlarmAck hd.ep.val p s)
  | 0x0D04 => some (applyLogRead hd.ep.val p s)
  | 0x0D05 => some (applyFlogRead hd.ep.val p s)
  | 0x0D06 => some (applyWdogSet hd.ep.val p s)
  | 0x0E01 => some (applyFwStage hd p s)
  | 0x0E02 => some (applyFwVerify hd p s)
  | 0x0E03 => some (applyFwActivate hd p s)
  | 0x0E04 => some (applyFwStatusGet hd.ep.val p s)
  | 0x0E05 => some (applyFuseSvnAdvance hd p s)
  | 0x0E06 => some (applyFusePinmapBurn hd.ep.val p s)
  | 0x0E07 => some (applyAttestQuote hd p s)
  | 0x0E08 => some (applyAttestCertGet hd.ep.val p s)
  | _ => none

/-- The opcodes whose result may be PENDING_ASYNC, which the mailbox does not take (R537). -/
def asyncOps : List Nat := [0x0A06, 0x0E01, 0x0E02, 0x0E03, 0x0E05, 0x0E07]

/-- The reply length of a command that succeeds (chapter 18), which sets the room it needs (R521): 65,536 bytes where the catalogue
does not give it, none where the command's own reply gives it. -/
def replyLen (op : Nat) (p : List Byte) : Option Nat := match op with
  | 0x0003 => some 40 | 0x0104 => some 60 | 0x0205 => some 752 | 0x0308 => some (188 * u16 p 2)
  | 0x0309 => some (if u16 p 0 < 8192 then 168 else 120) | 0x030A => some 184 | 0x0312 => some 20 | 0x0321 => some 56
  | 0x0401 => some 4 | 0x0404 => some 140 | 0x0405 => some 4 | 0x0409 => some 16 | 0x040A => some 192 | 0x0503 => some 88
  | 0x0602 => some 48 | 0x0706 => some 64 | 0x0707 => some ([96, 16, 8, 8, 16].getD (u8 p 0) 0) | 0x0809 => some 24
  | 0x0906 => some 4 | 0x0907 => some 368 | 0x0A01 => some 8 | 0x0A07 => some 96 | 0x0B03 => some (8 * u8 p 1 + 72)
  | 0x0B04 => some 2032 | 0x0C02 => some 2 | 0x0C03 => some 240 | 0x0C05 => some 136 | 0x0D01 => some 164
  | 0x0D04 => some (8 + 32 * u16 p 4) | 0x0D05 => some (32 * u16 p 2) | 0x0E04 => some 548
  | 0x0710 | 0x0E08 => some 65536
  | _ => none

/-- A result passed every check of R528 before the state is looked at. -/
def CmdResult.pastChecks (r : CmdResult) : Bool := r.status != stBadParam && r.status != stNoRight

namespace State

/-- A domain of an open channel is in reset (R447). -/
def openHeld (s : State) (c : Nat) : Bool :=
  (s.chan c).tc.opened && ((s.pdom (dsDom c)).inReset || (s.pdom (usDom c)).inReset)

/-- The lane's line channel is open with a domain in reset. -/
def laneHeld (s : State) (l : Nat) : Bool := decide (l < 256) && s.openHeld (l / 4)

/-- A domain that the command needs is in reset or down (R447): those of an open channel, the spine for what lies in it, the tributary
unit, a port group. -/
def lacksDomain (s : State) (op : Nat) (p : List Byte) : Bool :=
  let g := op / 256
  if op = 0x0330 then false
  else if g = 3 ∨ g = 4 ∨ g = 5 ∨ g = 12 then !s.alive 216
  else if g = 2 then [0x0203, 0x0204, 0x0205, 0x0207, 0x0208, 0x0209].contains op && s.openHeld (u8 p 0)
  else if g = 6 then s.openHeld (u8 p 0)
  else if g = 8 then (s.pdom 217).inReset
  else if op = 0x0902 ∨ op = 0x0907 then (s.pdom (portDom (u8 p 0 / 8))).inReset
  else if g = 9 then (s.pdom (portDom (u8 p 0))).inReset
  else if g = 10 then s.laneHeld (u16 p 0)
  else false

/-- A command is checked and applied (R528, R546). -/
def applyCmd (s : State) (c : RawCmd) : CmdResult :=
  match hostApply c.opcode.toNat c.hdr c.payload s with
  | none => fail s stBadOpcode
  | some r => if r.pastChecks && s.lacksDomain c.opcode.toNat c.payload then fail s stState else r

/-- A command whose application has not ended, looked at again: opening waits for power, closing for the burst, a reassignment and a
PARTITION reset for a command that is applying (R45, R90, R441, R550). A reassignment that has come to be barred meanwhile has no
effect (R46). -/
def resume (s : State) (c : RawCmd) : Option CmdResult :=
  let i := u8 c.payload 0
  let j := u8 c.payload 1
  let k := u8 c.payload 2
  match c.opcode.toNat with
  | 0x0201 => if s.powered (dsDom i) || !(s.chan i).tc.opened then some (done s) else none
  | 0x0202 => if s.burstsOver i then some (done (if (s.chan i).tc.opened then s.closeChan i else s)) else none
  | 0x0101 =>
    if s.busyEp (s.assignedFrom i j) then none
    else some (if s.assignBarred i j k then fail s stState else done (s.assign i j k))
  | _ => if s.busyEp i then none else some (done (s.resetPart i))

/-- A waiting command that stops partition k from starting another: a reassignment from it, or its reset, follows the command that is
applying at once (R45, R441). -/
def stopsPart (s : State) (k : Nat) (c : RawCmd) : Bool :=
  if c.opcode.toNat = 0x0101 then s.assignedFrom (u8 c.payload 0) (u8 c.payload 1) == k
  else c.opcode.toNat == 0x0103 && u8 c.payload 0 == k

/-- No command of endpoint k starts: a reassignment from its partition, or its reset, waits at some endpoint. -/
def barredPart (s : State) (k : Nat) : Bool :=
  allParts.any fun j => ((s.ep j).applying.any (s.stopsPart k)) || ((s.ep j).mboxApplying.any (s.stopsPart k))

/-! ### Completions -/

/-- The completion of a command (Table 17.9). -/
def completionOf (c : RawCmd) (status detail : Nat) (reply : List Byte) : Completion :=
  ⟨c.opcode, status, c.hdr.tag, c.hdr.seq, c.hdr.epoch, BitVec.ofNat 32 detail, reply, c.hdr.flags.getLsbD 0⟩

/-- A command completes on its ring. -/
def finish (s : State) (k : Nat) (c : RawCmd) (status detail : Nat) (reply : List Byte) : State :=
  s.complete k (completionOf c status detail reply)

/-- Units of the completion ring that are free. -/
def cmpRoom (s : State) (k : Nat) : Nat := ringFree (s.ep k).cmpSize (s.ep k).cmpPi (s.ep k).cmpCi

/-- Units of a command in its ring (R519). -/
def unitsOf (c : RawCmd) : Nat := recUnits c.payload.length

/-- The header of a command is wrong: a reserved bit, or PLEN beyond its range (Table 17.8). -/
def headerBad (c : RawCmd) : Bool :=
  decide (2 ≤ c.hdr.flags.toNat) || c.hdr.rsv != 0 || decide (65536 < c.payload.length)

/-- The device fetches commands of ring k (R486, R516). -/
def serving (s : State) (k : Nat) : Bool := s.epUp k && (s.ep k).run && s.fw.ready

/-! ### Processing (R521, R523, R524) -/

/-- The result of a command that is not stale, given the SEQ that is expected: the first wrong thing of R528 or its effect. -/
def judge (s : State) (c : RawCmd) (expected : Option (BitVec 32)) : CmdResult :=
  if (hostApply c.opcode.toNat c.hdr c.payload s).isNone then fail s stBadOpcode
  else match expected.filter fun n => n != c.hdr.seq with
    | some n => fail s stBadParam n.toNat
    | none => if headerBad c then fail s stBadParam noOff else s.applyCmd c

/-- A result is completed, or the command goes on applying. -/
def settleResult (r : CmdResult) (k : Nat) (c : RawCmd) : State :=
  if r.status = stApplying then r.state.updEp k fun e => { e with applying := some c }
  else r.state.finish k c r.status r.detail r.reply

/-- The units that the largest completion of a command takes (R521). -/
def unitsNeeded (c : RawCmd) (r : CmdResult) (s : State) (k : Nat) : Nat :=
  if c.opcode = 2 then recUnits (2384 + 16 * (s.alarmsOf k).length)
  else recUnits (max r.reply.length (min 65536 ((replyLen c.opcode.toNat c.payload).getD 0)))

/-- The SEQ expected after a command: none is expected of the first one after RUN = 1, or of the first after a PARTITION reset that is
not stale (R523, R592). -/
def seqAfter (e : EpSt) (c : RawCmd) : Option (BitVec 32) :=
  let stale := c.hdr.epoch != e.epoch
  match e.expSeq with
  | none => if stale && e.seqReset then none else some (c.hdr.seq + 1)
  | some n => if stale then some n else some (c.hdr.seq + 1)

/-- The command at the head of the fetched ones is processed, when the completion ring has room (R521, R523, R524). -/
def processHead (s : State) (k : Nat) : Option State :=
  match (s.ep k).waiting with
  | [] => none
  | c :: rest =>
    let e := s.ep k
    let taken := s.updEp k fun e => { e with waiting := rest, fetched := e.fetched - 1, expSeq := seqAfter e c }
    if c.hdr.epoch ≠ e.epoch then some (taken.updEp k fun e => { e with stale := min (e.stale + 1) 0xFFFFFFFF })
    else
      let r := taken.judge c e.expSeq
      if s.cmpRoom k < unitsNeeded c r s k then none
      else some (settleResult r k c)

/-- A command kept from before the restart is processed against the SEQ expected then, or abandoned if it is orphaned (R522). -/
def processKept (s : State) (k : Nat) : Option State :=
  match (s.ep k).kept with
  | [] => none
  | c :: rest =>
    let e := s.ep k
    if e.keptOrphan then
      if s.cmpRoom k < 1 then none
      else some ((s.updEp k fun e => { e with kept := rest }).finish k c stAbandoned 0 [])
    else
      let stale := c.hdr.epoch != e.epoch
      let taken := s.updEp k fun e => { e with kept := rest, keptSeq := if stale then e.keptSeq else some (c.hdr.seq + 1) }
      if stale then some (taken.updEp k fun e => { e with stale := min (e.stale + 1) 0xFFFFFFFF })
      else
        let r := taken.judge c e.keptSeq
        if s.cmpRoom k < unitsNeeded c r s k then none else some (settleResult r k c)

/-! ### RESYNC (R532) -/

/-- The place of the first RESYNC among the fetched commands. -/
def resyncAt (s : State) (k : Nat) : Option Nat :=
  let i := ((s.ep k).waiting.take (s.ep k).fetched).findIdx fun c => c.opcode == 1
  if i < min (s.ep k).fetched (s.ep k).waiting.length then some i else none

/-- A RESYNC acts as soon as it is fetched, once no command is applying and the completion ring has room. -/
def doResync (s : State) (k i : Nat) : Option State :=
  let e := s.ep k
  match e.waiting[i]? with
  | none => none
  | some c =>
    let ahead := e.kept ++ e.waiting.take i
    if c.hdr.epoch = e.epoch ∨ headerBad c ∨ !c.payload.isEmpty then
      if s.cmpRoom k < 1 then none
      else some ((s.updEp k fun e => { e with
        waiting := e.waiting.eraseIdx i, fetched := e.fetched - 1
        expSeq := match e.expSeq with
          | none => some (c.hdr.seq + 1)
          | some n => some n }).finish k c stBadParam noOff [])
    else if e.applying.isSome || decide (s.cmpRoom k < ahead.length + recUnits (2384 + 16 * (s.alarmsOf k).length)) then none
    else
      let s := s.updEp k fun e => { e with kept := [], waiting := e.waiting.drop (i + 1), fetched := e.fetched - (i + 1) }
      let s := ahead.foldl (fun s x => s.finish k x stAbandoned 0 []) s
      let s := (s.updEp k fun e => { e with epoch := c.hdr.epoch, expSeq := some (c.hdr.seq + 1), seqReset := false }).writeIndex k
      some (s.finish k c stOk 0 (s.summary k))

/-! ### Fetching and draining (R519, R525) -/

/-- Up to 16 commands are fetched ahead; CMD_CI covers them (R519). -/
def fetch (s : State) (k : Nat) : State :=
  let e := s.ep k
  let new := (e.waiting.drop e.fetched).take (16 - e.fetched)
  if new.isEmpty then s
  else (s.updEp k fun e => { e with
    fetched := e.fetched + new.length, cmdCi := e.cmdCi + BitVec.ofNat 32 (new.map unitsOf).sum }).writeIndex k

/-- Commands behind an accepted DEV.RESET are neither started nor completed (R548). -/
def afterDevReset (s : State) (k : Nat) : Bool := k == 0 && s.rst.devReset.isSome

/-- One step of the processing of ring k; none when nothing can happen now. -/
def ringStep (s : State) (k : Nat) : Option State :=
  if !s.serving k || s.afterDevReset k then none
  else
    let s := s.fetch k
    match s.resyncAt k with
    | some i => s.doResync k i
    | none =>
      if (s.ep k).applying.isSome || s.barredPart k || (s.ep k).fetched = 0 then none
      else if !(s.ep k).kept.isEmpty then s.processKept k
      else s.processHead k

/-- What is posted is fetched even when nothing can start. -/
def fetchIf (s : State) (k : Nat) : State := if s.serving k then s.fetch k else s

/-- The ring is processed as far as it goes. -/
def drain (k : Nat) : Nat → State → State
  | 0, s => s.fetchIf k
  | n + 1, s => match s.ringStep k with
    | some s' => drain k n s'
    | none => s.fetchIf k

/-! ### The direct mailbox (R535, R537) -/

/-- A mailbox operation ends: its status and reply stand in the registers and MBOX_VEC is raised. -/
def mboxReply (s : State) (k result : Nat) (reply : List Byte) : State :=
  let s := s.updEp k fun e => { e with
    mboxResult := result, mboxLen := reply.length, mboxApplying := none, mboxWait := none
    mbox := ((List.range reply.length).zip reply).foldl (fun t x => Tab.set 0 t x.1 x.2) e.mbox }
  (s.emit (.mailbox k result reply)).emit (.vector k ((s.ep k).vec.toNat / 4096 % 16))

/-- A completion header and reply as the mailbox returns them: a reply beyond 224 bytes is cut (R537). -/
def mboxBytes (c : RawCmd) (status detail : Nat) (reply : List Byte) : List Byte :=
  let cut := reply.take 224
  let h : Completion := { opcode := c.opcode, status, tag := c.hdr.tag, seq := c.hdr.seq, epoch := c.hdr.epoch
                          detail := BitVec.ofNat 32 detail, reply := cut, noIrq := true }
  h.header cut.length (decide (224 < reply.length)) ++ cut

/-- A mailbox CMD runs at a command boundary of the ring (R537). -/
def mboxRun (s : State) (k : Nat) (c : RawCmd) : State :=
  if c.hdr.epoch ≠ (s.ep k).epoch ∧ c.opcode ≠ 1 then s.mboxReply k stAbandoned []
  else if c.opcode = 1 ∨ asyncOps.contains c.opcode.toNat ∨ (hostApply c.opcode.toNat c.hdr c.payload s).isNone then
    s.mboxReply k stBadOpcode (mboxBytes c stBadOpcode 0 [])
  else if headerBad c then s.mboxReply k stBadParam (mboxBytes c stBadParam noOff [])
  else
    let r := s.applyCmd c
    if r.status = stApplying then r.state.updEp k fun e => { e with mboxApplying := some c, mboxWait := none }
    else r.state.mboxReply k r.status (mboxBytes c r.status r.detail r.reply)

/-! ### Settling -/

/-- Applications that can end now do, then the mailbox takes its turn. -/
def endApplying (s : State) (k : Nat) : State :=
  if !s.fw.ready then s
  else
    let s := match (s.ep k).applying with
      | some c => match (s.updEp k fun e => { e with applying := none }).resume c with
        | some r => r.state.finish k c r.status r.detail r.reply
        | none => s
      | none => s
    let s := match (s.ep k).mboxApplying with
      | some c => match (s.updEp k fun e => { e with mboxApplying := none }).resume c with
        | some r => r.state.mboxReply k r.status (mboxBytes c r.status r.detail r.reply)
        | none => s
      | none => s
    match (s.ep k).mboxWait with
    | some c => if (s.ep k).applying.isSome || s.barredPart k || s.afterDevReset k then s else s.mboxRun k c
    | none => s

/-- One round over the endpoints. -/
def settleRound (s : State) : State := allParts.foldl (fun s k =>
  let s := s.endApplying k
  drain k ((s.ep k).waiting.length + (s.ep k).kept.length + 2) s) s

/-- Everything the command interface can do now is done: a command of one endpoint may free one of another, so the round is run
again. -/
def settle (s : State) : State := s.settleRound.settleRound.settleRound

/-! ### Posting (R519, R520) -/

/-- The rings stop, keeping what has been fetched (R522). -/
def stopRings (s : State) (k : Nat) (orphan : Bool) : State := s.updEp k fun e => { e with
  run := false, waiting := e.waiting.take e.fetched, orphaned := e.orphaned || orphan, keptOrphan := e.keptOrphan || orphan }

/-- A ring error: the rings stop and FAULT is 3 (R520). -/
def ringError (s : State) (k : Nat) : State := (s.stopRings k false).updEp k fun e => { e with fault := 3 }

/-- The commands that lie whole within some units. -/
def wholeIn : Nat → List RawCmd → List RawCmd
  | _, [] => []
  | n, c :: l => if unitsOf c ≤ n then c :: wholeIn (n - unitsOf c) l else []

/-- A doorbell write posts the commands that the ring holds up to its value (R519, R520). -/
def doDoorbell (s : State) (k : Nat) (value : BitVec 32) (cmds : List RawCmd) : State :=
  let e := s.ep k
  if !s.epUp k || !e.run then s
  else if (value - e.cmdCi).toNat < (e.cmdPi - e.cmdCi).toNat ∨ 2 ^ e.cmdSize < (value - e.cmdCi).toNat then s.ringError k
  else
    let posted := (value - e.cmdPi).toNat
    let whole := wholeIn posted cmds
    let s := (s.updEp k fun e => { e with waiting := e.waiting ++ whole, cmdPi := value }).settle
    if (cmds.map unitsOf).sum = posted then s else s.ringError k

/-- A host command stands for its posting: the host writes it behind the commands it has posted, and rings the doorbell. -/
def hostPost (s : State) (c : RawCmd) : State :=
  s.doDoorbell c.hdr.ep ((s.ep c.hdr.ep).cmdPi + BitVec.ofNat 32 (unitsOf c)) [c]

/-! ### Starting, stopping, links (R511, R516, R522) -/

/-- The fault an endpoint shows while its rings are in order (Table 17.2). -/
def quietFault (s : State) : Nat := if s.fw.recoveryWait then 2 else if s.fw.restarting && !s.fw.ready then 1 else 0

/-- Ring sizes and bases are valid (R515). -/
def ringsValid (e : EpSt) : Bool :=
  [e.cmdSize, e.cmpSize, e.evtSize].all (fun n => decide (11 ≤ n) && decide (n ≤ 20))
    && [e.cmdBase, e.cmpBase, e.evtBase, e.idxBase].all fun b => b != 0

/-- RUN is written as 1 (R515, R516, R522). -/
def doRingRun (s : State) (k : Nat) : State :=
  let e := s.ep k
  if !s.epUp k || e.run then s
  else if !ringsValid e then s.updEp k fun e => { e with fault := 4 }
  else
    let s := s.updEp k fun e => { e with
      run := true, fault := if 3 ≤ e.fault then s.quietFault else e.fault
      cmdPi := 0, cmdCi := 0, cmpPi := 0, cmpCi := 0, evtPi := 0, evtCi := 0, cmpUnsig := 0, evtUnsig := 0
      kept := e.kept ++ e.waiting, keptSeq := if e.kept.isEmpty then e.expSeq else e.keptSeq
      keptOrphan := e.keptOrphan || e.orphaned, orphaned := false, waiting := [], fetched := 0
      expSeq := none, seqReset := false, held := [] }
    let s := s.writeIndex k
    let s := if e.kept.isEmpty && e.waiting.isEmpty then s.updEp k fun e => { e with keptOrphan := false } else s
    (e.held.foldl (fun s c => s.publishCmp k c) s).settle

/-- RUN is written as 0 (R522). -/
def doRingStop (s : State) (k : Nat) : State := if s.epUp k && (s.ep k).run then s.stopRings k false else s

/-- A mailbox operation in progress is abandoned (R511). -/
def abandonMbox (s : State) (k : Nat) : State :=
  let s := match (s.ep k).mboxApplying with
    | some c => if c.opcode = 0x0202 then s.updChan (u8 c.payload 0) fun x => { x with closing := false } else s
    | none => s
  s.updEp k fun e => { e with mboxApplying := none, mboxWait := none }

/-- A function-level reset or a loss of link (R511): the rings stop, the registers but MBX_STATUS return to their reset values. -/
def epRegsReset (s : State) (k : Nat) : State :=
  let s := (s.stopRings k true).abandonMbox k
  let s := if s.gorse.kwe.owner = k then s.kweCut.serveKeyJobs else s
  s.updEp k fun e => { ({} : EpSt) with
    link := e.link, fault := e.fault, epoch := e.epoch, expSeq := e.expSeq, seqReset := e.seqReset, eseq := e.eseq
    lostEvents := e.lostEvents, lossFlag := e.lossFlag, lostRestart := e.lostRestart, stale := e.stale, waiting := e.waiting
    fetched := e.fetched, orphaned := e.orphaned, kept := e.kept, keptSeq := e.keptSeq, keptOrphan := e.keptOrphan
    applying := e.applying, held := e.held, smp := { e.smp with ci := 0 }, ts := { e.ts with ci := 0 } }

def doFlr (s : State) (k : Nat) : State := if s.epUp k then s.epRegsReset k else s
def doLinkLost (s : State) (k : Nat) : State :=
  if (s.ep k).link then (s.epRegsReset k).updEp k fun e => { e with link := false } else s
def doLinkUp (s : State) (k : Nat) : State := if s.alive 3 then s.updEp k fun e => { e with link := true } else s

/-- HOLD µs have passed since the first unsignalled record (R514). -/
def doHoldExpiry (s : State) (k : Nat) (evt : Bool) : State :=
  let e := s.ep k
  if evt then
    if e.evtUnsig = 0 then s else (s.updEp k fun e => { e with evtUnsig := 0 }).emit (.vector k (e.vec.toNat / 16 % 16))
  else if e.cmpUnsig = 0 then s else (s.updEp k fun e => { e with cmpUnsig := 0 }).emit (.vector k (e.vec.toNat % 16))

/-- A mailbox operation can start: the registers answer and none is in progress (R535). -/
def mboxFree (s : State) (k : Nat) : Bool := s.epUp k && (s.ep k).mboxApplying.isNone && (s.ep k).mboxWait.isNone

/-- The request and OP as the host writes them before GO (R535). -/
def mboxRequest (s : State) (k op : Nat) (req : List Byte) : State := s.updEp k fun e => { e with
  mboxOp := op, mboxLen := req.length
  mbox := ((List.range 256).zip req).foldl (fun t x => Tab.set 0 t x.1 x.2) e.mbox }

/-- A command as its bytes stand (Table 17.8). -/
def cmdBytes (c : RawCmd) : List Byte := RawCmd.image c

/-- A mailbox operation with its request, its reply computed at once: BUSY on endpoints 1 to 7 before READY (R536). -/
def mboxOp (s : State) (k op : Nat) (req : List Byte) (run : State → Nat × List Byte × State) : State :=
  if !s.mboxFree k then s
  else
    let s := s.mboxRequest k op req
    if !s.fw.ready && (k != 0 || !s.alive 1) then s.mboxReply k stBusy []
    else
      let (result, reply, t) := run s
      t.mboxReply k result reply

/-- Mailbox CMD: BUSY before READY, else run at the next command boundary (R536, R537). -/
def doMboxCmd (s : State) (k : Nat) (c : RawCmd) : State :=
  if !s.mboxFree k then s
  else
    let s := s.mboxRequest k 0x20 (cmdBytes c)
    if !s.fw.ready then s.mboxReply k stBusy []
    else if 224 < c.payload.length then s.mboxReply k stBadParam []
    else (s.updEp k fun e => { e with mboxWait := some c }).settle

/-- DEV.RESET's source asserts after its completion (R548). -/
def doDevResetAssert (s : State) : State := match s.rst.devReset with
  | none => s
  | some r => (s.updRst fun x => { x with devReset := none }).wideReset srcDevReset (if r = 1 then 1000 else 100) (r == 1) false

end State

end Sys2Proof.Machine
end

