-- ==== Sys2Proof/Machine/HostCmds.lean ====
section
/-! DEFINITION. What reaches the block from a host or the chassis manager: doorbells and ring control (R515 to R522), the direct
mailbox (R535 to R537), the two-wire sideband (R504 to R506), register writes (R13), the catalogue's commands as they are posted, and
the instants at which an application that was waiting can end. -/

namespace Sys2Proof.Machine

namespace State

/-! ### Mailbox operations (R536) -/

/-- PUSH.BEGIN through endpoint 0, under BOOT_SRC 10 or in recovery wait. -/
def mboxPushBegin (s : State) (k : Nat) (req : List Byte) : State := s.mboxOp k 0x01 req fun s =>
  if k ≠ 0 ∨ !s.pushOpen 2 then (stState, [], s)
  else match pushBegin req with
    | (r, some x) => (r, [], s.updFw fun f => { f with push := some x })
    | (r, none) => (r, [], s)

/-- PUSH.DATA of up to 252 bytes. -/
def mboxPushData (s : State) (k : Nat) (req : List Byte) : State := s.mboxOp k 0x02 req fun s =>
  match s.fw.push with
  | none => (stState, [], s)
  | some x =>
    if k ≠ 0 ∨ !s.pushOpen 2 then (stState, [], s)
    else
      let (r, y) := pushData 252 x req
      (r, [], s.updFw fun f => { f with push := some y })

/-- PUSH.END, whose request is empty: the package is verified, and boots when it passes. -/
def mboxPushEnd (s : State) (k : Nat) (req : List Byte) (sigOk : Bool) : State := s.mboxOp k 0x03 req fun s =>
  match s.fw.push with
  | none => (stState, [], s)
  | some x =>
    if k ≠ 0 ∨ !s.pushOpen 2 then (stState, [], s)
    else if req ≠ [] then (stBadParam, [], s)
    else
      let (c, t) := (s.updFw fun f => { f with push := none }).pushVerified 3 x sigOk
      (stOk, leBytes 1 c, t)

/-- FLOG.GET: endpoint 0 only. -/
def mboxFlog (s : State) (k : Nat) (req : List Byte) : State := s.mboxOp k 0x10 req fun s =>
  if k ≠ 0 then (stNoRight, [], s) else ((s.flogReply req).1, (s.flogReply req).2, s)

/-- BOOTREC.GET on every endpoint. -/
def mboxBootrec (s : State) (k : Nat) : State := s.mboxOp k 0x11 [] fun s => (stOk, s.bootRecBytes.take 256, s)

/-! ### The two-wire sideband (R504 to R506) -/

/-- The bus works: VAON and VIO are good (R504). -/
def sbUp (s : State) : Bool := s.pwr.railGood.contains 6 && s.pwr.railGood.contains 7

/-- A write is refused: it is not acknowledged and SB_REFUSED is set (R504). -/
def sbRefuse (s : State) : State := s.updMgmt fun m => { m with sbRefused := true }

/-- A window command ends: RESULT and LEN stand in SB_CMD_CTRL and the reply replaces the window (R505). -/
def sbReply (s : State) (result : Nat) (reply : List Byte) : State :=
  (s.updMgmt fun m => { m with
    sbResult := result, sbLen := reply.length
    sbWin := ((List.range 64).zip reply).foldl (fun t x => Tab.set 0 t x.1 x.2) [] }).emit (.sideband result reply)

/-- A window command with its reply computed at once: BUSY during a management restart, and while Gorse does not run (R505). -/
def sbOp (s : State) (op : Nat) (run : State → Nat × List Byte × State) : State :=
  if !s.sbUp then s
  else
    let s := s.updMgmt fun m => { m with sbOp := op }
    if !s.fw.ready && (s.fw.restarting || !s.alive 1) then s.sbReply stBusy []
    else
      let (result, reply, t) := run s
      t.sbReply result reply

def sbPushBegin (s : State) (req : List Byte) : State := s.sbOp 0x01 fun s =>
  if !s.pushOpen 3 then (stState, [], s)
  else match pushBegin req with
    | (r, some x) => (r, [], s.updFw fun f => { f with pushSb := some x })
    | (r, none) => (r, [], s)

def sbPushData (s : State) (req : List Byte) : State := s.sbOp 0x02 fun s =>
  match s.fw.pushSb with
  | none => (stState, [], s)
  | some x =>
    if !s.pushOpen 3 then (stState, [], s)
    else
      let (r, y) := pushData 60 x req
      (r, [], s.updFw fun f => { f with pushSb := some y })

def sbPushEnd (s : State) (req : List Byte) (sigOk : Bool) : State := s.sbOp 0x03 fun s =>
  match s.fw.pushSb with
  | none => (stState, [], s)
  | some x =>
    if !s.pushOpen 3 then (stState, [], s)
    else if req ≠ [] then (stBadParam, [], s)
    else
      let (c, t) := (s.updFw fun f => { f with pushSb := none }).pushVerified 4 x sigOk
      (stOk, leBytes 1 c, t)

def sbFlog (s : State) (req : List Byte) : State := s.sbOp 0x10 fun s => ((s.flogReply req).1, (s.flogReply req).2, s)
def sbBootrec (s : State) : State := s.sbOp 0x11 fun s => (stOk, s.bootRecBytes.take 64, s)

/-- ALARM.GET: an entry of the open list, or nothing past its end (Table 16.8). -/
def alarmReply (s : State) (req : List Byte) : Nat × List Byte :=
  if req.length ≠ 1 then (stBadParam, [])
  else match (s.mgmt.alarms.filter (·.listed))[u8 req 0]? with
    | some a => (stOk, leBytes 2 a.code ++ leBytes 1 a.sev ++ leBytes 1 a.kind ++ leBytes 2 a.idx)
    | none => (stOk, [])
def sbAlarm (s : State) (req : List Byte) : State := s.sbOp 0x12 fun s => ((s.alarmReply req).1, (s.alarmReply req).2, s)

/-- 0xA5 to SB_RELEASE: refused while the card is not seated, without effect when it is already released (R425, R504). -/
def sbRelease (s : State) : State :=
  if !s.sbUp then s else if !s.pwr.seated then s.sbRefuse else s.release 1

/-- A reset requested on the sideband (R504, Table 14.1); it ends a thermal trip that is not released by itself (R442). -/
def sbReset (s : State) (cold : Bool) : State :=
  if s.sbUp then s.endThermLock.wideReset srcSideband (if cold then 1000 else 100) cold false else s

/-! ### Register writes (R13) -/

/-- A field of w bits from bit i of a register value. -/
def field (v : BitVec 32) (i w : Nat) : Nat := v.toNat / 2 ^ i % 2 ^ w

/-- A 64-bit base register keeps its bits from bit n upward; a write gives one half of it (Table 17.1). -/
def lowHalf (old n : Nat) (v : BitVec 32) : Nat := old / 2 ^ 32 * 2 ^ 32 + v.toNat / 2 ^ n * 2 ^ n
def highHalf (old : Nat) (v : BitVec 32) : Nat := v.toNat * 2 ^ 32 + old % 2 ^ 32

/-- Bytes of a little-endian register value into a window at an offset. -/
def intoWindow (t : Tab Byte) (at_ : Nat) (v : BitVec 32) : Tab Byte :=
  (List.range 4).foldl (fun t i => Tab.set 0 t (at_ + i) (BitVec.ofNat 8 (field v (8 * i) 8))) t

/-- The base and size registers, written while STOPPED is 1 (R515). -/
def writeRingCfg (e : EpSt) (off : Nat) (v : BitVec 32) : EpSt :=
  match off with
  | 0x40 => { e with cmdBase := lowHalf e.cmdBase 12 v }
  | 0x44 => { e with cmdBase := highHalf e.cmdBase v }
  | 0x48 => { e with cmdSize := field v 0 5 }
  | 0x50 => { e with cmpBase := lowHalf e.cmpBase 12 v }
  | 0x54 => { e with cmpBase := highHalf e.cmpBase v }
  | 0x58 => { e with cmpSize := field v 0 5 }
  | 0x60 => { e with evtBase := lowHalf e.evtBase 12 v }
  | 0x64 => { e with evtBase := highHalf e.evtBase v }
  | 0x68 => { e with evtSize := field v 0 5 }
  | 0x70 => { e with idxBase := lowHalf e.idxBase 6 v }
  | 0x74 => { e with idxBase := highHalf e.idxBase v }
  | _ => e

/-- The key-wrap window of endpoint k (Table 8.4, R303, R307): all but KWE_LOCK acts only for the owner. -/
def writeKwe (s : State) (k off : Nat) (v : BitVec 32) : State :=
  let x := s.gorse.kwe
  if !s.alive 1 then s
  else if off = 0 then s.kweWriteClaim k (field v 0 8)
  else if x.owner ≠ k then s
  else if off = 0x14 then if v.getLsbD 30 then s.updKwe fun x => { x with done := false } else s
  else if x.busy then s
  else match off with
    | 0x04 =>
      let op := field v 0 4
      let s := s.updKwe fun x => { x with op := BitVec.ofNat 4 op, handle := BitVec.ofNat 12 (field v 8 12) }
      -- the operations 1 to 11 are commands of their own; the reserved ones end at once (R306)
      if v.getLsbD 31 ∧ (op = 0 ∨ 12 ≤ op) then s.kweErr 6 else s
    | 0x08 => s.updKwe fun x => { x with len := field v 0 11 }
    | 0x0C => s.updKwe fun x => { x with din := x.din ++ leBytes 4 v.toNat }
    | _ => s

/-- MBX_MBOX_CTRL: OP and LEN, and GO of an OP that Table 17.16 does not list (R535, R536); the listed ones are commands of their own. -/
def writeMboxCtrl (s : State) (k : Nat) (v : BitVec 32) : State :=
  let op := field v 16 8
  let s := s.updEp k fun e => { e with mboxOp := op, mboxLen := field v 0 9 }
  if v.getLsbD 31 ∧ !([0x01, 0x02, 0x03, 0x10, 0x11, 0x20].contains op) then s.mboxOp k op [] fun s => (stBadOpcode, [], s) else s

/-- A write in BAR0 of endpoint k (Table 17.1); reserved offsets and read-only registers take none. -/
def writeBar0 (s : State) (k off : Nat) (v : BitVec 32) : State :=
  if !s.epUp k then s
  else if off = 0x08 then if v.getLsbD 0 then s.doRingRun k else s.doRingStop k
  else if off = 0x0C then s.updEp k fun e => { e with vec := v.setWidth 16 }
  else if off = 0x18 then (s.updEp k fun e => { e with cmpCi := v }).settle
  else if off = 0x1C then s.updEp k fun e => { e with evtCi := v }
  else if off = 0x20 then s.updEp k fun e => { e with smp := { e.smp with ci := v } }
  else if off = 0x24 then s.updEp k fun e => { e with ts := { e.ts with ci := v } }
  else if off = 0x28 then s.updEp k fun e => { e with cmpHold := field v 16 10, cmpCount := field v 0 8 }
  else if off = 0x2C then s.updEp k fun e => { e with evtHold := field v 16 10, evtCount := field v 0 8 }
  else if 0x40 ≤ off ∧ off < 0x78 then
    if !s.stopped k then s else s.updEp k fun e => writeRingCfg e off v
  else if 0x100 ≤ off ∧ off < 0x200 then s.updEp k fun e => { e with mbox := intoWindow e.mbox (off - 0x100) v }
  else if off = 0x200 then s.writeMboxCtrl k v
  else if 0x300 ≤ off ∧ off < 0x318 then s.writeKwe k (off - 0x300) v
  else if 0x2000 ≤ off ∧ off < 0x2100 then s.updEp k fun e => { e with msix := Tab.set 0 e.msix ((off - 0x2000) / 4) v }
  else s

/-- SB_RST_CAUSE: the SEEN bits clear where 1 is written (Table 14.9). -/
def clearSeen (s : State) (v : BitVec 32) : State := s.updRst fun r => { r with seen := r.seen &&& ~~~v.setWidth 11 }

/-- A write on the sideband (Table 16.5). -/
def writeSideband (s : State) (off : Nat) (v : BitVec 32) : State :=
  if !s.sbUp then s
  else match off with
    | 0x00 | 0x0C | 0x14 | 0x18 => s.sbRefuse
    | 0x04 => if v.getLsbD 26 then s.updMgmt fun m => { m with sbRefused := false } else s
    | 0x08 => s.clearSeen v
    | 0x10 => s.updMgmt fun m => { m with sbSel := field v 0 8 }
    | 0x1C => if v = 0xA5 then s.sbRelease else s.sbRefuse
    | 0x20 => if v = 0x5E then s.sbReset false else if v = 0xC0 then s.sbReset true else s.sbRefuse
    | 0x24 =>
      let op := field v 8 8
      let s := s.updMgmt fun m => { m with sbOp := op, sbLen := field v 0 8 }
      -- GO of an OP that Table 16.8 does not list
      if v.getLsbD 31 ∧ !([0x01, 0x02, 0x03, 0x10, 0x11, 0x12].contains op) then s.sbOp op fun s => (stBadOpcode, [], s) else s
    | _ => if 0x40 ≤ off ∧ off < 0x80 then s.updMgmt fun m => { m with sbWin := intoWindow m.sbWin (off - 0x40) v } else s

/-- A write to a register of 32 bits; other offsets name none. -/
def writeRegister (s : State) (sp : RegSpace) (off : Nat) (v : BitVec 32) : State :=
  if off % 4 ≠ 0 then s
  else match sp with
    | .bar0 k => s.writeBar0 k off v
    | .sideband => s.writeSideband off v

end State

/-! ### Instants at which an application that was waiting can end -/

def execSegment (c : Chan) (bs : List Byte) (s : State) : Host.Outcome State Fault Refusal := .next (s.doSegment c bs).settle
def execSilence (c : Chan) (h : TcmHdr) (sn : BitVec 64) (ch : Byte) (s : State) : Host.Outcome State Fault Refusal :=
  .next (s.tcmRow c h (.silence sn ch)).settle
def execGuardTrip (c : Chan) (t : Nat) (s : State) : Host.Outcome State Fault Refusal := .next (s.doGuardTrip c t).settle
def execBurstEnd (c : Chan) (b : Nat) (s : State) : Host.Outcome State Fault Refusal := .next (s.doBurstEnd c b).settle
def execRampEnd (d : DomainId) (s : State) : Host.Outcome State Fault Refusal := .next (s.doRampEnd d).settle
def execStretchEnd (d : DomainId) (x : StrapSample) (s : State) : Host.Outcome State Fault Refusal := .next (s.doStretchEnd d x)
def execReady (s : State) : Host.Outcome State Fault Refusal := .next s.doReady.settle

/-! ### Rings and links -/

def execMbxDoorbell (k : EpId) (value : BitVec 32) (cmds : List RawCmd) (s : State) : Host.Outcome State Fault Refusal :=
  .next (s.doDoorbell k value cmds)
def execRingRun (k : EpId) (s : State) : Host.Outcome State Fault Refusal := .next (s.doRingRun k)
def execRingStop (k : EpId) (s : State) : Host.Outcome State Fault Refusal := .next (s.doRingStop k)
def execFunctionLevelReset (k : EpId) (s : State) : Host.Outcome State Fault Refusal := .next (s.doFlr k).settle
def execPcieLinkDown (k : EpId) (s : State) : Host.Outcome State Fault Refusal := .next (s.doLinkLost k).settle
def execPcieLinkUp (k : EpId) (s : State) : Host.Outcome State Fault Refusal := .next (s.doLinkUp k)
def execModerationHoldExpiry (k : EpId) (evt : Bool) (s : State) : Host.Outcome State Fault Refusal := .next (s.doHoldExpiry k evt)
def execDevResetSourceAssert (s : State) : Host.Outcome State Fault Refusal := .next s.doDevResetAssert

/-! ### The direct mailbox -/

def execMbxPushBegin (k : EpId) (req : List Byte) (s : State) : Host.Outcome State Fault Refusal := .next (s.mboxPushBegin k req)
def execMbxPushData (k : EpId) (req : List Byte) (s : State) : Host.Outcome State Fault Refusal := .next (s.mboxPushData k req)
def execMbxPushEnd (k : EpId) (req : List Byte) (sigOk : Bool) (s : State) : Host.Outcome State Fault Refusal :=
  .next (s.mboxPushEnd k req sigOk)
def execMbxFlogGet (k : EpId) (req : List Byte) (s : State) : Host.Outcome State Fault Refusal := .next (s.mboxFlog k req)
def execMbxBootrecGet (k : EpId) (s : State) : Host.Outcome State Fault Refusal := .next (s.mboxBootrec k)
def execMbxCmd (k : EpId) (c : RawCmd) (s : State) : Host.Outcome State Fault Refusal := .next (s.doMboxCmd k c)

/-! ### The sideband and the registers -/

def execSbRelease (s : State) : Host.Outcome State Fault Refusal := .next s.sbRelease
def execSbResetWarm (s : State) : Host.Outcome State Fault Refusal := .next (s.sbReset false)
def execSbResetCold (s : State) : Host.Outcome State Fault Refusal := .next (s.sbReset true)
def execSbPushBegin (req : List Byte) (s : State) : Host.Outcome State Fault Refusal := .next (s.sbPushBegin req)
def execSbPushData (req : List Byte) (s : State) : Host.Outcome State Fault Refusal := .next (s.sbPushData req)
def execSbPushEnd (req : List Byte) (sigOk : Bool) (s : State) : Host.Outcome State Fault Refusal :=
  .next (s.sbPushEnd req sigOk)
def execSbFlogGet (req : List Byte) (s : State) : Host.Outcome State Fault Refusal := .next (s.sbFlog req)
def execSbBootrecGet (s : State) : Host.Outcome State Fault Refusal := .next s.sbBootrec
def execSbAlarmGet (req : List Byte) (s : State) : Host.Outcome State Fault Refusal := .next (s.sbAlarm req)
def execRegisterWrite (sp : RegSpace) (off : Nat) (v : BitVec 32) (s : State) : Host.Outcome State Fault Refusal :=
  .next (s.writeRegister sp off v)

/-! ### The catalogue (chapter 18), each command posted behind those its host has posted before -/

def execResync (hd : CmdHdr) (p : List Byte) (s : State) : Host.Outcome State Fault Refusal := .next (s.hostPost ⟨0x0001, hd, p⟩)
def execSummaryGet (hd : CmdHdr) (p : List Byte) (s : State) : Host.Outcome State Fault Refusal := .next (s.hostPost ⟨0x0002, hd, p⟩)
def execDevInfo (hd : CmdHdr) (p : List Byte) (s : State) : Host.Outcome State Fault Refusal := .next (s.hostPost ⟨0x0003, hd, p⟩)
def execDevReset (hd : CmdHdr) (p : List Byte) (s : State) : Host.Outcome State Fault Refusal := .next (s.hostPost ⟨0x0004, hd, p⟩)
def execDevCauseClear (hd : CmdHdr) (p : List Byte) (s : State) : Host.Outcome State Fault Refusal := .next (s.hostPost ⟨0x0005, hd, p⟩)
def execRstPolicySet (hd : CmdHdr) (p : List Byte) (s : State) : Host.Outcome State Fault Refusal := .next (s.hostPost ⟨0x0006, hd, p⟩)
def execPartAssign (hd : CmdHdr) (p : List Byte) (s : State) : Host.Outcome State Fault Refusal := .next (s.hostPost ⟨0x0101, hd, p⟩)
def execPartQuotaSet (hd : CmdHdr) (p : List Byte) (s : State) : Host.Outcome State Fault Refusal := .next (s.hostPost ⟨0x0102, hd, p⟩)
def execPartReset (hd : CmdHdr) (p : List Byte) (s : State) : Host.Outcome State Fault Refusal := .next (s.hostPost ⟨0x0103, hd, p⟩)
def execPartGet (hd : CmdHdr) (p : List Byte) (s : State) : Host.Outcome State Fault Refusal := .next (s.hostPost ⟨0x0104, hd, p⟩)
def execChanOpen (hd : CmdHdr) (p : List Byte) (s : State) : Host.Outcome State Fault Refusal := .next (s.hostPost ⟨0x0201, hd, p⟩)
def execChanClose (hd : CmdHdr) (p : List Byte) (s : State) : Host.Outcome State Fault Refusal := .next (s.hostPost ⟨0x0202, hd, p⟩)
def execChanFeSet (hd : CmdHdr) (p : List Byte) (s : State) : Host.Outcome State Fault Refusal := .next (s.hostPost ⟨0x0203, hd, p⟩)
def execChanTimerSet (hd : CmdHdr) (p : List Byte) (s : State) : Host.Outcome State Fault Refusal := .next (s.hostPost ⟨0x0204, hd, p⟩)
def execChanStatsGet (hd : CmdHdr) (p : List Byte) (s : State) : Host.Outcome State Fault Refusal := .next (s.hostPost ⟨0x0205, hd, p⟩)
def execChanGuardClear (hd : CmdHdr) (p : List Byte) (s : State) : Host.Outcome State Fault Refusal := .next (s.hostPost ⟨0x0206, hd, p⟩)
def execChanWake (hd : CmdHdr) (p : List Byte) (s : State) : Host.Outcome State Fault Refusal := .next (s.hostPost ⟨0x0207, hd, p⟩)
def execChanPlanSet (hd : CmdHdr) (p : List Byte) (s : State) : Host.Outcome State Fault Refusal := .next (s.hostPost ⟨0x0208, hd, p⟩)
def execChanDozeSet (hd : CmdHdr) (p : List Byte) (s : State) : Host.Outcome State Fault Refusal := .next (s.hostPost ⟨0x0209, hd, p⟩)
def execChanReset (hd : CmdHdr) (p : List Byte) (s : State) : Host.Outcome State Fault Refusal := .next (s.hostPost ⟨0x020A, hd, p⟩)
def execFlowCtxSet (hd : CmdHdr) (p : List Byte) (s : State) : Host.Outcome State Fault Refusal := .next (s.hostPost ⟨0x020B, hd, p⟩)
def execFeMgmtSet (hd : CmdHdr) (p : List Byte) (s : State) : Host.Outcome State Fault Refusal := .next (s.hostPost ⟨0x020C, hd, p⟩)
def execQueueSet (hd : CmdHdr) (p : List Byte) (s : State) : Host.Outcome State Fault Refusal := .next (s.hostPost ⟨0x0301, hd, p⟩)
def execQueueShaperSet (hd : CmdHdr) (p : List Byte) (s : State) : Host.Outcome State Fault Refusal := .next (s.hostPost ⟨0x0302, hd, p⟩)
def execQueueDropSet (hd : CmdHdr) (p : List Byte) (s : State) : Host.Outcome State Fault Refusal := .next (s.hostPost ⟨0x0303, hd, p⟩)
def execQueueSampleSet (hd : CmdHdr) (p : List Byte) (s : State) : Host.Outcome State Fault Refusal := .next (s.hostPost ⟨0x0304, hd, p⟩)
def execQueueSpillSet (hd : CmdHdr) (p : List Byte) (s : State) : Host.Outcome State Fault Refusal := .next (s.hostPost ⟨0x0305, hd, p⟩)
def execQueueFcSet (hd : CmdHdr) (p : List Byte) (s : State) : Host.Outcome State Fault Refusal := .next (s.hostPost ⟨0x0306, hd, p⟩)
def execQueueFlush (hd : CmdHdr) (p : List Byte) (s : State) : Host.Outcome State Fault Refusal := .next (s.hostPost ⟨0x0307, hd, p⟩)
def execQueueGet (hd : CmdHdr) (p : List Byte) (s : State) : Host.Outcome State Fault Refusal := .next (s.hostPost ⟨0x0308, hd, p⟩)
def execQueueStatsGet (hd : CmdHdr) (p : List Byte) (s : State) : Host.Outcome State Fault Refusal := .next (s.hostPost ⟨0x0309, hd, p⟩)
def execQueueLatGet (hd : CmdHdr) (p : List Byte) (s : State) : Host.Outcome State Fault Refusal := .next (s.hostPost ⟨0x030A, hd, p⟩)
def execAllocSet (hd : CmdHdr) (p : List Byte) (s : State) : Host.Outcome State Fault Refusal := .next (s.hostPost ⟨0x0310, hd, p⟩)
def execAllocShaperSet (hd : CmdHdr) (p : List Byte) (s : State) : Host.Outcome State Fault Refusal := .next (s.hostPost ⟨0x0311, hd, p⟩)
def execAllocGet (hd : CmdHdr) (p : List Byte) (s : State) : Host.Outcome State Fault Refusal := .next (s.hostPost ⟨0x0312, hd, p⟩)
def execChanPeakSet (hd : CmdHdr) (p : List Byte) (s : State) : Host.Outcome State Fault Refusal := .next (s.hostPost ⟨0x0313, hd, p⟩)
def execPolicerSet (hd : CmdHdr) (p : List Byte) (s : State) : Host.Outcome State Fault Refusal := .next (s.hostPost ⟨0x0320, hd, p⟩)
def execPolicerStatsGet (hd : CmdHdr) (p : List Byte) (s : State) : Host.Outcome State Fault Refusal := .next (s.hostPost ⟨0x0321, hd, p⟩)
def execSampleRingSet (hd : CmdHdr) (p : List Byte) (s : State) : Host.Outcome State Fault Refusal := .next (s.hostPost ⟨0x0330, hd, p⟩)
def execRuleAdd (hd : CmdHdr) (p : List Byte) (s : State) : Host.Outcome State Fault Refusal := .next (s.hostPost ⟨0x0401, hd, p⟩)
def execRuleMod (hd : CmdHdr) (p : List Byte) (s : State) : Host.Outcome State Fault Refusal := .next (s.hostPost ⟨0x0402, hd, p⟩)
def execRuleDel (hd : CmdHdr) (p : List Byte) (s : State) : Host.Outcome State Fault Refusal := .next (s.hostPost ⟨0x0403, hd, p⟩)
def execRuleGet (hd : CmdHdr) (p : List Byte) (s : State) : Host.Outcome State Fault Refusal := .next (s.hostPost ⟨0x0404, hd, p⟩)
def execRuleCommit (hd : CmdHdr) (p : List Byte) (s : State) : Host.Outcome State Fault Refusal := .next (s.hostPost ⟨0x0405, hd, p⟩)
def execRuleAbort (hd : CmdHdr) (p : List Byte) (s : State) : Host.Outcome State Fault Refusal := .next (s.hostPost ⟨0x0406, hd, p⟩)
def execClProfileSet (hd : CmdHdr) (p : List Byte) (s : State) : Host.Outcome State Fault Refusal := .next (s.hostPost ⟨0x0407, hd, p⟩)
def execClSourceSet (hd : CmdHdr) (p : List Byte) (s : State) : Host.Outcome State Fault Refusal := .next (s.hostPost ⟨0x0408, hd, p⟩)
def execCounterGet (hd : CmdHdr) (p : List Byte) (s : State) : Host.Outcome State Fault Refusal := .next (s.hostPost ⟨0x0409, hd, p⟩)
def execClStatsGet (hd : CmdHdr) (p : List Byte) (s : State) : Host.Outcome State Fault Refusal := .next (s.hostPost ⟨0x040A, hd, p⟩)
def execBondSet (hd : CmdHdr) (p : List Byte) (s : State) : Host.Outcome State Fault Refusal := .next (s.hostPost ⟨0x0501, hd, p⟩)
def execBondTableSet (hd : CmdHdr) (p : List Byte) (s : State) : Host.Outcome State Fault Refusal := .next (s.hostPost ⟨0x0502, hd, p⟩)
def execBondStatsGet (hd : CmdHdr) (p : List Byte) (s : State) : Host.Outcome State Fault Refusal := .next (s.hostPost ⟨0x0503, hd, p⟩)
def execLagSet (hd : CmdHdr) (p : List Byte) (s : State) : Host.Outcome State Fault Refusal := .next (s.hostPost ⟨0x0504, hd, p⟩)
def execLagTableSet (hd : CmdHdr) (p : List Byte) (s : State) : Host.Outcome State Fault Refusal := .next (s.hostPost ⟨0x0505, hd, p⟩)
def execKeyChanSet (hd : CmdHdr) (p : List Byte) (s : State) : Host.Outcome State Fault Refusal := .next (s.hostPost ⟨0x0601, hd, p⟩)
def execKeyStateGet (hd : CmdHdr) (p : List Byte) (s : State) : Host.Outcome State Fault Refusal := .next (s.hostPost ⟨0x0602, hd, p⟩)
def execTimeDomainBind (hd : CmdHdr) (p : List Byte) (s : State) : Host.Outcome State Fault Refusal := .next (s.hostPost ⟨0x0701, hd, p⟩)
def execTimeDomainSet (hd : CmdHdr) (p : List Byte) (s : State) : Host.Outcome State Fault Refusal := .next (s.hostPost ⟨0x0702, hd, p⟩)
def execTimeSelectSet (hd : CmdHdr) (p : List Byte) (s : State) : Host.Outcome State Fault Refusal := .next (s.hostPost ⟨0x0703, hd, p⟩)
def execTimeResolve (hd : CmdHdr) (p : List Byte) (s : State) : Host.Outcome State Fault Refusal := .next (s.hostPost ⟨0x0704, hd, p⟩)
def execTimeSet (hd : CmdHdr) (p : List Byte) (s : State) : Host.Outcome State Fault Refusal := .next (s.hostPost ⟨0x0705, hd, p⟩)
def execTimeGet (hd : CmdHdr) (p : List Byte) (s : State) : Host.Outcome State Fault Refusal := .next (s.hostPost ⟨0x0706, hd, p⟩)
def execTimeStatsGet (hd : CmdHdr) (p : List Byte) (s : State) : Host.Outcome State Fault Refusal := .next (s.hostPost ⟨0x0707, hd, p⟩)
def execPpsSet (hd : CmdHdr) (p : List Byte) (s : State) : Host.Outcome State Fault Refusal := .next (s.hostPost ⟨0x0708, hd, p⟩)
def execTodSet (hd : CmdHdr) (p : List Byte) (s : State) : Host.Outcome State Fault Refusal := .next (s.hostPost ⟨0x0709, hd, p⟩)
def execTrigSet (hd : CmdHdr) (p : List Byte) (s : State) : Host.Outcome State Fault Refusal := .next (s.hostPost ⟨0x070A, hd, p⟩)
def execCaptSet (hd : CmdHdr) (p : List Byte) (s : State) : Host.Outcome State Fault Refusal := .next (s.hostPost ⟨0x070B, hd, p⟩)
def execPtpPortSet (hd : CmdHdr) (p : List Byte) (s : State) : Host.Outcome State Fault Refusal := .next (s.hostPost ⟨0x070C, hd, p⟩)
def execPtpSourceSet (hd : CmdHdr) (p : List Byte) (s : State) : Host.Outcome State Fault Refusal := .next (s.hostPost ⟨0x070D, hd, p⟩)
def execTsRingSet (hd : CmdHdr) (p : List Byte) (s : State) : Host.Outcome State Fault Refusal := .next (s.hostPost ⟨0x070E, hd, p⟩)
def execGateSet (hd : CmdHdr) (p : List Byte) (s : State) : Host.Outcome State Fault Refusal := .next (s.hostPost ⟨0x070F, hd, p⟩)
def execGateGet (hd : CmdHdr) (p : List Byte) (s : State) : Host.Outcome State Fault Refusal := .next (s.hostPost ⟨0x0710, hd, p⟩)
def execTribAllocSet (hd : CmdHdr) (p : List Byte) (s : State) : Host.Outcome State Fault Refusal := .next (s.hostPost ⟨0x0801, hd, p⟩)
def execTribStreamSet (hd : CmdHdr) (p : List Byte) (s : State) : Host.Outcome State Fault Refusal := .next (s.hostPost ⟨0x0802, hd, p⟩)
def execTribConnSet (hd : CmdHdr) (p : List Byte) (s : State) : Host.Outcome State Fault Refusal := .next (s.hostPost ⟨0x0803, hd, p⟩)
def execTribConnGet (hd : CmdHdr) (p : List Byte) (s : State) : Host.Outcome State Fault Refusal := .next (s.hostPost ⟨0x0804, hd, p⟩)
def execTribPageArm (hd : CmdHdr) (p : List Byte) (s : State) : Host.Outcome State Fault Refusal := .next (s.hostPost ⟨0x0805, hd, p⟩)
def execTribPageDisarm (hd : CmdHdr) (p : List Byte) (s : State) : Host.Outcome State Fault Refusal := .next (s.hostPost ⟨0x0806, hd, p⟩)
def execTribStatsGet (hd : CmdHdr) (p : List Byte) (s : State) : Host.Outcome State Fault Refusal := .next (s.hostPost ⟨0x0807, hd, p⟩)
def execOdcPortSet (hd : CmdHdr) (p : List Byte) (s : State) : Host.Outcome State Fault Refusal := .next (s.hostPost ⟨0x0808, hd, p⟩)
def execOdcStatsGet (hd : CmdHdr) (p : List Byte) (s : State) : Host.Outcome State Fault Refusal := .next (s.hostPost ⟨0x0809, hd, p⟩)
def execHportModeSet (hd : CmdHdr) (p : List Byte) (s : State) : Host.Outcome State Fault Refusal := .next (s.hostPost ⟨0x0901, hd, p⟩)
def execHportSet (hd : CmdHdr) (p : List Byte) (s : State) : Host.Outcome State Fault Refusal := .next (s.hostPost ⟨0x0902, hd, p⟩)
def execHportSleepSet (hd : CmdHdr) (p : List Byte) (s : State) : Host.Outcome State Fault Refusal := .next (s.hostPost ⟨0x0903, hd, p⟩)
def execHportSleep (hd : CmdHdr) (p : List Byte) (s : State) : Host.Outcome State Fault Refusal := .next (s.hostPost ⟨0x0904, hd, p⟩)
def execHportWake (hd : CmdHdr) (p : List Byte) (s : State) : Host.Outcome State Fault Refusal := .next (s.hostPost ⟨0x0905, hd, p⟩)
def execHportStatusGet (hd : CmdHdr) (p : List Byte) (s : State) : Host.Outcome State Fault Refusal := .next (s.hostPost ⟨0x0906, hd, p⟩)
def execHportStatsGet (hd : CmdHdr) (p : List Byte) (s : State) : Host.Outcome State Fault Refusal := .next (s.hostPost ⟨0x0907, hd, p⟩)
def execLaneStatusGet (hd : CmdHdr) (p : List Byte) (s : State) : Host.Outcome State Fault Refusal := .next (s.hostPost ⟨0x0A01, hd, p⟩)
def execLaneTxSet (hd : CmdHdr) (p : List Byte) (s : State) : Host.Outcome State Fault Refusal := .next (s.hostPost ⟨0x0A02, hd, p⟩)
def execLaneRxSet (hd : CmdHdr) (p : List Byte) (s : State) : Host.Outcome State Fault Refusal := .next (s.hostPost ⟨0x0A03, hd, p⟩)
def execLaneTestSet (hd : CmdHdr) (p : List Byte) (s : State) : Host.Outcome State Fault Refusal := .next (s.hostPost ⟨0x0A04, hd, p⟩)
def execLaneInject (hd : CmdHdr) (p : List Byte) (s : State) : Host.Outcome State Fault Refusal := .next (s.hostPost ⟨0x0A05, hd, p⟩)
def execLaneEyeGet (hd : CmdHdr) (p : List Byte) (s : State) : Host.Outcome State Fault Refusal := .next (s.hostPost ⟨0x0A06, hd, p⟩)
def execLaneStatsGet (hd : CmdHdr) (p : List Byte) (s : State) : Host.Outcome State Fault Refusal := .next (s.hostPost ⟨0x0A07, hd, p⟩)
def execPwrBudgetSet (hd : CmdHdr) (p : List Byte) (s : State) : Host.Outcome State Fault Refusal := .next (s.hostPost ⟨0x0B01, hd, p⟩)
def execPwrRelease (hd : CmdHdr) (p : List Byte) (s : State) : Host.Outcome State Fault Refusal := .next (s.hostPost ⟨0x0B02, hd, p⟩)
def execPwrEnergyGet (hd : CmdHdr) (p : List Byte) (s : State) : Host.Outcome State Fault Refusal := .next (s.hostPost ⟨0x0B03, hd, p⟩)
def execPwrStateGet (hd : CmdHdr) (p : List Byte) (s : State) : Host.Outcome State Fault Refusal := .next (s.hostPost ⟨0x0B04, hd, p⟩)
def execDomainReset (hd : CmdHdr) (p : List Byte) (s : State) : Host.Outcome State Fault Refusal := .next (s.hostPost ⟨0x0B05, hd, p⟩)
def execArbPrioSet (hd : CmdHdr) (p : List Byte) (s : State) : Host.Outcome State Fault Refusal := .next (s.hostPost ⟨0x0C01, hd, p⟩)
def execArbCommit (hd : CmdHdr) (p : List Byte) (s : State) : Host.Outcome State Fault Refusal := .next (s.hostPost ⟨0x0C02, hd, p⟩)
def execArbGet (hd : CmdHdr) (p : List Byte) (s : State) : Host.Outcome State Fault Refusal := .next (s.hostPost ⟨0x0C03, hd, p⟩)
def execMemBankSet (hd : CmdHdr) (p : List Byte) (s : State) : Host.Outcome State Fault Refusal := .next (s.hostPost ⟨0x0C04, hd, p⟩)
def execMemStatsGet (hd : CmdHdr) (p : List Byte) (s : State) : Host.Outcome State Fault Refusal := .next (s.hostPost ⟨0x0C05, hd, p⟩)
def execSensorGet (hd : CmdHdr) (p : List Byte) (s : State) : Host.Outcome State Fault Refusal := .next (s.hostPost ⟨0x0D01, hd, p⟩)
def execAlarmThreshSet (hd : CmdHdr) (p : List Byte) (s : State) : Host.Outcome State Fault Refusal := .next (s.hostPost ⟨0x0D02, hd, p⟩)
def execAlarmAck (hd : CmdHdr) (p : List Byte) (s : State) : Host.Outcome State Fault Refusal := .next (s.hostPost ⟨0x0D03, hd, p⟩)
def execLogRead (hd : CmdHdr) (p : List Byte) (s : State) : Host.Outcome State Fault Refusal := .next (s.hostPost ⟨0x0D04, hd, p⟩)
def execFlogRead (hd : CmdHdr) (p : List Byte) (s : State) : Host.Outcome State Fault Refusal := .next (s.hostPost ⟨0x0D05, hd, p⟩)
def execWdogSet (hd : CmdHdr) (p : List Byte) (s : State) : Host.Outcome State Fault Refusal := .next (s.hostPost ⟨0x0D06, hd, p⟩)
def execFwStage (hd : CmdHdr) (p : List Byte) (s : State) : Host.Outcome State Fault Refusal := .next (s.hostPost ⟨0x0E01, hd, p⟩)
def execFwVerify (hd : CmdHdr) (p : List Byte) (s : State) : Host.Outcome State Fault Refusal := .next (s.hostPost ⟨0x0E02, hd, p⟩)
def execFwActivate (hd : CmdHdr) (p : List Byte) (s : State) : Host.Outcome State Fault Refusal := .next (s.hostPost ⟨0x0E03, hd, p⟩)
def execFwStatusGet (hd : CmdHdr) (p : List Byte) (s : State) : Host.Outcome State Fault Refusal := .next (s.hostPost ⟨0x0E04, hd, p⟩)
def execFuseSvnAdvance (hd : CmdHdr) (p : List Byte) (s : State) : Host.Outcome State Fault Refusal := .next (s.hostPost ⟨0x0E05, hd, p⟩)
def execFusePinmapBurn (hd : CmdHdr) (p : List Byte) (s : State) : Host.Outcome State Fault Refusal := .next (s.hostPost ⟨0x0E06, hd, p⟩)
def execAttestQuote (hd : CmdHdr) (p : List Byte) (s : State) : Host.Outcome State Fault Refusal := .next (s.hostPost ⟨0x0E07, hd, p⟩)
def execAttestCertGet (hd : CmdHdr) (p : List Byte) (s : State) : Host.Outcome State Fault Refusal := .next (s.hostPost ⟨0x0E08, hd, p⟩)

end Sys2Proof.Machine
end

