-- ==== Sys2Proof/Machine/Dispatch.lean ====
section
/-! DEFINITION. The dispatcher: one arm per command, each a direct call of its meaning. -/

namespace Sys2Proof.Machine

/-- The effect of a command on everything but the queue of waiting commands. -/
def exec (i : Instr) (s : State) : Host.Outcome State Fault Refusal :=
  match i with
  | .syncMatch c pos bits => Sys2Proof.Machine.execSyncMatch c pos bits s
  | .candidateCheck c pos f => Sys2Proof.Machine.execCandidateCheck c pos f s
  | .downstreamFrame c f => Sys2Proof.Machine.execDownstreamFrame c f s
  | .mapHandOff c entries crc => Sys2Proof.Machine.execMapHandOff c entries crc s
  | .segment c bytes => Sys2Proof.Machine.execSegment c bytes s
  | .profile c h b => Sys2Proof.Machine.execProfile c h b s
  | .assignId c h b => Sys2Proof.Machine.execAssignId c h b s
  | .assignEqd c h eqd effSfc => Sys2Proof.Machine.execAssignEqd c h eqd effSfc s
  | .allocMap c h op es => Sys2Proof.Machine.execAllocMap c h op es s
  | .flowMap c h op es => Sys2Proof.Machine.execFlowMap c h op es s
  | .keyReq c h b => Sys2Proof.Machine.execKeyReq c h b s
  | .keySwitch c h b => Sys2Proof.Machine.execKeySwitch c h b s
  | .timeAnnounce c h b => Sys2Proof.Machine.execTimeAnnounce c h b s
  | .sleepGrant c h k startSfc => Sys2Proof.Machine.execSleepGrant c h k startSfc s
  | .wakeReq c h reason => Sys2Proof.Machine.execWakeReq c h reason s
  | .deactivate c h reason => Sys2Proof.Machine.execDeactivate c h reason s
  | .silence c h serial chan => Sys2Proof.Machine.execSilence c h serial chan s
  | .unsilence c h serial chan => Sys2Proof.Machine.execUnsilence c h serial chan s
  | .grantRevoke c h targetSfc ids => Sys2Proof.Machine.execGrantRevoke c h targetSfc ids s
  | .ack c h ackType ackSeq result => Sys2Proof.Machine.execAck c h ackType ackSeq result s
  | .lockTimeout c => Sys2Proof.Machine.execLockTimeout c s
  | .announceTimeout c => Sys2Proof.Machine.execAnnounceTimeout c s
  | .rangeTimeout c => Sys2Proof.Machine.execRangeTimeout c s
  | .holdTimeout c => Sys2Proof.Machine.execHoldTimeout c s
  | .tcmResend c => Sys2Proof.Machine.execTcmResend c s
  | .guardTrip c t => Sys2Proof.Machine.execGuardTrip c t s
  | .dozeWake c => Sys2Proof.Machine.execDozeWake c s
  | .dozeIdle c => Sys2Proof.Machine.execDozeIdle c s
  | .runAheadPrediction c p => Sys2Proof.Machine.execRunAheadPrediction c p s
  | .planStart c w => Sys2Proof.Machine.execPlanStart c w s
  | .enginePlanComplete c w => Sys2Proof.Machine.execEnginePlanComplete c w s
  | .committedWakeRequest c b => Sys2Proof.Machine.execCommittedWakeRequest c b s
  | .planDeadline c b => Sys2Proof.Machine.execPlanDeadline c b s
  | .fallbackPlanDelivery c b => Sys2Proof.Machine.execFallbackPlanDelivery c b s
  | .assemblyPoint c b faults => Sys2Proof.Machine.execAssemblyPoint c b faults s
  | .burstEnd c b => Sys2Proof.Machine.execBurstEnd c b s
  | .hostFrameReceived m f => Sys2Proof.Machine.execHostFrameReceived m f s
  | .pauseTimeExpiry m k => Sys2Proof.Machine.execPauseTimeExpiry m k s
  | .pauseRefresh m k => Sys2Proof.Machine.execPauseRefresh m k s
  | .egressFrameTake m x => Sys2Proof.Machine.execEgressFrameTake m x s
  | .shaperTick => Sys2Proof.Machine.execShaperTick s
  | .queueSample q => Sys2Proof.Machine.execQueueSample q s
  | .reorderTimeout g => Sys2Proof.Machine.execReorderTimeout g s
  | .pageWriteDone q linkErrs => Sys2Proof.Machine.execPageWriteDone q linkErrs s
  | .pageReadIssue q => Sys2Proof.Machine.execPageReadIssue q s
  | .pageReadDone q linkErrs damage => Sys2Proof.Machine.execPageReadDone q linkErrs damage s
  | .stackFailed st => Sys2Proof.Machine.execStackFailed st s
  | .stackSelfRefresh st => Sys2Proof.Machine.execStackSelfRefresh st s
  | .spillPortRetry port refused => Sys2Proof.Machine.execSpillPortRetry port refused s
  | .patrolScrub st x => Sys2Proof.Machine.execPatrolScrub st x s
  | .fragCollectionExpiry c => Sys2Proof.Machine.execFragCollectionExpiry c s
  | .erasureAlarm src => Sys2Proof.Machine.execErasureAlarm src s
  | .kweClaim u v => Sys2Proof.Machine.execKweClaim u v s
  | .kweRelease u => Sys2Proof.Machine.execKweRelease u s
  | .kweLockCut => Sys2Proof.Machine.execKweLockCut s
  | .kweLoadk u => Sys2Proof.Machine.execKweLoadk u s
  | .kweWrap u => Sys2Proof.Machine.execKweWrap u s
  | .kweUnwrap u => Sys2Proof.Machine.execKweUnwrap u s
  | .kweWrapp u => Sys2Proof.Machine.execKweWrapp u s
  | .kweUnwrapp u => Sys2Proof.Machine.execKweUnwrapp u s
  | .kweSeal u => Sys2Proof.Machine.execKweSeal u s
  | .kweLoadPs u => Sys2Proof.Machine.execKweLoadPs u s
  | .kweLoadKek u handle => Sys2Proof.Machine.execKweLoadKek u handle s
  | .kweClear u => Sys2Proof.Machine.execKweClear u s
  | .kweLineWrap u c kdir slot => Sys2Proof.Machine.execKweLineWrap u c kdir slot s
  | .kweBcastUnwrap u c bwk => Sys2Proof.Machine.execKweBcastUnwrap u c bwk s
  | .kweOpDone => Sys2Proof.Machine.execKweOpDone s
  | .annTimeout d => Sys2Proof.Machine.execAnnTimeout d s
  | .revertExpiry => Sys2Proof.Machine.execRevertExpiry s
  | .ppsEdge => Sys2Proof.Machine.execPpsEdge s
  | .todMessage => Sys2Proof.Machine.execTodMessage s
  | .triggerPulse t => Sys2Proof.Machine.execTriggerPulse t s
  | .captureEdge pin rising off => Sys2Proof.Machine.execCaptureEdge pin rising off s
  | .ptpSyncSend inst => Sys2Proof.Machine.execPtpSyncSend inst s
  | .ptpAnnounceSend inst => Sys2Proof.Machine.execPtpAnnounceSend inst s
  | .gateSwitch m => Sys2Proof.Machine.execGateSwitch m s
  | .tribPartsEnqueue c => Sys2Proof.Machine.execTribPartsEnqueue c s
  | .tributaryFrameRx m f => Sys2Proof.Machine.execTributaryFrameRx m f s
  | .odcPortFrame k di => Sys2Proof.Machine.execOdcPortFrame k di s
  | .quietNoticeEnd p => Sys2Proof.Machine.execQuietNoticeEnd p s
  | .wakeDetected p => Sys2Proof.Machine.execWakeDetected p s
  | .linkChange m up => Sys2Proof.Machine.execLinkChange m up s
  | .blockLock l inverted => Sys2Proof.Machine.execBlockLock l inverted s
  | .blockLockLoss l => Sys2Proof.Machine.execBlockLockLoss l s
  | .laneMarker l raw arrival => Sys2Proof.Machine.execLaneMarker l raw arrival s
  | .losDetect l on => Sys2Proof.Machine.execLosDetect l on s
  | .lolDetect l on => Sys2Proof.Machine.execLolDetect l on s
  | .felosDetect c on => Sys2Proof.Machine.execFelosDetect c on s
  | .prbsLock l => Sys2Proof.Machine.execPrbsLock l s
  | .prbsLockLoss l => Sys2Proof.Machine.execPrbsLockLoss l s
  | .eyeScanDone l counts => Sys2Proof.Machine.execEyeScanDone l counts s
  | .feLanePoll c code mismatch txFault => Sys2Proof.Machine.execFeLanePoll c code mismatch txFault s
  | .feBusStretchTimeout k => Sys2Proof.Machine.execFeBusStretchTimeout k s
  | .brackenGrant d => Sys2Proof.Machine.execBrackenGrant d s
  | .rampEnd d => Sys2Proof.Machine.execRampEnd d s
  | .serviceWaitLimit d => Sys2Proof.Machine.execServiceWaitLimit d s
  | .powerOverBudget measured => Sys2Proof.Machine.execPowerOverBudget measured s
  | .energyIntegration uj => Sys2Proof.Machine.execEnergyIntegration uj s
  | .cardSeated => Sys2Proof.Machine.execCardSeated s
  | .cardWithdrawal => Sys2Proof.Machine.execCardWithdrawal s
  | .railPowerGoodLoss rail => Sys2Proof.Machine.execRailPowerGoodLoss rail s
  | .railPowerGood rail => Sys2Proof.Machine.execRailPowerGood rail s
  | .railOvercurrent rail => Sys2Proof.Machine.execRailOvercurrent rail s
  | .thermalTrip sensor => Sys2Proof.Machine.execThermalTrip sensor s
  | .emergencyStep => Sys2Proof.Machine.execEmergencyStep s
  | .thermalRestart => Sys2Proof.Machine.execThermalRestart s
  | .sensorSample temps => Sys2Proof.Machine.execSensorSample temps s
  | .tempAlarmClear major => Sys2Proof.Machine.execTempAlarmClear major s
  | .railSample vs => Sys2Proof.Machine.execRailSample vs s
  | .railAlarmClear rail current => Sys2Proof.Machine.execRailAlarmClear rail current s
  | .powerOn => Sys2Proof.Machine.execPowerOn s
  | .resetNLow => Sys2Proof.Machine.execResetNLow s
  | .resetNHigh => Sys2Proof.Machine.execResetNHigh s
  | .resetNHeld => Sys2Proof.Machine.execResetNHeld s
  | .resetNDriveEnd => Sys2Proof.Machine.execResetNDriveEnd s
  | .blankingEnd low => Sys2Proof.Machine.execBlankingEnd low s
  | .watchdogExpiry => Sys2Proof.Machine.execWatchdogExpiry s
  | .stretchEnd d straps => Sys2Proof.Machine.execStretchEnd d straps s
  | .candidateVerified readOk img => Sys2Proof.Machine.execCandidateVerified readOk img s
  | .ready => Sys2Proof.Machine.execReady s
  | .mgmtRestartTimeout => Sys2Proof.Machine.execMgmtRestartTimeout s
  | .clusterReady k ok => Sys2Proof.Machine.execClusterReady k ok s
  | .drbgHealthFailure test => Sys2Proof.Machine.execDrbgHealthFailure test s
  | .drbgRestart => Sys2Proof.Machine.execDrbgRestart s
  | .drbgReseed => Sys2Proof.Machine.execDrbgReseed s
  | .flashLogWrite ok => Sys2Proof.Machine.execFlashLogWrite ok s
  | .asyncOperationDone op status reason img => Sys2Proof.Machine.execAsyncOperationDone op status reason img s
  | .mbxDoorbell k value cmds => Sys2Proof.Machine.execMbxDoorbell k value cmds s
  | .ringRun k => Sys2Proof.Machine.execRingRun k s
  | .ringStop k => Sys2Proof.Machine.execRingStop k s
  | .functionLevelReset k => Sys2Proof.Machine.execFunctionLevelReset k s
  | .pcieLinkDown k => Sys2Proof.Machine.execPcieLinkDown k s
  | .moderationHoldExpiry k evt => Sys2Proof.Machine.execModerationHoldExpiry k evt s
  | .mbxPushBegin k req => Sys2Proof.Machine.execMbxPushBegin k req s
  | .mbxPushData k req => Sys2Proof.Machine.execMbxPushData k req s
  | .mbxPushEnd k req sigOk => Sys2Proof.Machine.execMbxPushEnd k req sigOk s
  | .mbxFlogGet k req => Sys2Proof.Machine.execMbxFlogGet k req s
  | .mbxBootrecGet k => Sys2Proof.Machine.execMbxBootrecGet k s
  | .mbxCmd k cmd => Sys2Proof.Machine.execMbxCmd k cmd s
  | .sbRelease => Sys2Proof.Machine.execSbRelease s
  | .sbResetWarm => Sys2Proof.Machine.execSbResetWarm s
  | .sbResetCold => Sys2Proof.Machine.execSbResetCold s
  | .sbPushBegin req => Sys2Proof.Machine.execSbPushBegin req s
  | .sbPushData req => Sys2Proof.Machine.execSbPushData req s
  | .sbPushEnd req sigOk => Sys2Proof.Machine.execSbPushEnd req sigOk s
  | .sbFlogGet req => Sys2Proof.Machine.execSbFlogGet req s
  | .sbBootrecGet => Sys2Proof.Machine.execSbBootrecGet s
  | .sbAlarmGet req => Sys2Proof.Machine.execSbAlarmGet req s
  | .registerWrite sp off v => Sys2Proof.Machine.execRegisterWrite sp off v s
  | .resync hd p => Sys2Proof.Machine.execResync hd p s
  | .summaryGet hd p => Sys2Proof.Machine.execSummaryGet hd p s
  | .devInfo hd p => Sys2Proof.Machine.execDevInfo hd p s
  | .devReset hd p => Sys2Proof.Machine.execDevReset hd p s
  | .devCauseClear hd p => Sys2Proof.Machine.execDevCauseClear hd p s
  | .rstPolicySet hd p => Sys2Proof.Machine.execRstPolicySet hd p s
  | .partAssign hd p => Sys2Proof.Machine.execPartAssign hd p s
  | .partQuotaSet hd p => Sys2Proof.Machine.execPartQuotaSet hd p s
  | .partReset hd p => Sys2Proof.Machine.execPartReset hd p s
  | .partGet hd p => Sys2Proof.Machine.execPartGet hd p s
  | .chanOpen hd p => Sys2Proof.Machine.execChanOpen hd p s
  | .chanClose hd p => Sys2Proof.Machine.execChanClose hd p s
  | .chanFeSet hd p => Sys2Proof.Machine.execChanFeSet hd p s
  | .chanTimerSet hd p => Sys2Proof.Machine.execChanTimerSet hd p s
  | .chanStatsGet hd p => Sys2Proof.Machine.execChanStatsGet hd p s
  | .chanGuardClear hd p => Sys2Proof.Machine.execChanGuardClear hd p s
  | .chanWake hd p => Sys2Proof.Machine.execChanWake hd p s
  | .chanPlanSet hd p => Sys2Proof.Machine.execChanPlanSet hd p s
  | .chanDozeSet hd p => Sys2Proof.Machine.execChanDozeSet hd p s
  | .chanReset hd p => Sys2Proof.Machine.execChanReset hd p s
  | .flowCtxSet hd p => Sys2Proof.Machine.execFlowCtxSet hd p s
  | .feMgmtSet hd p => Sys2Proof.Machine.execFeMgmtSet hd p s
  | .queueSet hd p => Sys2Proof.Machine.execQueueSet hd p s
  | .queueShaperSet hd p => Sys2Proof.Machine.execQueueShaperSet hd p s
  | .queueDropSet hd p => Sys2Proof.Machine.execQueueDropSet hd p s
  | .queueSampleSet hd p => Sys2Proof.Machine.execQueueSampleSet hd p s
  | .queueSpillSet hd p => Sys2Proof.Machine.execQueueSpillSet hd p s
  | .queueFcSet hd p => Sys2Proof.Machine.execQueueFcSet hd p s
  | .queueFlush hd p => Sys2Proof.Machine.execQueueFlush hd p s
  | .queueGet hd p => Sys2Proof.Machine.execQueueGet hd p s
  | .queueStatsGet hd p => Sys2Proof.Machine.execQueueStatsGet hd p s
  | .queueLatGet hd p => Sys2Proof.Machine.execQueueLatGet hd p s
  | .allocSet hd p => Sys2Proof.Machine.execAllocSet hd p s
  | .allocShaperSet hd p => Sys2Proof.Machine.execAllocShaperSet hd p s
  | .allocGet hd p => Sys2Proof.Machine.execAllocGet hd p s
  | .chanPeakSet hd p => Sys2Proof.Machine.execChanPeakSet hd p s
  | .policerSet hd p => Sys2Proof.Machine.execPolicerSet hd p s
  | .policerStatsGet hd p => Sys2Proof.Machine.execPolicerStatsGet hd p s
  | .sampleRingSet hd p => Sys2Proof.Machine.execSampleRingSet hd p s
  | .ruleAdd hd p => Sys2Proof.Machine.execRuleAdd hd p s
  | .ruleMod hd p => Sys2Proof.Machine.execRuleMod hd p s
  | .ruleDel hd p => Sys2Proof.Machine.execRuleDel hd p s
  | .ruleGet hd p => Sys2Proof.Machine.execRuleGet hd p s
  | .ruleCommit hd p => Sys2Proof.Machine.execRuleCommit hd p s
  | .versionDrained k => Sys2Proof.Machine.execVersionDrained k s
  | .ruleAbort hd p => Sys2Proof.Machine.execRuleAbort hd p s
  | .clProfileSet hd p => Sys2Proof.Machine.execClProfileSet hd p s
  | .clSourceSet hd p => Sys2Proof.Machine.execClSourceSet hd p s
  | .counterGet hd p => Sys2Proof.Machine.execCounterGet hd p s
  | .clStatsGet hd p => Sys2Proof.Machine.execClStatsGet hd p s
  | .bondSet hd p => Sys2Proof.Machine.execBondSet hd p s
  | .bondTableSet hd p => Sys2Proof.Machine.execBondTableSet hd p s
  | .bondStatsGet hd p => Sys2Proof.Machine.execBondStatsGet hd p s
  | .lagSet hd p => Sys2Proof.Machine.execLagSet hd p s
  | .lagTableSet hd p => Sys2Proof.Machine.execLagTableSet hd p s
  | .keyChanSet hd p => Sys2Proof.Machine.execKeyChanSet hd p s
  | .keyStateGet hd p => Sys2Proof.Machine.execKeyStateGet hd p s
  | .timeDomainBind hd p => Sys2Proof.Machine.execTimeDomainBind hd p s
  | .timeDomainSet hd p => Sys2Proof.Machine.execTimeDomainSet hd p s
  | .timeSelectSet hd p => Sys2Proof.Machine.execTimeSelectSet hd p s
  | .timeResolve hd p => Sys2Proof.Machine.execTimeResolve hd p s
  | .timeSet hd p => Sys2Proof.Machine.execTimeSet hd p s
  | .timeGet hd p => Sys2Proof.Machine.execTimeGet hd p s
  | .timeStatsGet hd p => Sys2Proof.Machine.execTimeStatsGet hd p s
  | .ppsSet hd p => Sys2Proof.Machine.execPpsSet hd p s
  | .todSet hd p => Sys2Proof.Machine.execTodSet hd p s
  | .trigSet hd p => Sys2Proof.Machine.execTrigSet hd p s
  | .captSet hd p => Sys2Proof.Machine.execCaptSet hd p s
  | .ptpPortSet hd p => Sys2Proof.Machine.execPtpPortSet hd p s
  | .ptpSourceSet hd p => Sys2Proof.Machine.execPtpSourceSet hd p s
  | .tsRingSet hd p => Sys2Proof.Machine.execTsRingSet hd p s
  | .gateSet hd p => Sys2Proof.Machine.execGateSet hd p s
  | .gateGet hd p => Sys2Proof.Machine.execGateGet hd p s
  | .tribAllocSet hd p => Sys2Proof.Machine.execTribAllocSet hd p s
  | .tribStreamSet hd p => Sys2Proof.Machine.execTribStreamSet hd p s
  | .tribConnSet hd p => Sys2Proof.Machine.execTribConnSet hd p s
  | .tribConnGet hd p => Sys2Proof.Machine.execTribConnGet hd p s
  | .tribPageArm hd p => Sys2Proof.Machine.execTribPageArm hd p s
  | .tribPageDisarm hd p => Sys2Proof.Machine.execTribPageDisarm hd p s
  | .tribStatsGet hd p => Sys2Proof.Machine.execTribStatsGet hd p s
  | .odcPortSet hd p => Sys2Proof.Machine.execOdcPortSet hd p s
  | .odcStatsGet hd p => Sys2Proof.Machine.execOdcStatsGet hd p s
  | .hportModeSet hd p => Sys2Proof.Machine.execHportModeSet hd p s
  | .hportSet hd p => Sys2Proof.Machine.execHportSet hd p s
  | .hportSleepSet hd p => Sys2Proof.Machine.execHportSleepSet hd p s
  | .hportSleep hd p => Sys2Proof.Machine.execHportSleep hd p s
  | .hportWake hd p => Sys2Proof.Machine.execHportWake hd p s
  | .hportStatusGet hd p => Sys2Proof.Machine.execHportStatusGet hd p s
  | .hportStatsGet hd p => Sys2Proof.Machine.execHportStatsGet hd p s
  | .laneStatusGet hd p => Sys2Proof.Machine.execLaneStatusGet hd p s
  | .laneTxSet hd p => Sys2Proof.Machine.execLaneTxSet hd p s
  | .laneRxSet hd p => Sys2Proof.Machine.execLaneRxSet hd p s
  | .laneTestSet hd p => Sys2Proof.Machine.execLaneTestSet hd p s
  | .laneInject hd p => Sys2Proof.Machine.execLaneInject hd p s
  | .laneEyeGet hd p => Sys2Proof.Machine.execLaneEyeGet hd p s
  | .laneStatsGet hd p => Sys2Proof.Machine.execLaneStatsGet hd p s
  | .pwrBudgetSet hd p => Sys2Proof.Machine.execPwrBudgetSet hd p s
  | .pwrRelease hd p => Sys2Proof.Machine.execPwrRelease hd p s
  | .pwrEnergyGet hd p => Sys2Proof.Machine.execPwrEnergyGet hd p s
  | .pwrStateGet hd p => Sys2Proof.Machine.execPwrStateGet hd p s
  | .domainReset hd p => Sys2Proof.Machine.execDomainReset hd p s
  | .arbPrioSet hd p => Sys2Proof.Machine.execArbPrioSet hd p s
  | .arbCommit hd p => Sys2Proof.Machine.execArbCommit hd p s
  | .arbGet hd p => Sys2Proof.Machine.execArbGet hd p s
  | .memBankSet hd p => Sys2Proof.Machine.execMemBankSet hd p s
  | .memStatsGet hd p => Sys2Proof.Machine.execMemStatsGet hd p s
  | .sensorGet hd p => Sys2Proof.Machine.execSensorGet hd p s
  | .alarmThreshSet hd p => Sys2Proof.Machine.execAlarmThreshSet hd p s
  | .alarmAck hd p => Sys2Proof.Machine.execAlarmAck hd p s
  | .logRead hd p => Sys2Proof.Machine.execLogRead hd p s
  | .flogRead hd p => Sys2Proof.Machine.execFlogRead hd p s
  | .wdogSet hd p => Sys2Proof.Machine.execWdogSet hd p s
  | .fwStage hd p => Sys2Proof.Machine.execFwStage hd p s
  | .fwVerify hd p => Sys2Proof.Machine.execFwVerify hd p s
  | .fwActivate hd p => Sys2Proof.Machine.execFwActivate hd p s
  | .fwStatusGet hd p => Sys2Proof.Machine.execFwStatusGet hd p s
  | .fuseSvnAdvance hd p => Sys2Proof.Machine.execFuseSvnAdvance hd p s
  | .fusePinmapBurn hd p => Sys2Proof.Machine.execFusePinmapBurn hd p s
  | .attestQuote hd p => Sys2Proof.Machine.execAttestQuote hd p s
  | .attestCertGet hd p => Sys2Proof.Machine.execAttestCertGet hd p s
  | .xaonRunning => Sys2Proof.Machine.execXaonRunning s
  | .pcieLinkUp k => Sys2Proof.Machine.execPcieLinkUp k s
  | .stackLinkRetrained st => Sys2Proof.Machine.execStackLinkRetrained st s
  | .devResetSourceAssert => Sys2Proof.Machine.execDevResetSourceAssert s
  | .wakePatternEnd p => Sys2Proof.Machine.execWakePatternEnd p s
  | .gateEntryStart m => Sys2Proof.Machine.execGateEntryStart m s
  | .engineClusterFault k => Sys2Proof.Machine.execEngineClusterFault k s
  | .backgroundScrub e => Sys2Proof.Machine.execBackgroundScrub e s

end Sys2Proof.Machine
end

