-- ==== Sys2Proof/Machine/Registers.lean ====
section
/-! DEFINITION. Reads of registers: what the Read column of Table 0.2 gives (R13), zero for reserved bits and offsets (R10), the latch of
wide fields (R15, R512), 0xFFFF_FFFF from a domain that is down (R17), BAR0 (Table 17.1), the key-wrap window (Table 8.4) and the
sideband (Table 16.5). The table of commands has no row for a read: nothing in the block runs these definitions but the read of KWE_LOCK
that a claim makes (R304; log 112). -/

namespace Sys2Proof.Machine

/-- A 32-bit word of little-endian bytes of a window from a place on. -/
def windowWord (t : Tab Byte) (i : Nat) : Nat := leVal ((List.range 4).map fun j => Tab.get 0 t (i + j))

namespace State

/-- The value of a register of BAR0 of endpoint k (Table 17.1), the key-wrap window and the 64-bit registers apart: RO and RW fields as
they stand, WO fields and reserved bits zero. -/
def bar0Value (s : State) (k off : Nat) : Nat :=
  let e := s.ep k
  match off with
  | 0x00 => 0x6480 * 65536 + Config.siRev * 256 + k
  | 0x04 => (s.mbxStatus k).toNat
  | 0x08 => (s.ringCtrl k).toNat
  | 0x0C => e.vec.toNat
  | 0x14 => e.cmdCi.toNat
  | 0x18 => e.cmpCi.toNat
  | 0x1C => e.evtCi.toNat
  | 0x20 => e.smp.ci.toNat
  | 0x24 => e.ts.ci.toNat
  | 0x28 => e.cmpHold * 65536 + e.cmpCount
  | 0x2C => e.evtHold * 65536 + e.evtCount
  | 0x48 => e.cmdSize
  | 0x58 => e.cmpSize
  | 0x68 => e.evtSize
  | 0x200 => (e.mboxApplying.isSome || e.mboxWait.isSome).toNat * 1073741824 + e.mboxOp * 65536 + e.mboxLen
  | 0x204 => e.mboxResult
  | _ =>
    if 0x100 ≤ off ∧ off < 0x200 then windowWord e.mbox (off - 0x100)
    else if 0x2000 ≤ off ∧ off < 0x2100 then (Tab.get 0 e.msix ((off - 0x2000) / 4)).toNat
    else 0

/-- The 64-bit register whose lowest-addressed word stands at an offset (Table 17.1). -/
def bar0Wide (s : State) (k off : Nat) : Option Nat :=
  let e := s.ep k
  match off with
  | 0x40 => some e.cmdBase
  | 0x50 => some e.cmpBase
  | 0x60 => some e.evtBase
  | 0x70 => some e.idxBase
  | _ => none

/-- A read in the key-wrap window by the user of endpoint k (R303): every register but KWE_LOCK reads 0 to another user than the owner;
the first read of KWE_LOCK by the owner clears LOST, and a read of KWE_DOUT takes four bytes of the output. -/
def readKwe (s : State) (k off : Nat) : Nat × State :=
  let x := s.gorse.kwe
  if !s.alive 1 then (0xFFFFFFFF, s)
  else if off = 0 then (s.kweLock.toNat, s.kweLockRead k)
  else if x.owner ≠ k then (0, s)
  else match off with
    | 0x04 => (x.handle.toNat * 256 + x.op.toNat, s)
    | 0x08 => (x.len, s)
    | 0x10 => (leVal (Machine.slice x.dout 0 4), s.updKwe fun y => { y with dout := y.dout.drop 4, outLen := y.outLen - 4 })
    | 0x14 => (s.kweStatus.toNat, s)
    | _ => (0, s)

/-- A read of 32 bits in BAR0 of endpoint k (R13, R15, R17). The lowest-addressed word of a 64-bit register latches the whole of it; its
other word then comes from the latch; the lowest-addressed word of any other field releases the latch. -/
def readBar0 (s : State) (k off : Nat) : Nat × State :=
  if !s.epUp k then (0xFFFFFFFF, s)
  else if off % 4 ≠ 0 then (0, s)
  else match s.bar0Wide k off with
    | some v => (v % 4294967296, s.updEp k fun e => { e with latch := some (off, v) })
    | none =>
      if 4 ≤ off ∧ (s.bar0Wide k (off - 4)).isSome then
        match (s.ep k).latch with
        | some (o, v) => if o = off - 4 then (v / 4294967296, s) else (((s.bar0Wide k (off - 4)).getD 0) / 4294967296, s)
        | none => (((s.bar0Wide k (off - 4)).getD 0) / 4294967296, s)
      else
        let s := s.updEp k fun e => { e with latch := none }
        if 0x300 ≤ off ∧ off < 0x318 then s.readKwe k (off - 0x300) else (s.bar0Value k off, s)

/-- The sensor reading that SB_SENS_SEL selects (Table 16.5), as a 32-bit signed value; 0 where it names none. -/
def sensorData (s : State) : Nat :=
  let n := s.mgmt.sbSel
  if n < 48 then leVal (sBytes 4 (Tab.get 0 s.mgmt.temps n))
  else if 64 ≤ n ∧ n < 80 then (if n % 2 = 0 then Tab.get 0 s.pwr.railV ((n - 64) / 2) else Tab.get 0 s.pwr.railI ((n - 64) / 2)) % 4294967296
  else 0

/-- A read of 32 bits on the sideband (Table 16.5): zero for a WO register and a reserved offset. -/
def readSideband (s : State) (off : Nat) : Nat :=
  match off with
  | 0x00 => 0x6480 * 65536 + Config.siRev * 256 + Config.variant48.toNat
  | 0x04 => s.sbStatus.toNat
  | 0x08 => s.rstCause
  | 0x0C => Config.vcoreN.toNat
  | 0x10 => s.mgmt.sbSel
  | 0x14 => s.sensorData
  | 0x18 => s.budgetW % 65536 * 65536 + s.pwr.measured % 65536
  | 0x24 => s.mgmt.sbResult % 256 * 65536 + s.mgmt.sbOp * 256 + s.mgmt.sbLen
  | _ => if off % 4 = 0 ∧ 0x40 ≤ off ∧ off < 0x80 then windowWord s.mgmt.sbWin (off - 0x40) else 0

/-- A read of a register of 32 bits. -/
def readRegister (s : State) (sp : RegSpace) (off : Nat) : Nat × State := match sp with
  | .bar0 k => s.readBar0 k off
  | .sideband => (s.readSideband off, s)

end State

end Sys2Proof.Machine
end

