-- ==== Sys2Proof/Safety.lean ====
section
/-! DEFINITION. What counts as a safe step, and the states the claims speak about: a command interface with nothing waiting, and a
ring that takes a command at once. -/

namespace Sys2Proof

/-- A step neither faults nor is refused. -/
def Completes (s : Machine.State) : Prop := ∃ t, Machine.step s = .next t

namespace Machine

/-- The reserved bytes of a payload, given by offset and number, are zero (R11). -/
abbrev ZeroAt (p : List Byte) (rsv : List (Nat × Nat)) : Prop := ∀ r ∈ rsv, ∀ j < r.2, p.getD (r.1 + j) 0 = 0

/-- The opcodes that the tables of chapter 18 list. -/
def catalogue : List Nat :=
  let span := fun a n => (List.range n).map (a + ·)
  span 0x0001 6 ++ span 0x0101 4 ++ span 0x0201 12 ++ span 0x0301 10 ++ span 0x0310 4 ++ span 0x0320 2 ++ [0x0330] ++ span 0x0401 10
    ++ span 0x0501 5 ++ span 0x0601 2 ++ span 0x0701 16 ++ span 0x0801 9 ++ span 0x0901 7 ++ span 0x0A01 7 ++ span 0x0B01 5
    ++ span 0x0C01 5 ++ span 0x0D01 6 ++ span 0x0E01 8

/-- Counts and lengths of a downstream TCM fit its count bytes (Table 3.6). -/
def DownTcm.fits : DownTcm → Bool
  | .allocMap _ es => decide (es.length ≤ 255)
  | .flowMap _ es => decide (es.length ≤ 255)
  | .grantRevoke _ ids => decide (ids.length ≤ 255)
  | _ => true

end Machine

namespace Machine.State

/-- Endpoint k has no command waiting, kept from before a restart, or applying, on its ring or its direct mailbox. -/
def EpIdle (s : State) (k : Nat) : Prop :=
  (s.ep k).waiting = [] ∧ (s.ep k).fetched = 0 ∧ (s.ep k).kept = [] ∧ (s.ep k).applying = none
    ∧ (s.ep k).mboxApplying = none ∧ (s.ep k).mboxWait = none

/-- No endpoint has a command waiting or applying. -/
def Still (s : State) : Prop := ∀ k ∈ allParts, s.EpIdle k

/-- Command c can be processed the moment it is posted: nothing else waits (R528), its endpoint's registers answer and its rings run
(R511, R516), the management firmware is READY (R486), no DEV.RESET is under way (R548), its command ring is empty and has room for it
(R519, R520), its epoch is the endpoint's (R524), its SEQ is the expected one or none is expected (R523), its header fields are in range
(Table 17.8) and the completion ring has room for a reply of n bytes (R521). -/
structure Takes (s : State) (c : RawCmd) (n : Nat) : Prop where
  still : s.Still
  up : s.epUp c.hdr.ep = true
  run : (s.ep c.hdr.ep).run = true
  ready : s.fw.ready = true
  noReset : s.rst.devReset = none
  empty : (s.ep c.hdr.ep).cmdCi = (s.ep c.hdr.ep).cmdPi
  fits : unitsOf c ≤ 2 ^ (s.ep c.hdr.ep).cmdSize
  epoch : c.hdr.epoch = (s.ep c.hdr.ep).epoch
  seq : (s.ep c.hdr.ep).expSeq = none ∨ (s.ep c.hdr.ep).expSeq = some c.hdr.seq
  header : headerBad c = false
  room : recUnits (max n (min 65536 ((replyLen c.opcode.toNat c.payload).getD 0))) ≤ s.cmpRoom c.hdr.ep

/-- The state once command c has been posted and fetched (R519) and its SEQ recorded (R523). -/
def taken (s : State) (c : RawCmd) : State :=
  let n := BitVec.ofNat 32 (unitsOf c)
  ((s.updEp c.hdr.ep fun e => { e with cmdPi := e.cmdPi + n, cmdCi := e.cmdPi + n }).writeIndex c.hdr.ep).updEp c.hdr.ep
    fun e => { e with expSeq := some (c.hdr.seq + 1) }

/-- The state once command c, whose effect has led to t, has completed with OK and a reply (R518). -/
def okOf (t : State) (c : RawCmd) (reply : List Byte := []) : State := t.finish c.hdr.ep c stOk 0 reply

/-- The state once command c, whose operation has begun in t and goes on, has completed with PENDING_ASYNC (R530). -/
def pendOf (t : State) (c : RawCmd) : State := t.finish c.hdr.ep c stPending 0 []

/-- The state once command c has completed with a STATUS and DETAIL and no reply. -/
def failOf (t : State) (c : RawCmd) (status : Nat) (detail : Nat := 0) : State := t.finish c.hdr.ep c status detail []

/-- User u reaches the key-wrap engine, holds its lock, and no operation runs (R17, R303, R307). -/
abbrev OwnsKwe (s : State) (u : Fin 10) : Prop := s.kweReach u = true ∧ s.gorse.kwe.owner = u ∧ s.gorse.kwe.busy = false

/-- Channel c takes a downstream TCM in frame n: it receives the frame's payload (R78), the control segment is addressed to it
(Table 2.14), the message passes checks 3 to 6 of R103, and it is no repeat of a recorded one (R109). -/
structure Hears (s : State) (c : Nat) (h : TcmHdr) (m : DownTcm) (n : BitVec 48) : Prop where
  receiving : s.receiving c = some n
  accepted : s.ctrlAccepted c h.flowTag = true
  length : m.lenOk = true
  tid : h.tid = h.flowTag
  address : (if h.tid = 0xFFFE then m.toAll else m.toTid) = true
  named : namesChan c m = true
  permitted : m.permitted (s.chan c).tc.st = true
  fresh : h.tid = 0xFFFE ∨ ∀ d ∈ (s.chan c).tc.dups, d.type ≠ m.type ∨ d.seq ≠ h.seq

/-- The state once the message is counted, and recorded among the last four when it came to the terminal identifier (R109). -/
def heard (s : State) (c : Nat) (h : TcmHdr) (m : DownTcm) : State :=
  let s := s.bump c .tcRxOk
  if h.tid = 0xFFFE then s
  else s.updTc c fun t => { t with
    dups := (t.dups ++ [({ type := m.type, seq := h.seq, result := none, keyRpt := none } : DupRec)]).drop (t.dups.length - 3) }

/-- The state once the message is answered with an ACK, when it came to the terminal identifier (R110). -/
def answered (t : State) (c : Nat) (h : TcmHdr) (m : DownTcm) (n : BitVec 48) (result : Nat) : State :=
  if h.tid = 0xFFFE then t else t.ackTcm c m.type h.seq result n

end Machine.State

end Sys2Proof
end

