-- ==== Sys2Proof/Certificates/Slice0/Obligations.lean ====
section
/-! DEFINITION. The statements about the model. A host command's statement says what its completion with OK leaves, for a ring that
takes the command at once (`State.Takes`), every field of its payload in the range its row of chapter 18 gives; the state after is
written out whole, so everything it does not name is unchanged. The same holds of the block's own events. -/

open Sys2Proof Sys2Proof.Machine

/-- RESYNC takes the epoch of its header, sets the expected SEQ behind its own, writes the index block and replies with the summary
(R532); SUMMARY.GET replies with the summary and changes nothing. DEV.INFO replies with the identity of the device (Table 18.1); DEV.RESET
is accepted and its source asserts later (R548); DEV.CAUSE.CLEAR clears the SEEN bits it names (R466); RST.POLICY.SET stores the thermal
restart policy (R442). All but DEV.INFO are partition 0's (R540). Where the spec leaves a choice it is the model's, of log entry 19. -/
def Obligations.DeviceAndSummaryCommandsApply : Prop :=
  (∀ (hd : CmdHdr) (s : State), let c : RawCmd := ⟨0x0001, hd, []⟩
    let k := hd.ep.val
    let t := ((s.taken c).updEp k fun e => { e with epoch := hd.epoch, seqReset := false }).writeIndex k
    (s.updEp k fun e => { e with epoch := hd.epoch, expSeq := none }).Takes c (2384 + 16 * (s.alarmsOf k).length) →
    hd.epoch ≠ (s.ep k).epoch →
    exec (.resync hd []) s = .next (State.okOf t c (t.summary k)))
  ∧ (∀ (hd : CmdHdr) (s : State), let c : RawCmd := ⟨0x0002, hd, []⟩
    s.Takes c (2384 + 16 * (s.alarmsOf hd.ep).length) →
    exec (.summaryGet hd []) s = .next (State.okOf (s.taken c) c ((s.taken c).summary hd.ep)))
  ∧ (∀ (hd : CmdHdr) (s : State), let c : RawCmd := ⟨0x0003, hd, []⟩
    s.Takes c 40 →
    exec (.devInfo hd []) s = .next (State.okOf (s.taken c) c
      (beBytes 8 Config.serial.toNat ++ leBytes 2 Config.siRev
        ++ [bByte Config.variant48, Config.vcoreN, BitVec.ofNat 8 (s.rst.bootSrc + 4 * s.rst.clkMode), bByte s.identLost, 0, 0]
        ++ leBytes 4 s.rstCause ++ leBytes 8 ((s.fw.pkg.map (·.imgVer.toNat)).getD 0) ++ beBytes 6 Config.baseMac.toNat
        ++ leBytes 1 s.fw.svn ++ zeros 5)))
  ∧ (∀ (hd : CmdHdr) (p : List Byte) (s : State), let c : RawCmd := ⟨0x0004, hd, p⟩
    s.Takes c 0 → p.length = 1 → hd.ep = 0 → u8 p 0 ≤ 1 →
    exec (.devReset hd p) s = .next (State.okOf ((s.taken c).updRst fun r => { r with devReset := some (u8 p 0) }) c))
  ∧ (∀ (hd : CmdHdr) (p : List Byte) (s : State), let c : RawCmd := ⟨0x0005, hd, p⟩
    s.Takes c 0 → p.length = 2 → hd.ep = 0 → u16 p 0 ≤ 2047 →
    exec (.devCauseClear hd p) s = .next (State.okOf
      ((s.taken c).updRst fun r => { r with seen := r.seen &&& ~~~(BitVec.ofNat 11 (u16 p 0)) }) c))
  ∧ (∀ (hd : CmdHdr) (p : List Byte) (s : State), let c : RawCmd := ⟨0x0006, hd, p⟩
    s.Takes c 0 → p.length = 1 → hd.ep = 0 → u8 p 0 ≤ 1 →
    exec (.rstPolicySet hd p) s = .next (State.okOf ((s.taken c).updRst fun r => { r with thermRestart := u8 p 0 == 1 }) c))

/-- PART.ASSIGN moves a channel, a port group, a bond group with its members, a TRIG or a CAPT pin to a partition (R45, R46);
PART.QUOTA.SET stores the eight quotas when nothing above them is referenced and the totals fit the device (R507); PART.RESET resets a
partition (R441); PART.GET replies with what a partition owns and its quotas. Where the spec leaves a choice it is the model's, of log
entries 47, 48, 79. -/
def Obligations.PartitionCommandsApply : Prop :=
  (∀ (hd : CmdHdr) (p : List Byte) (s : State), let c : RawCmd := ⟨0x0101, hd, p⟩
    let kind := u8 p 0
    let i := u8 p 1
    let j := u8 p 2
    s.Takes c 0 → p.length = 4 → hd.ep = 0 → kind ≤ 4 → i < [64, 32, 32, 8, 4].getD kind 256 → j ≤ 7 → ZeroAt p [(3, 1)] →
    s.assignBarred kind i j = false →
    exec (.partAssign hd p) s = .next (State.okOf ((s.taken c).assign kind i j) c))
  ∧ (∀ (hd : CmdHdr) (p : List Byte) (s : State), let c : RawCmd := ⟨0x0102, hd, p⟩
    let j := u8 p 0
    let q := (List.range 7).map (fun i => u32 p (4 + 4 * i)) ++ [u8 p 32]
    s.Takes c 0 → p.length = 36 → hd.ep = 0 → j ≤ 7 → ZeroAt p [(1, 3), (33, 3)] → s.quotaHeld j q = false → s.quotaOver j q = false →
    exec (.partQuotaSet hd p) s = .next (State.okOf ((s.taken c).updPart j fun x => { x with quotas := q }) c))
  ∧ (∀ (hd : CmdHdr) (p : List Byte) (s : State), let c : RawCmd := ⟨0x0103, hd, p⟩
    s.Takes c 0 → p.length = 1 → u8 p 0 ≤ 7 → (hd.ep = 0 ∨ u8 p 0 = hd.ep) →
    exec (.partReset hd p) s = .next (State.okOf ((s.taken c).resetPart (u8 p 0)) c))
  ∧ (∀ (hd : CmdHdr) (p : List Byte) (s : State), let c : RawCmd := ⟨0x0104, hd, p⟩
    let j := u8 p 0
    s.Takes c 60 → p.length = 1 → j ≤ 7 → (hd.ep = 0 ∨ j = hd.ep) →
    exec (.partGet hd p) s = .next (State.okOf (s.taken c) c (s.ownBytes j ++ s.quotaBytes j ++ zeros 3)))

/-- CHAN.OPEN of a closed channel whose domains are free and whose reservation fits stores its configuration and wakes its downstream
domain and its engine cluster (R90, R419); it completes at once when that domain is powered and goes on applying when it is not (R550).
CHAN.CLOSE of an open channel with no burst on the line closes it (R90); of a closed one it does nothing. CHAN.STATS.GET replies with the
94 counters of a channel and clears them when asked (R89, R550); CHAN.GUARD.CLEAR clears a guard latch that an UNSILENCE has armed (R132);
CHAN.WAKE asks for an early wake of a dozing channel (R123); CHAN.RESET resets a channel, holds it in reset, or frees one held (R439).
Where the spec leaves a choice it is the model's, of log entry 92. -/
def Obligations.ChannelsOpenCloseAndOperate : Prop :=
  (∀ (hd : CmdHdr) (p : List Byte) (s : State), let c : RawCmd := ⟨0x0201, hd, p⟩
    let i := u8 p 0
    let cfg := timerFrom p 12 (feFrom p (s.chan i).cfg)
    s.Takes c 0 → p.length = 36 → i < 64 → (s.chan i).owner = hd.ep → u16 p 2 ≤ 25000 → u16 p 4 ≤ 25000 → u16 p 8 ≤ 1000 →
    u8 p 13 ≤ 3 → 1 ≤ u16 p 14 → u16 p 14 ≤ 1024 → 1000 ≤ u32 p 16 → u32 p 16 ≤ 60000 → 1 ≤ u32 p 20 → u32 p 20 ≤ 1000 →
    100 ≤ u32 p 24 → u32 p 24 ≤ 10000 → 10 ≤ u32 p 28 → u32 p 28 ≤ 10000 → ZeroAt p [(1, 1), (10, 3)] →
    (s.chan i).tc.opened = false → s.inTest i = false → s.chanHeld i = false → s.reservationFits i = true →
    exec (.chanOpen hd p) s = .next (
      let t := (s.taken c).openChan i cfg (u16 p 8)
      if t.powered (dsDom i) then State.okOf t c else t.updEp hd.ep fun e => { e with applying := some c }))
  ∧ (∀ (hd : CmdHdr) (p : List Byte) (s : State), let c : RawCmd := ⟨0x0202, hd, p⟩
    let i := u8 p 0
    s.Takes c 0 → p.length = 1 → i < 64 → (s.chan i).owner = hd.ep → (s.chan i).tc.opened = false →
    exec (.chanClose hd p) s = .next (State.okOf (s.taken c) c))
  ∧ (∀ (hd : CmdHdr) (p : List Byte) (s : State), let c : RawCmd := ⟨0x0202, hd, p⟩
    let i := u8 p 0
    s.Takes c 0 → p.length = 1 → i < 64 → (s.chan i).owner = hd.ep → (s.chan i).tc.opened = true → s.burstsOver i = true →
    exec (.chanClose hd p) s = .next (State.okOf ((s.taken c).closeChan i) c))
  ∧ (∀ (hd : CmdHdr) (p : List Byte) (s : State), let c : RawCmd := ⟨0x0205, hd, p⟩
    let i := u8 p 0
    s.Takes c 752 → s.openHeld i = false → p.length = 2 → i < 64 → (s.chan i).owner = hd.ep → u8 p 1 ≤ 1 →
    exec (.chanStatsGet hd p) s = .next (State.okOf
      (if u8 p 1 = 1 then (s.taken c).updChan i fun x => { x with ctr := [] } else s.taken c) c
      ((List.range 94).flatMap fun j => leBytes 8 ((s.chan i).ctr.get j))))
  ∧ (∀ (hd : CmdHdr) (p : List Byte) (s : State), let c : RawCmd := ⟨0x0206, hd, p⟩
    let i := u8 p 0
    s.Takes c 0 → p.length = 1 → i < 64 → (s.chan i).owner = hd.ep → (s.chan i).heath.guardLatch = true →
    (s.chan i).heath.guardArmed = true →
    exec (.chanGuardClear hd p) s = .next (State.okOf
      ((((s.taken c).updHeath i fun h => { h with guardLatch := false, guardArmed := false }).clearAlarm 0x1053 1 i).leaveSilenced i) c))
  ∧ (∀ (hd : CmdHdr) (p : List Byte) (s : State), let c : RawCmd := ⟨0x0207, hd, p⟩
    let i := u8 p 0
    s.Takes c 0 → s.openHeld i = false → p.length = 1 → i < 64 → (s.chan i).owner = hd.ep → (s.chan i).tc.opened = true →
    (s.chan i).tc.st = .doze →
    exec (.chanWake hd p) s = .next (State.okOf ((s.taken c).earlyWake i 2) c))
  ∧ (∀ (hd : CmdHdr) (p : List Byte) (s : State), let c : RawCmd := ⟨0x020A, hd, p⟩
    let i := u8 p 0
    s.Takes c 0 → p.length = 2 → i < 64 → (s.chan i).owner = hd.ep → u8 p 1 ≤ 1 →
    exec (.chanReset hd p) s = .next (State.okOf ((s.taken c).chanResetCmd i (u8 p 1 == 1)) c))
  ∧ (∀ (hd : CmdHdr) (p : List Byte) (s : State), let c : RawCmd := ⟨0x020A, hd, p⟩
    let i := u8 p 0
    s.Takes c 0 → p.length = 2 → i < 64 → (s.chan i).owner = hd.ep → u8 p 1 = 2 → i ∈ s.rst.heldChan →
    exec (.chanReset hd p) s = .next (State.okOf
      (((s.taken c).updRst fun r => { r with heldChan := r.heldChan.filter fun x => x != i }).freeDoms [dsDom i, usDom i]) c))

/-- CHAN.FE.SET, CHAN.TIMER.SET, CHAN.PLAN.SET, CHAN.DOZE.SET, FLOW.CTX.SET and FE.MGMT.SET store what their payload names (Table 18.3):
the front-end delays from the first upstream frame at least 250 µs away (R120), the rest at once. -/
def Obligations.ChannelSettersStoreTheirPayload : Prop :=
  (∀ (hd : CmdHdr) (p : List Byte) (s : State), let c : RawCmd := ⟨0x0203, hd, p⟩
    let i := u8 p 0
    s.Takes c 0 → s.openHeld i = false → p.length = 12 → i < 64 → (s.chan i).owner = hd.ep → u16 p 2 ≤ 25000 → u16 p 4 ≤ 25000 →
    u16 p 8 ≤ 1000 → ZeroAt p [(1, 1), (10, 2)] → (s.chan i).tc.opened = true →
    exec (.chanFeSet hd p) s = .next (State.okOf
      ((s.taken c).updChan i fun x => { x with
        cfg := { x.cfg with feDs := u16 p 2, feUs := u16 p 4, bgLead := u8 p 6, bgLag := u8 p 7 }
        rx := { x.rx with felosDebUs := u16 p 8 }
        tc := { x.tc with feOld := x.tc.feOld ++ [(x.cfg.feDs, x.cfg.feUs, s.now + 250000000)] } }) c))
  ∧ (∀ (hd : CmdHdr) (p : List Byte) (s : State), let c : RawCmd := ⟨0x0204, hd, p⟩
    let i := u8 p 0
    s.Takes c 0 → s.openHeld i = false → p.length = 24 → i < 64 → (s.chan i).owner = hd.ep → u8 p 1 ≤ 3 → 1 ≤ u16 p 2 → u16 p 2 ≤ 1024 →
    1000 ≤ u32 p 4 → u32 p 4 ≤ 60000 → 1 ≤ u32 p 8 → u32 p 8 ≤ 1000 → 100 ≤ u32 p 12 → u32 p 12 ≤ 10000 → 10 ≤ u32 p 16 →
    u32 p 16 ≤ 10000 → (s.chan i).tc.opened = true →
    exec (.chanTimerSet hd p) s = .next (State.okOf
      ((s.taken c).updChan i fun x => { x with cfg := { x.cfg with
        announce := bitAt p 1 0, bcast := bitAt p 1 1, holWindow := u16 p 2, lockTo := u32 p 4, annTo := u32 p 8
        rangeTo := u32 p 12, holdTo := u32 p 16, sdThresh := u32 p 20 } }) c))
  ∧ (∀ (hd : CmdHdr) (p : List Byte) (s : State), let c : RawCmd := ⟨0x0208, hd, p⟩
    let i := u8 p 0
    s.Takes c 0 → s.openHeld i = false → p.length = 2 → i < 64 → (s.chan i).owner = hd.ep → u8 p 1 ≤ 1 →
    exec (.chanPlanSet hd p) s = .next (State.okOf
      ((s.taken c).updChan i fun x => { x with cfg := { x.cfg with runAhead := bitAt p 1 0 } }) c))
  ∧ (∀ (hd : CmdHdr) (p : List Byte) (s : State), let c : RawCmd := ⟨0x0209, hd, p⟩
    let i := u8 p 0
    s.Takes c 0 → s.openHeld i = false → p.length = 10 → i < 64 → (s.chan i).owner = hd.ep → u8 p 1 ≤ 3 → 2 ≤ u16 p 2 → u16 p 2 ≤ 256 →
    1 ≤ u32 p 4 → u32 p 4 ≤ 10000 → 60 ≤ u16 p 8 → u16 p 8 ≤ 1000 →
    exec (.chanDozeSet hd p) s = .next (State.okOf
      ((s.taken c).updChan i fun x => { x with cfg := { x.cfg with
        dozeEn := bitAt p 1 0, dozeAuto := bitAt p 1 1, kReq := u16 p 2, idleMs := u32 p 4, dozeLeadUs := u16 p 8 } }) c))
  ∧ (∀ (hd : CmdHdr) (p : List Byte) (s : State), let c : RawCmd := ⟨0x020B, hd, p⟩
    let i := u8 p 0
    let en := (List.range 256).filter fun f => bitAt p (4 + f / 8) (f % 8)
    s.Takes c 0 → p.length = 36 → i < 64 → (s.chan i).owner = hd.ep → ZeroAt p [(1, 3)] →
    (∀ f < 256, s.flowHeldAt i f = true → f ∈ en) →
    exec (.flowCtxSet hd p) s = .next (State.okOf ((s.taken c).updHeath i fun h => { h with flowEn := en }) c))
  ∧ (∀ (hd : CmdHdr) (p : List Byte) (s : State), let c : RawCmd := ⟨0x020C, hd, p⟩
    let i := u8 p 0
    s.Takes c 0 → p.length = 4 → i < 64 → (s.chan i).owner = hd.ep → u8 p 1 ≤ 1 → u8 p 2 ≤ 127 →
    exec (.feMgmtSet hd p) s = .next (State.okOf
      ((s.taken c).updChan i fun x => { x with cfg := { x.cfg with fePoll := bitAt p 1 0, feAddr := u8 p 2, feReg := u8 p 3 } }) c))

/-- A channel that hunts keeps up to eight candidates (R57), confirms one at its expected position, drops one that fails, and on the
second confirmation locks with the frame (R58, R59). A frame in LOCK is received (R51, R61): in every state but DOZE and with no doze
granted, its T_ds the model's time and its offset; the fourth bad header in a row discards the payload in progress and ends LOCK (R60).
Where the spec leaves a choice it is the model's, of log entries 2, 13, 26, 96. -/
def Obligations.HuntAndLockFollowFrames : Prop :=
  (∀ (c : Chan) (pos : Nat) (s : State),
    s.hunting c = true → (∀ k ∈ (s.chan c).rx.candidates, k.pos ≠ pos) →
    exec (.syncMatch c pos syncPattern) s = .next (
      if (s.chan c).rx.candidates.length < 8 then
        (s.updRx c fun r => { r with candidates := r.candidates ++ [{ pos, hits := 0, sfc := 0 }] }).bump c .dsHuntCandidates
      else s.bump c .dsHuntOverflow))
  ∧ (∀ (c : Chan) (pos : Nat) (f : DsFrame) (s : State) (k : Candidate),
    s.hunting c = true → ((s.chan c).rx.candidates.find? fun x => x.pos == pos) = some k → f.hdr.good = false →
    exec (.candidateCheck c pos f) s = .next (
      (s.updRx c fun r => { r with candidates := r.candidates.filter fun x => x.pos != pos }).bump c .dsHuntExpired))
  ∧ (∀ (c : Chan) (pos : Nat) (f : DsFrame) (s : State) (k : Candidate),
    s.hunting c = true → ((s.chan c).rx.candidates.find? fun x => x.pos == pos) = some k → f.hdr.good = true → k.hits = 0 →
    exec (.candidateCheck c pos f) s = .next (
      s.updRx c fun r => { r with candidates := r.candidates.map fun x =>
        if x.pos == pos then { x with hits := 1, sfc := f.hdr.sfc } else x }))
  ∧ (∀ (c : Chan) (pos : Nat) (f : DsFrame) (s : State) (k : Candidate),
    s.hunting c = true → ((s.chan c).rx.candidates.find? fun x => x.pos == pos) = some k → f.hdr.good = true → k.hits ≠ 0 →
    exec (.candidateCheck c pos f) s = .next (
      (s.updRx c fun r => r.enterLock k.sfc).lockFrame c f (s.now + f.off20 * 20)))
  ∧ (∀ (c : Chan) (f : DsFrame) (s : State),
    (s.chan c).tc.opened = true → (s.chan c).tc.st ≠ .doze → (s.chan c).tc.sleepAt = none → s.alive (dsDom c) = true →
    (s.chan c).rx.lock = true →
    exec (.downstreamFrame c f) s = .next (s.lockFrame c f (s.now + f.off20 * 20)))
  ∧ (∀ (c : Chan) (f : DsFrame) (s : State),
    (s.chan c).tc.opened = true → (s.chan c).tc.st ≠ .doze → (s.chan c).tc.sleepAt = none → s.alive (dsDom c) = true →
    (s.chan c).rx.lock = true → f.hdr.good = false → 3 ≤ (s.chan c).rx.badFrames →
    ∃ t, exec (.downstreamFrame c f) s = .next t ∧ (t.chan c).rx.lock = false ∧ (t.chan c).rx.candidates = []
      ∧ (t.chan c).rx.cur = none ∧ (t.chan c).rx.badFrames = 0)

/-- The map of the frame in progress, no codeword of it failed and its checksum good, is counted and handed off with its entries of good
parity that address the channel (R65 to R68, R589); that of the frame of a return from HOLDOVER is counted and not used (R125). A segment
whose header is good and that no failed codeword touches is parsed and the parser moves behind it: a fill segment is counted, a type above
2 is counted and dropped, any other goes to the acceptance tests (R74 to R77, R84, R86); a header with a bad checksum starts a search at
the next codeword boundary (R88). Where the spec leaves a choice it is the model's, of log entries 27, 96, 114. -/
def Obligations.MapsAndSegmentsAreTaken : Prop :=
  (∀ (c : Chan) (entries : List (BitVec 64)) (crc : BitVec 32) (s : State) (f : CurFrame),
    let es := (List.range f.map.len).map fun i => entries.getD i 0
    let good := es.filter parityOk
    let t := ((s.updRx c fun r => { r with cur := r.cur.map fun f => { f with phase := .done } }).bump c .dsMapRx).bump c
      .dsMapParityErr (es.length - good.length)
    let own := good.filterMap (t.addressed c f.sfc)
    (s.chan c).rx.cur = some f → f.phase = .awaited →
    (∀ e ∈ f.cwErrs, 8 < e.2 → e.1 < f.map.start ∨ f.map.start + f.map.words ≤ e.1) →
    crc = crc32 (es.flatMap fun e => beBytes 8 e.toNat) →
    exec (.mapHandOff c entries crc) s = .next (
      let u := t.bump c .dsMapOwnEntries own.length
      if f.usable then u.handOff c f.sfc f.tds f.map.epoch own else u.noMap c f.sfc))
  ∧ (∀ (c : Chan) (bs : List Byte) (s : State) (f : CurFrame),
    let h := segHdr bs
    let t := s.updRx c fun r => { r with cur := r.cur.map fun x => { x with pos := h.next f.pos } }
    (s.chan c).rx.cur = some f → f.payload = true → (s.chan c).tc.opened = true → s.alive (dsDom c) = true → f.pos < f.length →
    f.searching = false → h.good = true → f.pos + h.span ≤ f.edgeAfter f.pos → f.failedIn f.pos (min (f.pos + h.span) f.length) = none →
    exec (.segment c bs) s = .next
      (if h.type = 2 then t.bump c .dsSegFill else if 2 < h.type then t.bump c .dsSegTypeErr
       else t.acceptSeg c f.pos f.sfc h bs).settle)
  ∧ (∀ (c : Chan) (bs : List Byte) (s : State) (f : CurFrame),
    let next := searchSeg f (bs.length + 1) (boundaryAt (f.pos + 1)) (bs.drop (boundaryAt (f.pos + 1) - f.pos))
    (s.chan c).rx.cur = some f → f.payload = true → (s.chan c).tc.opened = true → s.alive (dsDom c) = true → f.pos < f.length →
    f.searching = false → (segHdr bs).good = false →
    exec (.segment c bs) s = .next
      (((s.bump c .dsSegHdrCrcErr).bump c .dsSegResync).updRx c fun r => { r with
        cur := r.cur.map fun x => { x with pos := next.1, searching := next.2 } }).settle)

/-- PROFILE adds a profile to its epoch, which it starts when the epoch is new, and leaves a profile that stands, counting a conflict
(R105); ASSIGN.ID in ANNOUNCED gives the terminal its identifier and default allocation and enters RANGING (R108); TIME.ANNOUNCE is taken
for the time unit (R316). ASSIGN.EQD sets the equalization delay from the frame it names; from the second frame on, with RESULT 1 and a
report, when that frame is nearer, and not at all, with RESULT 2, when it is more than 255 frames away (R119). ALLOC.MAP adds or removes
entries one by one, or clears all, from the map of the second frame on, and FLOW.MAP from the payload of the next frame on (R78, R106); a
message of which an entry fails a test has no effect and RESULT 2, and an add of a flow context that is not enabled RESULT 4. Each is
answered with an ACK ready two frames later (R110). Where the spec leaves a choice it is the model's, of log entries 32, 96. -/
def Obligations.ProfilesIdentityAndAssignmentsAreTaken : Prop :=
  (∀ (c : Chan) (h : TcmHdr) (b : ProfileBody) (s : State) (n : BitVec 48),
    s.Hears c h (.profile b) n → (∀ e ∈ (s.chan c).tc.epochs, e.num ≠ b.epoch) →
    ∃ t, exec (.profile c h b) s = .next t ∧ ∃ e ∈ (t.chan c).tc.epochs, e.num = b.epoch ∧
      e.profs = [(b.idx.toNat, ⟨b.guard.toNat, b.preLen.toNat, b.prePat.toNat, b.delim.toNat, b.fec⟩)])
  ∧ (∀ (c : Chan) (h : TcmHdr) (b : ProfileBody) (s : State) (n : BitVec 48) (e : Epoch),
    s.Hears c h (.profile b) n → ((s.chan c).tc.epochs.find? fun e => e.num == b.epoch) = some e → (∀ p ∈ e.profs, p.1 ≠ b.idx.toNat) →
    ∃ t, exec (.profile c h b) s = .next t ∧ ∃ e' ∈ (t.chan c).tc.epochs, e'.num = b.epoch ∧
      e'.profs = e.profs ++ [(b.idx.toNat, ⟨b.guard.toNat, b.preLen.toNat, b.prePat.toNat, b.delim.toNat, b.fec⟩)])
  ∧ (∀ (c : Chan) (h : TcmHdr) (b : ProfileBody) (s : State) (n : BitVec 48) (e : Epoch) (p : Profile),
    s.Hears c h (.profile b) n → ((s.chan c).tc.epochs.find? fun e => e.num == b.epoch) = some e →
    (e.profs.find? fun p => p.1 == b.idx.toNat) = some (b.idx.toNat, p) →
    exec (.profile c h b) s = .next (
      if p = { guard := b.guard.toNat, preLen := b.preLen.toNat, prePat := b.prePat.toNat, delim := b.delim.toNat, fec := b.fec } then
        s.heard c h (.profile b) else (s.heard c h (.profile b)).bump c .tcProfileConflict))
  ∧ (∀ (c : Chan) (h : TcmHdr) (b : AssignIdBody) (s : State) (n : BitVec 48),
    s.Hears c h (.assignId b) n → (s.chan c).tc.st = .announced → b.newTid ≠ 0 → b.newTid.toNat ≤ 0xFFFD → b.defAlloc ≠ 0x3FFF →
    exec (.assignId c h b) s = .next (
      ((s.heard c h (.assignId b)).updTc c fun t => { t with tid := b.newTid, defAlloc := some b.defAlloc, defFrom := n + 2 }).setState
        c .ranging .assigned))
  ∧ (∀ (c : Chan) (h : TcmHdr) (b : AnnounceBody) (s : State) (n : BitVec 48),
    s.Hears c h (.timeAnnounce b) n →
    exec (.timeAnnounce c h b) s = .next ((s.heard c h (.timeAnnounce b)).announceApply c b n))
  ∧ (∀ (c : Chan) (h : TcmHdr) (e : BitVec 24) (f : BitVec 48) (s : State) (n : BitVec 48),
    s.Hears c h (.assignEqd e f) n → 2 ≤ sfcDiff f n → sfcDiff f n ≤ 255 →
    exec (.assignEqd c h e f) s = .next (
      ((s.heard c h (.assignEqd e f)).updTc c fun t => { t with
        eqdNext := (t.eqdNext.filter fun x => x.1 != f) ++ [(f, e.toNat % 8388608)] }).answered c h (.assignEqd e f) n 0))
  ∧ (∀ (c : Chan) (h : TcmHdr) (e : BitVec 24) (f : BitVec 48) (s : State) (n : BitVec 48),
    s.Hears c h (.assignEqd e f) n → sfcDiff f n < 2 →
    exec (.assignEqd c h e f) s = .next (
      (((s.heard c h (.assignEqd e f)).updTc c fun t => { t with
        eqdNext := (t.eqdNext.filter fun x => x.1 != n + 2) ++ [(n + 2, e.toNat % 8388608)] }).chanCondition c 5
          ((n + 2).toNat % 4294967296) (some (n + 2))).answered c h (.assignEqd e f) n 1))
  ∧ (∀ (c : Chan) (h : TcmHdr) (e : BitVec 24) (f : BitVec 48) (s : State) (n : BitVec 48),
    s.Hears c h (.assignEqd e f) n → 255 < sfcDiff f n →
    exec (.assignEqd c h e f) s = .next ((s.heard c h (.assignEqd e f)).answered c h (.assignEqd e f) n 2))
  ∧ (∀ (c : Chan) (h : TcmHdr) (op : Byte) (es : List AllocMapEntry) (s : State) (n : BitVec 48) (t : Tab (Option (BitVec 14))),
    s.Hears c h (.allocMap op es) n → (op = 1 ∨ op = 2) → 1 ≤ es.length → es.length ≤ 12 →
    es.foldlM (State.allocEntry op.toNat (s.chan c).tc.defAlloc) (s.allocsTold c) = some t →
    exec (.allocMap c h op es) s = .next (
      ((s.heard c h (.allocMap op es)).updTc c fun x => { x with
        allocNext := (x.allocNext.filter fun e => e.1 != n + 2) ++ [(n + 2, t)] }).answered c h (.allocMap op es) n 0))
  ∧ (∀ (c : Chan) (h : TcmHdr) (s : State) (n : BitVec 48),
    s.Hears c h (.allocMap 3 []) n →
    exec (.allocMap c h 3 []) s = .next (
      ((s.heard c h (.allocMap 3 [])).updTc c fun x => { x with
        allocNext := (x.allocNext.filter fun e => e.1 != n + 2) ++ [(n + 2, [])] }).answered c h (.allocMap 3 []) n 0))
  ∧ (∀ (c : Chan) (h : TcmHdr) (op : Byte) (es : List AllocMapEntry) (s : State) (n : BitVec 48),
    s.Hears c h (.allocMap op es) n → (op = 1 ∨ op = 2) →
    es.foldlM (State.allocEntry op.toNat (s.chan c).tc.defAlloc) (s.allocsTold c) = none →
    exec (.allocMap c h op es) s = .next ((s.heard c h (.allocMap op es)).answered c h (.allocMap op es) n 2))
  ∧ (∀ (c : Chan) (h : TcmHdr) (op : Byte) (es : List FlowMapEntry) (s : State) (n : BitVec 48) (t : Tab (Option FlowHeld)),
    s.Hears c h (.flowMap op es) n → (op = 1 ∨ op = 2) → 1 ≤ es.length → es.length ≤ 9 →
    (op = 1 → ∀ e ∈ es, e.fslot.toNat ∈ (s.chan c).heath.flowEn) →
    es.foldlM (State.flowEntry op.toNat (s.chan c).tc.tid) (s.flowsTold c) = some t →
    exec (.flowMap c h op es) s = .next (
      ((s.heard c h (.flowMap op es)).updTc c fun x => { x with flowNext := some { frame := n + 1, flows := t } }).answered c h
        (.flowMap op es) n 0))
  ∧ (∀ (c : Chan) (h : TcmHdr) (s : State) (n : BitVec 48),
    s.Hears c h (.flowMap 3 []) n →
    exec (.flowMap c h 3 []) s = .next (
      ((s.heard c h (.flowMap 3 [])).updTc c fun x => { x with flowNext := some { frame := n + 1, flows := [] } }).answered c h
        (.flowMap 3 []) n 0))
  ∧ (∀ (c : Chan) (h : TcmHdr) (op : Byte) (es : List FlowMapEntry) (s : State) (n : BitVec 48),
    s.Hears c h (.flowMap op es) n → (op = 1 ∨ op = 2) →
    es.foldlM (State.flowEntry op.toNat (s.chan c).tc.tid) (s.flowsTold c) = none →
    exec (.flowMap c h op es) s = .next ((s.heard c h (.flowMap op es)).answered c h (.flowMap op es) n 2))
  ∧ (∀ (c : Chan) (h : TcmHdr) (es : List FlowMapEntry) (s : State) (n : BitVec 48) (t : Tab (Option FlowHeld)),
    s.Hears c h (.flowMap 1 es) n → 1 ≤ es.length → es.length ≤ 9 → (∃ e ∈ es, e.fslot.toNat ∉ (s.chan c).heath.flowEn) →
    es.foldlM (State.flowEntry 1 (s.chan c).tc.tid) (s.flowsTold c) = some t →
    exec (.flowMap c h 1 es) s = .next ((s.heard c h (.flowMap 1 es)).answered c h (.flowMap 1 es) n 4))

/-- SLEEP.GRANT in WATCH with doze enabled is kept for its frame (R121), WAKE.REQ ends a doze from the next frame (R123), GRANT.REVOKE
revokes grants of the next frame, those of every allocation when it names none, beside what an earlier one for that frame revokes (R107),
ACK ends the message it names (R112). DEACTIVATE returns an active channel to LISTEN, ends a silence when no guard latch stands, and tells
the host its REASON (R102, R126); SILENCE sets the head end's latch and silences the channel (R127); UNSILENCE clears that latch, lets the
guard latch be cleared, and ends SILENCED when neither latch is set (R127, R128, R132). Where the spec leaves a choice it is the model's,
of log entries 31, 33, 95. -/
def Obligations.ServiceAndDeactivationMessagesAreTaken : Prop :=
  (∀ (c : Chan) (h : TcmHdr) (k : BitVec 16) (f : BitVec 48) (s : State) (n : BitVec 48),
    s.Hears c h (.sleepGrant k f) n → (s.chan c).tc.st = .watch → (s.chan c).cfg.dozeEn = true → 2 ≤ k.toNat → k.toNat ≤ 256 →
    f.toNat % 8 = 0 →
    exec (.sleepGrant c h k f) s = .next (
      ((s.heard c h (.sleepGrant k f)).updTc c fun t => { t with sleepAt := some (f, k.toNat) }).answered c h (.sleepGrant k f) n 0))
  ∧ (∀ (c : Chan) (h : TcmHdr) (r : Byte) (s : State) (n : BitVec 48),
    s.Hears c h (.wakeReq r) n →
    exec (.wakeReq c h r) s = .next (
      (if (s.chan c).tc.st = .doze then (s.heard c h (.wakeReq r)).updTc c fun t => { t with wakeNext := true }
       else s.heard c h (.wakeReq r)).answered c h (.wakeReq r) n 0))
  ∧ (∀ (c : Chan) (h : TcmHdr) (f : BitVec 48) (ids : List (BitVec 16)) (s : State) (n : BitVec 48),
    s.Hears c h (.grantRevoke f ids) n →
    exec (.grantRevoke c h f ids) s = .next (
      let new := ids.map fun i => i.setWidth 14
      if f = n + 1 then
        (s.heard c h (.grantRevoke f ids)).updTc c fun t => { t with revoke := some (f, match t.revoke with
          | some (g, old) => if g = f then (if old.isEmpty || new.isEmpty then [] else old ++ new) else new
          | none => new) }
      else (s.heard c h (.grantRevoke f ids)).bump c .tcRevokeLate))
  ∧ (∀ (c : Chan) (h : TcmHdr) (ty sq res : Byte) (s : State) (n : BitVec 48),
    s.Hears c h (.ack ty sq res) n →
    ∃ t, exec (.ack c h ty sq res) s = .next t ∧ (t.chan c).tc.st = (s.chan c).tc.st
      ∧ (∀ e ∈ (t.chan c).tc.await, ¬ (0 < e.sent ∧ e.msg.type = ty.toNat ∧ e.seq = sq))
      ∧ (∀ e ∈ (s.chan c).tc.await, (e.msg.type ≠ ty.toNat ∨ e.seq ≠ sq) → e ∈ (t.chan c).tc.await))
  ∧ (∀ (c : Chan) (h : TcmHdr) (r : Byte) (s : State) (n : BitVec 48),
    s.Hears c h (.deactivate r) n →
    exec (.deactivate c h r) s = .next (
      let st := (s.chan c).tc.st
      let t := s.heard c h (.deactivate r)
      let told := t.postChanState c st.code st.code (.deactivated r.toNat)
      match st with
      | .silenced => (told.updHeath c fun x => { x with headLatch := false, guardArmed := true }).leaveSilenced c
      | .listen => told
      | .holdover => t
      | _ => t.toListen c (.deactivated r.toNat)))
  ∧ (∀ (c : Chan) (h : TcmHdr) (sn : BitVec 64) (ch : Byte) (s : State) (n : BitVec 48),
    s.Hears c h (.silence sn ch) n →
    exec (.silence c h sn ch) s = .next (
      let t := (s.heard c h (.silence sn ch)).updHeath c fun x => { x with headLatch := true }
      if (s.chan c).tc.st = .silenced then t else t.toSilenced c .silenced).settle)
  ∧ (∀ (c : Chan) (h : TcmHdr) (sn : BitVec 64) (ch : Byte) (s : State) (n : BitVec 48),
    s.Hears c h (.unsilence sn ch) n →
    exec (.unsilence c h sn ch) s = .next (
      ((s.heard c h (.unsilence sn ch)).updHeath c fun x => { x with headLatch := false, guardArmed := true }).leaveSilenced c))

/-- The timers of Table 3.2 (R93): LOCK_TIMEOUT raises its alarm, ANNOUNCE_TIMEOUT and RANGE_TIMEOUT return the channel to LOCKED,
HOLD_TIMEOUT to LISTEN. A message whose ACK has not come nine frames after its last sending is queued again, up to four sendings, and is
given up then (R112). BGATE outside every open window trips the guard of an open channel whose upstream domain runs: the latch is set, the
alarm raised, the channel silenced and BGATE driven low (R131). Before an awake multiframe the downstream domain of a dozing channel that
sleeps is woken (R431); an idle channel in WATCH under AUTO asks for doze with its configured period (R430). Where the spec leaves a
choice it is the model's, of log entries 4, 30, 33. -/
def Obligations.TerminalTimersGuardAndDozeAct : Prop :=
  (∀ (c : Chan) (s : State), s.inState c .listen = true →
    exec (.lockTimeout c) s = .next (s.raiseAlarm 0x2011 2 1 c (det1 (s.chan c).cfg.lockTo) [(s.chan c).owner]))
  ∧ (∀ (c : Chan) (s : State), s.inState c .announced = true →
    exec (.announceTimeout c) s = .next ((s.bump c .tcAnnounceExpired).setState c .locked .timer))
  ∧ (∀ (c : Chan) (s : State), s.inState c .ranging = true →
    exec (.rangeTimeout c) s = .next ((((s.bump c .tcRangeExpired).cancelBursts c).clearContext c).setState c .locked .timer))
  ∧ (∀ (c : Chan) (s : State), s.inState c .holdover = true →
    exec (.holdTimeout c) s = .next (
      ((s.bump c .tcHoldExpired).event 0x2013 2 1 c (det1 (s.chan c).cfg.holdTo) [(s.chan c).owner] true).toListen c .timer))
  ∧ (∀ (c : Chan) (s : State) (n : BitVec 48),
    let due := fun (e : UpEntry) => decide (9 ≤ sfcDiff n e.lastFrame)
    s.curSfc c = some n →
    exec (.tcmResend c) s = .next (((s.chan c).tc.await.filter due).foldl
      (fun t e => if e.sent < 4 then t.queueEntry c { e with ready := none } else t.giveUp c e)
      (s.updTc c fun t => { t with await := t.await.filter fun e => !due e })))
  ∧ (∀ (c : Chan) (x : Nat) (s : State),
    (s.chan c).tc.opened = true → s.alive (usDom c) = true → (s.chan c).heath.guardLatch = false →
    (∀ w ∈ (s.chan c).us.windows, x < w.from_ ∨ w.to_ < x) →
    exec (.guardTrip c x) s = .next (
      (((((s.bump c .tcGuardTrip).updHeath c fun h => { h with guardLatch := true, guardArmed := false }).raiseAlarm 0x1053 3 1 c
        (det1 c) [(s.chan c).owner]).toSilenced c .guard).driveBgate c false x).settle))
  ∧ (∀ (c : Chan) (s : State), s.operating c = true → s.asleep c = true →
    exec (.dozeWake c) s = .next (s.requestWake 0 (dsDom c)))
  ∧ (∀ (c : Chan) (s : State), s.inState c .watch = true → (s.chan c).cfg.dozeAuto = true →
    (∀ l < 128, (s.queue (128 * c + l)).frames = []) → (∀ x ∈ s.trib.streams, x.2.en = true → x.2.chan ≠ c) →
    exec (.dozeIdle c) s = .next (s.queueTcm c (.sleepReq (s.chan c).cfg.kReq 2) none))

/-- A prediction of engine 8c + 7 for a frame not begun, in WATCH with run-ahead on, is kept for each of its allocations, wakes the
upstream domain when the gap after the last burst is short enough, and reserves head frames when it says so (R160). An engine's plan of a
window starts for the oldest frame that waits for it, changes of service coming into force at window 0 (R156, R180): with no burst in the
window nothing more happens, a single burst gets the plan that the queues give it, and no burst of the window that waits for the engine is
left without a plan. A complete plan goes to the executor with the bursts of its window and the next window waits, the frame done after
window 7 (R156). Where the spec leaves a choice it is the model's, of log entries 36, 108. -/
def Obligations.PredictionsAndPlansAreMade : Prop :=
  (∀ (c : Chan) (p : Prediction) (s : State) (f : CurFrame),
    let t := s.laneInstant c (f.tds + (sfcDiff p.frame f.sfc).toNat * 125000000) + p.firstWord * 160
    let wake := p.wake && decide (t ≤ s.usBusyTo c + 7000000) && s.powered (usDom c)
    let u := s.updUs c fun u => { u with preds := u.preds ++ p.allocs.map fun a =>
      ({ frame := p.frame, alloc := a, wake, prefetch := p.prefetch, reserve := p.reserve, drain := p.drain } : Pred) }
    let u := if wake then u.requestWake 1 (usDom c) else u
    (s.chan c).rx.cur = some f → s.inState c .watch = true → (s.chan c).cfg.runAhead = true → s.enginesThere c = true →
    0 < sfcDiff p.frame f.sfc →
    exec (.runAheadPrediction c p) s = .next
      (if p.reserve then p.allocs.foldl (fun u a => match u.ctxOf c p.frame a with
        | some i => u.reserveHeads c i
        | none => u) u
      else u))
  ∧ (∀ (c : Chan) (w : Fin 8) (s : State) (n : BitVec 48) (rest : List (BitVec 48 × Nat)),
    let t := (if w.val = 0 then s.applyService c n else s).updUs c fun u => { u with running := some (n, w.val) }
    (s.chan c).us.plans = (n, w.val) :: rest → (s.chan c).us.running = none → s.enginesThere c = true →
    (∀ b ∈ (t.chan c).us.bursts, b.frame = n → windowOf b.start ≠ w) →
    exec (.planStart c w) s = .next t)
  ∧ (∀ (c : Chan) (w : Fin 8) (s : State) (n : BitVec 48) (rest : List (BitVec 48 × Nat)) (b : Burst),
    let t := (if w.val = 0 then s.applyService c n else s).updUs c fun u => { u with running := some (n, w.val) }
    let r := State.planBurst { c, frame := n, fallback := false, seen := none } b
      { t.planFrom 0 with commit := State.deadlineOf b }
    (s.chan c).us.plans = (n, w.val) :: rest → (s.chan c).us.running = none → s.enginesThere c = true →
    (t.chan c).us.bursts = [b] → b.frame = n → b.kind = .data → b.engines = true → b.phase = .scheduled → windowOf b.start = w →
    exec (.planStart c w) s = .next (r.2.s.updBurst c b.id fun b => { b with plan := some r.1 }))
  ∧ (∀ (c : Chan) (w : Fin 8) (s : State) (n : BitVec 48) (rest : List (BitVec 48 × Nat)),
    (s.chan c).us.plans = (n, w.val) :: rest → (s.chan c).us.running = none → s.enginesThere c = true →
    ∃ t, exec (.planStart c w) s = .next t ∧ (t.chan c).us.running = some (n, w.val) ∧ ∀ b ∈ (t.chan c).us.bursts,
      b.frame = n → b.kind = .data → b.engines = true → b.phase = .scheduled → windowOf b.start = w → b.plan ≠ none)
  ∧ (∀ (c : Chan) (w : Fin 8) (s : State) (n : BitVec 48),
    (s.chan c).us.running = some (n, w.val) →
    exec (.enginePlanComplete c w) s = .next (s.updUs c fun u => { u with
      running := none
      plans := if w.val = 7 then u.plans.filter fun p => p.1 != n else u.plans.map fun p => if p.1 = n then (n, w.val + 1) else p
      bursts := u.bursts.map fun b =>
        if b.frame == n && windowOf b.start == w.val && b.phase == .scheduled && b.plan.isSome then { b with planReady := true }
        else b }))

/-- At its plan deadline a burst that begins behind every earlier burst is committed when its plan is ready, with empty bodies when it
carries no data, and the fallback planner is asked otherwise, the plan counted late when the engines are there (R157, R163); the fallback
planner's plan is committed when it comes; one that would begin before an earlier burst has ended is not committed now: it gives up grants
at its front, or goes (R148, R158); the committed wake wakes the upstream domain (R166). A commit without permission, or once nothing is
granted any more, drops the burst (R142, R426). Otherwise it leaves the burst committed under its plan, with the key slot and the holds of
that instant, and with segments whose frames are all claimed in their queues; no other burst comes or goes (R157). Where the spec leaves a
choice it is the model's, of log entries 36, 97. -/
def Obligations.DeadlinesCommitPlans : Prop :=
  (∀ (c : Chan) (id : Nat) (s : State) (b : Burst) (p : Plan),
    ((s.chan c).us.bursts.find? fun b => b.id == id && b.phase == .scheduled) = some b → s.earlierEnd c b.id ≤ b.at_ b.start →
    b.kind = .data → b.plan = some p → b.engines = true → b.planReady = true → s.enginesThere c = true →
    exec (.planDeadline c id) s = .next (s.commit c b p false))
  ∧ (∀ (c : Chan) (id : Nat) (s : State) (b : Burst),
    ((s.chan c).us.bursts.find? fun b => b.id == id && b.phase == .scheduled) = some b → s.earlierEnd c b.id ≤ b.at_ b.start →
    b.kind ≠ .data →
    exec (.planDeadline c id) s = .next (s.commit c b { bodies := b.grants.map fun _ => [], drr := [] } false))
  ∧ (∀ (c : Chan) (id : Nat) (s : State) (b : Burst),
    ((s.chan c).us.bursts.find? fun b => b.id == id && b.phase == .scheduled) = some b → s.earlierEnd c b.id ≤ b.at_ b.start →
    b.kind = .data → (b.plan = none ∨ b.engines = false ∨ b.planReady = false ∨ s.enginesThere c = false) →
    exec (.planDeadline c id) s = .next
      ((if b.engines && s.enginesThere c then s.bump c .usPlanLate else s).updBurst c b.id fun b => { b with
        phase := .fallbackAsked, plan := none, planReady := false, seen := s.headIds c }))
  ∧ (∀ (c : Chan) (id : Nat) (s : State) (b : Burst),
    ((s.chan c).us.bursts.find? fun b => b.id == id && b.phase == .scheduled) = some b → b.at_ b.start < s.earlierEnd c b.id →
    ∃ t, exec (.planDeadline c id) s = .next t ∧ ∀ x ∈ (t.chan c).us.bursts, x.id = b.id →
      x.phase = .scheduled ∧ x.grants.map (·.start) <:+ b.grants.map (·.start))
  ∧ (∀ (c : Chan) (id : Nat) (s : State) (b : Burst),
    let r := State.planBurst { c, frame := b.frame, fallback := true, seen := some b.seen } b (s.planFrom s.now)
    ((s.chan c).us.bursts.find? fun b => b.id == id && b.phase == .fallbackAsked) = some b →
    exec (.fallbackPlanDelivery c id) s = .next (r.2.s.commit c b { r.1 with drr := [] } true))
  ∧ (∀ (c : Chan) (id : Nat) (s : State),
    (∃ b ∈ (s.chan c).us.bursts, b.id = id) →
    exec (.committedWakeRequest c id) s = .next ((s.updBurst c id fun b => { b with woken := true }).requestWake 0 (usDom c)))
  ∧ (∀ (c : Nat) (s : State) (b : Burst) (p : Plan) (fallback : Bool), let t := s.commit c b p fallback
    (((∃ g ∈ b.grants, s.permits c b.frame g = false) ∨ s.mayGrant = false) → t = s.dropBurst c b.id)
    ∧ ((∀ g ∈ b.grants, s.permits c b.frame g = true) → s.mayGrant = true →
      (t.chan c).us.bursts.map (·.id) = (s.chan c).us.bursts.map (·.id)
      ∧ ∀ x ∈ (t.chan c).us.bursts, x.id = b.id →
        x.phase = .committed ∧ x.plan = some p ∧ x.fallback = fallback ∧ x.keySlot = (s.chan c).keys.usSlot b.frame
        ∧ x.hol = b.grants.map (fun g => s.holOf c g.ctx b.frame)
        ∧ ∀ g ∈ x.segs.flatten, ∃ f ∈ (t.queue g.q).frames, f.id = g.fid ∧ f.claimed = true))

/-- At its assembly point a committed burst of a powered upstream domain is under way, BSEQ counts it, and BGATE rises with it when no
other burst is under way (R139, R140, R165); without its upstream domain it is not sent and its segments return to their queues. When the
last word of a burst has left, its words have gone out under the scrambler seed of its frame and header word (R147), the burst is gone,
its end is the latest of its channel, and a LOCKED channel that has sent its identity is ANNOUNCED (R113, R166, R168). Where the spec
leaves a choice it is the model's, of log entries 35, 39, 97, 98, 121. -/
def Obligations.BurstsAreSentAndEnd : Prop :=
  (∀ (c : Chan) (id : Nat) (faults : List (Nat × Bool)) (s : State) (b : Burst),
    ((s.chan c).us.bursts.find? fun b => b.id == id && b.phase == .committed) = some b → s.alive (usDom c) = true →
    ∃ t, exec (.assemblyPoint c id faults) s = .next t
      ∧ (t.chan c).tc.bseq = (s.chan c).tc.bseq + 1
      ∧ (s.burstsOver c = true → (t.chan c).heath.bgate = true)
      ∧ (∀ x ∈ (t.chan c).us.bursts, x.id = b.id →
        x.phase = .underWay ∧ x.frame = b.frame ∧ x.start = b.start ∧ x.grants = b.grants))
  ∧ (∀ (c : Chan) (id : Nat) (faults : List (Nat × Bool)) (s : State) (b : Burst),
    ((s.chan c).us.bursts.find? fun b => b.id == id && b.phase == .committed) = some b → s.alive (usDom c) = false →
    exec (.assemblyPoint c id faults) s = .next ((s.returnSegs b).dropBurst c id))
  ∧ (∀ (c : Chan) (id : Nat) (s : State) (b : Burst),
    ((s.chan c).us.bursts.find? fun b => b.id == id && b.phase == .underWay) = some b → s.Still →
    ∃ t, exec (.burstEnd c id) s = .next t
      ∧ (t.chan c).us.bursts = (s.chan c).us.bursts.filter (fun x => x.id != id)
      ∧ b.at_ b.stop ≤ (t.chan c).us.lastEnd
      ∧ (b.kind = .ident → (s.chan c).tc.opened = true → (s.chan c).tc.st = .locked → (t.chan c).tc.st = .announced)
      ∧ Out.burst c b.frame b.start (burstSeed b.frame b.hdrWord) (State.burstBytes b) ∈ t.out)

/-- A tick, while the time clock runs, moves the model's time by 6.4 ns, refills every shaper and policer (R185, R192), advances the time
counters of both domains by 6.4 ns and their corrections (R313), and moves OFS toward 0 by a slew step unless a change is held back
(R327); before the end of the COLD stretch the time clock stands and a tick changes nothing (R36). The refill of a bucket with COUNT,
FRAC, RATE and BURST: FRAC gains RATE, COUNT gains the whole bytes, and a bucket at its size has no fraction (R185). Where the spec leaves
a choice it is the model's, of log entries 2, 68, 106. -/
def Obligations.TicksRefillAndAdvance : Prop :=
  (∀ (s : State), s.clockRuns .time = false → exec .shaperTick s = .next s)
  ∧ (∀ (s : State), s.clockRuns .time = true → ∃ t, exec .shaperTick s = .next t
    ∧ t.now = s.now + 6400
    ∧ t.queues = Tab.mapVals {} (fun _ x => { x with shaper := x.shaper.tick }) s.queues
    ∧ t.allocs = Tab.mapVals {} (fun _ x => { x with shaper := x.shaper.tick }) s.allocs
    ∧ t.peaks = Tab.mapVals {} (fun _ x => x.tick) s.peaks
    ∧ t.policers = Tab.mapVals {} (fun _ x => x.tick) s.policers
    ∧ (∀ d < 2, (t.dom d).t = (s.dom d).t + psT 6400 + 500 * (s.dom d).corr)
    ∧ t.time.ofs = (if s.time.waiting || s.time.held then s.time.ofs
        else if 0 ≤ s.time.ofs then max 0 (s.time.ofs - State.slewStep s.time.slew)
        else min 0 (s.time.ofs + State.slewStep s.time.slew)))
  ∧ (∀ (h : Shaper), (h.en = true → 0 < h.rate →
      (h.tick.count = min (h.burst : Int) (h.count + ((h.frac + h.rate) / 156250000 : Nat))
        ∧ h.tick.frac = (if (h.burst : Int) ≤ h.count + ((h.frac + h.rate) / 156250000 : Nat) then 0
            else (h.frac + h.rate) % 156250000)))
    ∧ ((h.en = false ∨ h.rate = 0) → h.tick = h)
    ∧ h.tick.rate = h.rate ∧ h.tick.burst = h.burst ∧ h.tick.en = h.en)

/-- A shaper command at its apply instant: switched on it starts full, switched off it is empty, and one that stays on keeps its bucket up
to the new size, a debt cleared when CLEAR says so (R188). A packet of B bytes is metered against the peak bucket first and the committed
bucket second, a bucket charged only for a colour that it passes (R192). Where the spec leaves a choice it is the model's, of log entry
101. -/
def Obligations.ShapersApplyAndPolicersMeter : Prop :=
  (∀ (h : Shaper) (clear : Bool) (burst rate : Nat),
    h.configure false clear burst rate = { en := false, rate, burst, count := 0, frac := 0 }
    ∧ (h.en = false → h.configure true clear burst rate = { en := true, rate, burst, count := burst, frac := 0 })
    ∧ (h.en = true → (burst : Int) < h.count → h.configure true clear burst rate = { en := true, rate, burst, count := burst, frac := 0 })
    ∧ (h.en = true → h.count ≤ burst → 0 ≤ h.count →
        h.configure true clear burst rate = { en := true, rate, burst, count := h.count, frac := h.frac })
    ∧ (h.en = true → h.count < 0 →
        h.configure true clear burst rate
          = { en := true, rate, burst, count := if clear then 0 else h.count, frac := if clear then 0 else h.frac }))
  ∧ (∀ (p : PolicerSt) (b : Nat) (inc : Colour), let c := if p.aware then inc else .green
    ((c = .red ∨ p.tp < b) → p.meter b inc = (.red, p))
    ∧ (c ≠ .red → b ≤ p.tp → (c = .yellow ∨ p.tc < b) → p.meter b inc = (.yellow, { p with tp := p.tp - b }))
    ∧ (c = .green → b ≤ p.tp → b ≤ p.tc → p.meter b inc = (.green, { p with tp := p.tp - b, tc := p.tc - b })))

/-- QUEUE.SET, QUEUE.SHAPER.SET, QUEUE.DROP.SET, QUEUE.SAMPLE.SET and QUEUE.SPILL.SET store what their payload names (Table 18.4). A
QUEUE.SET of a channel that is planning leaves ALLOC, MEMBER, WEIGHT, FLOW and a cleared ENABLE to the next window 0 plan and applies ADJ,
HOL_POLICY and a set ENABLE at once (R180); otherwise all apply, a queue that leaves an allocation clears its deficit counter there
(R178), and the spread weights and credits of the channel's bonding groups follow (R237, R238). A sample of a queue enters its record: the
queue bytes as depth, and as sojourn the time since its head frame was enqueued, in time clock cycles, 0 for an empty queue (R200, R201);
with POST on it is posted too, in the sample ring of the queue's owner, with its flags of records lost, of a sojourn saturated, of a head
frame spilled and of an empty queue (R201 to R203); with PERIOD 0 nothing is sampled. Where the spec leaves a choice it is the model's, of
log entries 41, 99, 100. -/
def Obligations.QueueSettersAndSamples : Prop :=
  (∀ (hd : CmdHdr) (p : List Byte) (s : State), let c : RawCmd := ⟨0x0301, hd, p⟩
    let q := u16 p 0
    let a := u8 p 2
    let new : QCfg := { alloc := if a = 255 then none else some a, member := u8 p 3, weight := u16 p 4, flow := u8 p 6,
                        adj := i16 p 8, discard := u8 p 7 == 1, enable := u8 p 10 == 1 }
    let others := (s.members (q / 128) a).filter fun r => r != q
    let t := s.taken c
    s.Takes c 0 → s.alive 216 = true → p.length = 12 → q < 8192 → s.queueOwner q = hd.ep → u8 p 3 ≤ 7 → u8 p 7 ≤ 1 →
    -64 ≤ new.adj → new.adj ≤ 255 → u8 p 10 ≤ 1 → ZeroAt p [(11, 1)] →
    (a = 255 ∨ (a ≤ 63 ∧ others.length < 8 ∧ (∀ r ∈ others, (s.queue r).told.member ≠ u8 p 3)
      ∧ Tab.get .none (s.chan (q / 128)).trib.binds a = .none)) →
    exec (.queueSet hd p) s = .next (State.okOf
      (if s.planning (q / 128) then t.updQueue q fun x => { x with
          cfg := { x.cfg with adj := new.adj, discard := new.discard, enable := x.cfg.enable || new.enable }
          cfgNext := some new }
       else
        let u := match (s.queue q).cfg.alloc with
          | some b => if new.alloc = some b then t else
              t.updAlloc (64 * (q / 128) + b) fun x => { x with dc := x.dc.set (s.queue q).cfg.member 0 }
          | none => t
        ((u.updQueue q fun x => { x with cfg := new, cfgNext := none }).updateHalt q).bondLapse (q / 128)) c))
  ∧ (∀ (hd : CmdHdr) (p : List Byte) (s : State), let c : RawCmd := ⟨0x0302, hd, p⟩
    let q := u16 p 0
    s.Takes c 0 → s.alive 216 = true → p.length = 16 → q < 8192 → s.queueOwner q = hd.ep → u8 p 2 ≤ 1 → u8 p 3 ≤ 1 →
    1 ≤ u32 p 4 → u32 p 4 ≤ 16777215 → u64 p 8 ≤ 100000000000 →
    exec (.queueShaperSet hd p) s = .next (State.okOf
      (((s.taken c).updQueue q fun x => { x with
        shaper := x.shaper.configure (u8 p 2 == 1) (u8 p 3 == 1) (u32 p 4) (u64 p 8) }).updateHalt q) c))
  ∧ (∀ (hd : CmdHdr) (p : List Byte) (s : State), let c : RawCmd := ⟨0x0303, hd, p⟩
    let q := u16 p 0
    s.Takes c 0 → s.alive 216 = true → p.length = 116 → q < 10240 → s.queueOwner q = hd.ep → u8 p 2 ≤ 1 → ZeroAt p [(3, 1)] →
    u64 p 4 < 2 ^ 40 → u64 p 12 ≤ u64 p 4 → (∀ i < 8, u64 p (20 + 8 * i) ≤ u64 p 4) →
    (∀ i < 7, u64 p (20 + 8 * i) ≤ u64 p (20 + 8 * (i + 1))) → (∀ i < 8, u32 p (84 + 4 * i) ≤ 65536) →
    exec (.queueDropSet hd p) s = .next (State.okOf
      ((s.taken c).updQueue q fun x => { x with drop :=
        { max := u64 p 4, ymax := u64 p 12, curve := u8 p 2 == 1
          d := (List.range 8).map fun i => u64 p (20 + 8 * i), p := (List.range 8).map fun i => u32 p (84 + 4 * i) } }) c))
  ∧ (∀ (hd : CmdHdr) (p : List Byte) (s : State), let c : RawCmd := ⟨0x0304, hd, p⟩
    let q := u16 p 0
    s.Takes c 0 → s.alive 216 = true → p.length = 16 → q < 10240 → s.queueOwner q = hd.ep → u8 p 2 ≤ 1 → ZeroAt p [(3, 1), (14, 2)] →
    u32 p 4 ≤ 1000000 → u32 p 8 < max (u32 p 4) 1 → 1 ≤ u16 p 12 →
    exec (.queueSampleSet hd p) s = .next (State.okOf
      ((s.taken c).updQueue q fun x => { x with samp :=
        { post := u8 p 2 == 1, period := u32 p 4, phase := u32 p 8, base := u16 p 12 } }) c))
  ∧ (∀ (hd : CmdHdr) (p : List Byte) (s : State), let c : RawCmd := ⟨0x0305, hd, p⟩
    let q := u16 p 0
    s.Takes c 0 → s.alive 216 = true → p.length = 8 → q < 8192 → s.queueOwner q = hd.ep → u8 p 2 ≤ 1 → u8 p 3 ≤ 1 →
    32768 ≤ u32 p 4 → u32 p 4 ≤ 16777216 →
    exec (.queueSpillSet hd p) s = .next (State.okOf
      (((s.taken c).updQueue q fun x => { x with
        spillCfg := { spill := u8 p 2 == 1, pressure := u8 p 3 == 1, onMax := u32 p 4 }
        pressured := x.pressured && u8 p 2 == 1 && u8 p 3 == 1 }).pressureTest q) c))
  ∧ (∀ (q : QueueId) (s : State), (s.queue q).samp.period ≠ 0 → (s.queue q).samp.post = false →
    exec (.queueSample q) s = .next (s.updQueue q fun x => { x with
      lat := x.lat.note x.samp.base (s.queue q).bytes (match (s.queue q).headFrame with
        | some f => (s.now - f.enq) / 6400
        | none => 0) }))
  ∧ (∀ (q : QueueId) (s : State), let soj := match (s.queue q).headFrame with
        | some f => (s.now - f.enq) / 6400
        | none => 0
    let spilled : Bool := match (s.queue q).headFrame with
        | some f => f.place != .head
        | none => false
    (s.queue q).samp.period ≠ 0 → (s.queue q).samp.post = true →
    exec (.queueSample q) s = .next (
      (s.updQueue q fun x => { x with lat := x.lat.note x.samp.base (s.queue q).bytes soj }).writeRecord (s.queueOwner q) false
        fun lost rseq => leBytes 2 q
          ++ leBytes 1 ((if lost then 8 else 0) + (if soj ≤ 0xFFFFFFFF then 0 else 4) + (if spilled then 2 else 0)
            + (if (s.queue q).frames = [] then 1 else 0))
          ++ [0] ++ leBytes 4 (min soj 0xFFFFFFFF) ++ leBytes 8 (s.queue q).bytes ++ leBytes 6 s.presented.sec
          ++ leBytes 4 s.presented.ns ++ zeros 2 ++ leBytes 4 rseq))
  ∧ (∀ (q : QueueId) (s : State), (s.queue q).samp.period = 0 → exec (.queueSample q) s = .next s)

/-- QUEUE.FC.SET names a pause point, tested at once with the one named before (R377); QUEUE.FLUSH takes out every frame that no committed
plan has claimed, each counted in Q_FLUSHED (R204); ALLOC.SET, ALLOC.SHAPER.SET, CHAN.PEAK.SET and POLICER.SET store what their payload
names, a MODE of a planning channel from the next window 0 plan (R180) and a smaller bucket size at once (R194); SAMPLE.RING.SET sets up
the sample ring with its indices at 0 (R203). QUEUE.GET, QUEUE.STATS.GET, QUEUE.LAT.GET, ALLOC.GET and POLICER.STATS.GET reply with the
configuration, the counters or the record they name, and a CLEAR clears what was read and nothing else, Q_PEAK_BYTES to the queue bytes
(R205, R534, R542, R552). Where the spec leaves a choice it is the model's, of log entries 40, 41. -/
def Obligations.FlowShaperSettersAndQueueReaders : Prop :=
  (∀ (hd : CmdHdr) (p : List Byte) (s : State), let c : RawCmd := ⟨0x0306, hd, p⟩
    let q := u16 p 0
    s.Takes c 0 → s.alive 216 = true → p.length = 20 → q < 8192 → s.queueOwner q = hd.ep → s.macOwner (u8 p 2) = hd.ep →
    (u8 p 3 = 255 ∨ (u8 p 3 ≤ 7 ∧ u64 p 12 < u64 p 4)) →
    exec (.queueFcSet hd p) s = .next (State.okOf
      (let t := (s.taken c).updQueue q fun x => { x with
          fc := some { mac := u8 p 2, prio := u8 p 3, xoff := u64 p 4, xon := u64 p 12 } }
       (match (s.queue q).fc with
        | some f => t.updatePoint f.mac f.prio
        | none => t).updatePoint (u8 p 2) (u8 p 3)) c))
  ∧ (∀ (hd : CmdHdr) (p : List Byte) (s : State), let c : RawCmd := ⟨0x0307, hd, p⟩
    let q := u16 p 0
    s.Takes c 0 → s.alive 216 = true → p.length = 2 → q < 10240 → s.queueOwner q = hd.ep →
    exec (.queueFlush hd p) s = .next (State.okOf
      (((s.taken c).takeOut q (fun f => !f.claimed) fun t _ => t.bumpQ q .flushed).dropPages q) c))
  ∧ (∀ (hd : CmdHdr) (p : List Byte) (s : State), let c : RawCmd := ⟨0x0310, hd, p⟩
    let i := u8 p 0
    s.Takes c 0 → s.alive 216 = true → p.length = 3 → i < 64 → u8 p 1 < 64 → u8 p 2 ≤ 1 → (s.chan i).owner = hd.ep →
    exec (.allocSet hd p) s = .next (State.okOf
      ((s.taken c).updAlloc (64 * i + u8 p 1) fun x =>
        if s.planning i then { x with weightedNext := some (u8 p 2 == 1) }
        else { x with weighted := u8 p 2 == 1, weightedNext := none }) c))
  ∧ (∀ (hd : CmdHdr) (p : List Byte) (s : State), let c : RawCmd := ⟨0x0311, hd, p⟩
    let i := u8 p 0
    s.Takes c 0 → s.alive 216 = true → p.length = 16 → i < 64 → u8 p 1 < 64 → (s.chan i).owner = hd.ep → u8 p 2 ≤ 1 → u8 p 3 ≤ 1 →
    1 ≤ u32 p 4 → u32 p 4 ≤ 16777215 → u64 p 8 ≤ 100000000000 →
    exec (.allocShaperSet hd p) s = .next (State.okOf
      (((s.taken c).updAlloc (64 * i + u8 p 1) fun x => { x with
        shaper := x.shaper.configure (u8 p 2 == 1) (u8 p 3 == 1) (u32 p 4) (u64 p 8) }).updateHalts i) c))
  ∧ (∀ (hd : CmdHdr) (p : List Byte) (s : State), let c : RawCmd := ⟨0x0313, hd, p⟩
    let i := u8 p 0
    s.Takes c 0 → s.alive 216 = true → p.length = 16 → i < 64 → ZeroAt p [(1, 1)] → (s.chan i).owner = hd.ep → u8 p 2 ≤ 1 →
    u8 p 3 ≤ 1 → 1 ≤ u32 p 4 → u32 p 4 ≤ 16777215 → u64 p 8 ≤ 100000000000 →
    exec (.chanPeakSet hd p) s = .next (State.okOf
      (((s.taken c).updPeak i fun x => x.configure (u8 p 2 == 1) (u8 p 3 == 1) (u32 p 4) (u64 p 8)).updateHalts i) c))
  ∧ (∀ (hd : CmdHdr) (p : List Byte) (s : State), let c : RawCmd := ⟨0x0320, hd, p⟩
    let i := u16 p 0
    s.Takes c 0 → s.alive 216 = true → p.length = 32 → i < s.quota hd.ep 5 → u8 p 2 ≤ 1 → u8 p 3 ≤ 1 → u8 p 4 ≤ 2 → u8 p 5 ≤ 2 →
    u8 p 6 ≤ 2 → ZeroAt p [(7, 1)] → u64 p 8 ≤ u64 p 16 → u64 p 16 ≤ 100000000000 → 1 ≤ u32 p 24 → u32 p 24 ≤ 16777215 →
    1 ≤ u32 p 28 → u32 p 28 ≤ 16777215 →
    exec (.policerSet hd p) s = .next (State.okOf
      ((s.taken c).updPolicer (partIdx hd.ep i) fun x => { x with
        aware := u8 p 2 == 1, deiYellow := u8 p 3 == 1, actG := polAct (u8 p 4), actY := polAct (u8 p 5), actR := polAct (u8 p 6)
        cir := u64 p 8, pir := u64 p 16, cbs := u32 p 24, pbs := u32 p 28, tc := min x.tc (u32 p 24), tp := min x.tp (u32 p 28) }) c))
  ∧ (∀ (hd : CmdHdr) (p : List Byte) (s : State), let c : RawCmd := ⟨0x0330, hd, p⟩
    s.Takes c 0 → p.length = 12 → u64 p 0 % 4096 = 0 → (u64 p 0 = 0 ∨ (8 ≤ u8 p 8 ∧ u8 p 8 ≤ 20)) → u8 p 9 ≤ 15 → ZeroAt p [(10, 2)] →
    exec (.sampleRingSet hd p) s = .next (State.okOf
      ((s.taken c).updEp hd.ep fun e => { e with smp := { e.smp with base := u64 p 0, log2 := u8 p 8, vec := u8 p 9, pi := 0, ci := 0 } }) c))
  ∧ (∀ (hd : CmdHdr) (p : List Byte) (s : State), let c : RawCmd := ⟨0x0308, hd, p⟩
    let q := u16 p 0
    let n := u16 p 2
    let r := ((List.range n).map (q + ·)).flatMap (queueRecord s)
    s.Takes c r.length → s.alive 216 = true → p.length = 4 → 1 ≤ n → n ≤ 348 → q + n ≤ 10240 →
    (∀ i < n, s.queueOwner (q + i) = hd.ep) →
    exec (.queueGet hd p) s = .next (State.okOf (s.taken c) c r))
  ∧ (∀ (hd : CmdHdr) (p : List Byte) (s : State), let c : RawCmd := ⟨0x0309, hd, p⟩
    let q := u16 p 0
    s.Takes c 168 → s.alive 216 = true → p.length = 3 → q < 10240 → s.queueOwner q = hd.ep → u8 p 2 ≤ 1 →
    exec (.queueStatsGet hd p) s = .next (State.okOf
      (if u8 p 2 = 1 then (s.taken c).updQueue q fun x => { x with ctr := Tab.set 0 [] QCtr.peakBytes.ctorIdx x.bytes } else s.taken c) c
      ((List.range (if q < 8192 then 21 else 15)).flatMap fun i => leBytes 8 ((s.queue q).ctr.get i))))
  ∧ (∀ (hd : CmdHdr) (p : List Byte) (s : State), let c : RawCmd := ⟨0x030A, hd, p⟩
    let q := u16 p 0
    let l := (s.queue q).lat
    s.Takes c 184 → s.alive 216 = true → p.length = 3 → q < 10240 → s.queueOwner q = hd.ep → u8 p 2 ≤ 1 →
    exec (.queueLatGet hd p) s = .next (State.okOf
      (if u8 p 2 = 1 then (s.taken c).updQueue q fun x => { x with lat := {} } else s.taken c) c
      (leBytes 8 l.dMin ++ leBytes 8 l.dMax ++ leBytes 8 l.dSum ++ leBytes 8 l.sMin ++ leBytes 8 l.sMax ++ leBytes 8 l.sSum
        ++ leBytes 8 l.samples ++ (List.range 16).flatMap fun i => leBytes 8 (l.bins.get i))))
  ∧ (∀ (hd : CmdHdr) (p : List Byte) (s : State), let c : RawCmd := ⟨0x0312, hd, p⟩
    let i := u8 p 0
    let x := s.alloc (64 * i + u8 p 1)
    s.Takes c 20 → s.alive 216 = true → p.length = 2 → i < 64 → u8 p 1 < 64 → (s.chan i).owner = hd.ep →
    exec (.allocGet hd p) s = .next (State.okOf (s.taken c) c
      (leBytes 1 i ++ leBytes 1 (u8 p 1) ++ [bByte (x.weightedNext.getD x.weighted), 0] ++ leBytes 1 i ++ leBytes 1 (u8 p 1)
        ++ [bByte x.shaper.en, 0] ++ leBytes 4 x.shaper.burst ++ leBytes 8 x.shaper.rate)))
  ∧ (∀ (hd : CmdHdr) (p : List Byte) (s : State), let c : RawCmd := ⟨0x0321, hd, p⟩
    let i := u16 p 0
    s.Takes c 56 → s.alive 216 = true → p.length = 3 → i < s.quota hd.ep 5 → u8 p 2 ≤ 1 →
    exec (.policerStatsGet hd p) s = .next (State.okOf
      (if u8 p 2 = 1 then (s.taken c).updPolicer (partIdx hd.ep i) fun x => { x with ctr := [] } else s.taken c) c
      ((List.range 7).flatMap fun j => leBytes 8 ((s.policer (partIdx hd.ep i)).ctr.get j))))

/-- RULE.ADD, RULE.MOD and RULE.DEL stage an edit and change nothing live; RULE.ADD answers the next handle of its partition (R217, R226);
RULE.GET answers the newest entry of a handle; RULE.COMMIT applies the staged edits as one new version, the one before it draining (R227,
R228), with nothing staged answers the current version, and while a version drains is refused BUSY (R229); RULE.ABORT discards what is
staged. A RULE.MOD or RULE.DEL may name a handle whose staged edit it replaces (R226). What an edit does when its version begins: an added
entry is live from that version; a modified or deleted one dies in it, and the entry that replaces it is live from it (R227, R228). The
reorder time-out of a bond group moves NEXT to the lowest held sequence and delivers what that allows (R243), and does nothing to a group
that holds nothing; a draining rule version that no packet uses any more is gone with the entries, profiles and sources that died by the
current version, and RULE_DRAINED is posted (R230), while with none draining nothing happens. Where the spec leaves a choice it is the
model's, of log entries 45, 102, 104. -/
def Obligations.RulesAreStagedCommittedAndDrained : Prop :=
  (∀ (hd : CmdHdr) (p : List Byte) (s : State), let c : RawCmd := ⟨0x0401, hd, p⟩
    let k := hd.ep.val
    let h := (s.cl k).nextHandle
    let r := ruleAt p 0 k h ((s.cl k).cur + 1)
    s.Takes c 4 → s.alive 216 = true → p.length = 132 → ruleRight s k r = none → ruleBad s k p 0 r = none → s.roomFor k r = true →
    exec (.ruleAdd hd p) s = .next (State.okOf
      ((let t := (s.taken c).updCl k fun x => { x with staged := x.staged ++ [.add r], nextHandle := h + 1 }
        { t with draws := t.draws + 1 })) c (leBytes 4 h)))
  ∧ (∀ (hd : CmdHdr) (p : List Byte) (s : State), let c : RawCmd := ⟨0x0402, hd, p⟩
    let k := hd.ep.val
    let h := u32 p 0
    let r := ruleAt p 4 k h ((s.cl k).cur + 1)
    s.Takes c 0 → s.alive 216 = true → p.length = 136 → s.handleKnown k h = true → ruleRight s k r = none →
    ruleBad s k p 4 r = none → (s.unstaged k h).roomFor k r = true →
    exec (.ruleMod hd p) s = .next (State.okOf
      (let t := (s.taken c).updCl k fun x => { x with staged := stageEdit x.staged h (.mod r) }
       { t with draws := t.draws + 1 }) c))
  ∧ (∀ (hd : CmdHdr) (p : List Byte) (s : State), let c : RawCmd := ⟨0x0403, hd, p⟩
    let k := hd.ep.val
    s.Takes c 0 → s.alive 216 = true → p.length = 4 → s.handleKnown k (u32 p 0) = true →
    exec (.ruleDel hd p) s = .next (State.okOf
      ((s.taken c).updCl k fun x => { x with staged := stageEdit x.staged (u32 p 0) (.del (u32 p 0)) }) c))
  ∧ (∀ (hd : CmdHdr) (p : List Byte) (s : State) (r : Rule), let c : RawCmd := ⟨0x0404, hd, p⟩
    let reply := ruleBytes r ++ leBytes 4 r.born ++ leBytes 4 r.died
    s.Takes c reply.length → s.alive 216 = true → p.length = 4 → s.newestRule hd.ep (u32 p 0) = some r →
    exec (.ruleGet hd p) s = .next (State.okOf (s.taken c) c reply))
  ∧ (∀ (hd : CmdHdr) (s : State), let c : RawCmd := ⟨0x0405, hd, []⟩
    let k := hd.ep.val
    let x := s.cl k
    s.Takes c 4 → s.alive 216 = true → (x.staged = [] ∨ x.drain = 0) →
    exec (.ruleCommit hd []) s = .next (
      if x.staged = [] then State.okOf (s.taken c) c (leBytes 4 x.cur)
      else State.okOf ((x.staged.foldl (applyEdit k (x.cur + 1)) (s.taken c)).updCl k fun y =>
        { y with cur := x.cur + 1, drain := x.cur, staged := [] }) c (leBytes 4 (x.cur + 1))))
  ∧ (∀ (hd : CmdHdr) (s : State), let c : RawCmd := ⟨0x0405, hd, []⟩
    s.Takes c 0 → s.alive 216 = true → (s.cl hd.ep).staged ≠ [] → (s.cl hd.ep).drain ≠ 0 →
    exec (.ruleCommit hd []) s = .next (State.failOf (s.taken c) c stBusy))
  ∧ (∀ (hd : CmdHdr) (s : State), let c : RawCmd := ⟨0x0406, hd, []⟩
    s.Takes c 0 → s.alive 216 = true →
    exec (.ruleAbort hd []) s = .next (State.okOf ((s.taken c).updCl hd.ep fun x => { x with staged := [] }) c))
  ∧ (∀ (k v : Nat) (s : State) (r : Rule) (h : Nat),
    (applyEdit k v s (.add r)).rules = s.rules ++ [{ r with born := v }]
    ∧ (∀ x ∈ s.rules, x.part = k → x.handle = h → x.died = 0 → { x with died := v } ∈ (applyEdit k v s (.del h)).rules)
    ∧ (∀ x ∈ s.rules, (x.part ≠ k ∨ x.handle ≠ h ∨ x.died ≠ 0) → x ∈ (applyEdit k v s (.del h)).rules)
    ∧ (0 < v → ∀ x ∈ (applyEdit k v s (.mod r)).rules, x.part = k → x.handle = r.handle → x.died = 0 → x = { r with born := v })
    ∧ (0 < v → r.part = k → r.died = 0 → { r with born := v } ∈ (applyEdit k v s (.mod r)).rules))
  ∧ (∀ (g : Fin 32) (s : State) (nx d : Nat),
    (s.bond g).next = some nx → ((s.bond g).held.map fun h => State.seqDist h.seq nx).min? = some d →
    exec (.reorderTimeout g) s = .next (
      let t := ((s.updBond g fun b => { b with next := some ((nx + d) % 16777216) }).bumpBond g .dsTimeout).bumpBond g .dsSkipped d
      State.drainHeld g (t.bond g).held.length t))
  ∧ (∀ (g : Fin 32) (s : State), ((s.bond g).next = none ∨ (s.bond g).held = []) → exec (.reorderTimeout g) s = .next s)
  ∧ (∀ (k : EpId) (s : State), (s.cl k).drain = 0 → exec (.versionDrained k) s = .next s)
  ∧ (∀ (k : EpId) (s : State), (s.cl k).drain ≠ 0 →
    exec (.versionDrained k) s = .next (
      let cur := (s.cl k).cur
      let live := fun (died : Nat) => died == 0 || decide (cur < died)
      (({ s with rules := s.rules.filter fun r => r.part != k || live r.died } : State).updCl k fun p => { p with
        drain := 0
        profiles := p.profiles.filter fun e => live e.2.2.2
        sources := p.sources.filter fun e => live e.2.2.2 }).event 0x5001 0 0 0 (det1 (s.cl k).drain) [k]))

/-- CL.PROFILE.SET and CL.SOURCE.SET stage a key profile and a source configuration (R213, R214, R226); COUNTER.GET and CL.STATS.GET reply
with what was counted and clear it when asked, CL.STATS.GET for partition 0 only (R221, R248, R540). BOND.SET and LAG.SET make or delete a
group, a bond group's held packets released first (R234, R247); BOND.TABLE.SET and LAG.TABLE.SET write entries of an indirection table
(R245 to R247); BOND.STATS.GET replies with Table 6.9 and clears when asked. Where the spec leaves a choice it is the model's, of log
entries 45, 49, 50, 103. -/
def Obligations.ClassifierSettersAndGroupsApply : Prop :=
  (∀ (hd : CmdHdr) (p : List Byte) (s : State), let c : RawCmd := ⟨0x0407, hd, p⟩
    let k := hd.ep.val
    let i := u8 p 0
    let tern := u8 p 1 == 1
    let n := u8 p 2
    let fields := (List.range n).map fun j => u8 p (4 + j)
    s.Takes c 0 → s.alive 216 = true → p.length = 20 → i < 64 → i < s.quota k 7 → u8 p 1 ≤ 1 → 1 ≤ n → n ≤ 16 → ZeroAt p [(3, 1)] →
    (∀ x ∈ fields, x ≤ 26) → (fields.map fun f => fieldWidth.getD f 0).sum ≤ (if tern then 320 else 128) →
    (∀ src < 96, s.srcOwner src = k → if tern then (s.stagedSource k src).exp1 ≠ some i ∧ (s.stagedSource k src).exp2 ≠ some i
      else (s.stagedSource k src).tep1 ≠ some i ∧ (s.stagedSource k src).tep2 ≠ some i) →
    exec (.clProfileSet hd p) s = .next (State.okOf
      ((s.taken c).updCl k fun x => { x with
        staged := (x.staged.filter fun e => match e with | .profile j _ => j != i | _ => true)
          ++ [.profile i { ternary := tern, fields }] }) c))
  ∧ (∀ (hd : CmdHdr) (p : List Byte) (s : State), let c : RawCmd := ⟨0x0408, hd, p⟩
    let k := hd.ep.val
    let src := u8 p 0
    let prof := fun (j : Nat) => if u8 p j = 255 then none else some (u8 p j)
    s.Takes c 0 → s.alive 216 = true → p.length = 44 → src < 96 → s.srcOwner src = k → 1 ≤ u16 p 6 → ZeroAt p [(5, 1), (10, 2), (38, 2)] →
    (∀ j ∈ [1, 2, 3, 4], u8 p j = 255 ∨ (u8 p j < 64 ∧ u8 p j < s.quota k 7
      ∧ (s.stagedProfile k (u8 p j)).all (fun q => q.ternary == (j % 2 == 0)) = true)) →
    actionRight s k (actionAt p 12) = none → (∀ f ∈ actionBad p 12 (decide (64 ≤ src)) (decide (src < 64)) false, f.1 = false) →
    exec (.clSourceSet hd p) s = .next (State.okOf
      ((s.taken c).updCl k fun x => { x with
        staged := (x.staged.filter fun e => match e with | .source j _ => j != src | _ => true) ++
          [.source src { exp1 := prof 1, tep1 := prof 2, exp2 := prof 3, tep2 := prof 4, miss := actionAt p 12
                         vxlanPort := u16 p 6, ecpriPort := u16 p 8 }] }) c))
  ∧ (∀ (hd : CmdHdr) (p : List Byte) (s : State), let c : RawCmd := ⟨0x0409, hd, p⟩
    let i := partIdx hd.ep (u32 p 0)
    let v := Tab.get (0, 0) s.counters i
    s.Takes c 16 → s.alive 216 = true → p.length = 5 → u32 p 0 < s.quota hd.ep 6 → u8 p 4 ≤ 1 →
    exec (.counterGet hd p) s = .next (State.okOf
      (if u8 p 4 = 1 then { s.taken c with counters := Tab.set (0, 0) s.counters i (0, 0) } else s.taken c) c
      (leBytes 8 v.1 ++ leBytes 8 v.2)))
  ∧ (∀ (hd : CmdHdr) (p : List Byte) (s : State), let c : RawCmd := ⟨0x040A, hd, p⟩
    let i := u8 p 0
    let x := s.slice i
    s.Takes c 192 → s.alive 216 = true → p.length = 2 → i < 16 → (u8 p 1 = 0 ∨ (u8 p 1 = 1 ∧ hd.ep = 0)) →
    exec (.clStatsGet hd p) s = .next (State.okOf (if u8 p 1 = 1 then (s.taken c).updSlice i fun y => { y with ctr := [], srcPasses := [], srcMiss := [] } else s.taken c) c
      (((List.range 12).flatMap fun j => leBytes 8 (x.ctr.get j))
        ++ [4 * i, 4 * i + 1, 4 * i + 2, 4 * i + 3, 64 + 2 * i, 65 + 2 * i].flatMap fun src =>
            leBytes 8 (x.srcPasses.get src) ++ leBytes 8 (x.srcMiss.get src))))
  ∧ (∀ (hd : CmdHdr) (p : List Byte) (s : State), let c : RawCmd := ⟨0x0501, hd, p⟩
    let g := u8 p 0
    let n := u8 p 1
    let mem := (List.range n).map fun i => u8 p (64 + i)
    s.Takes c 0 → s.alive 216 = true → p.length = 128 → g < 32 → (s.bond g).owner = hd.ep → n ≠ 1 → n ≤ 64 → mem.Nodup →
    (∀ m ∈ mem, m < 64 ∧ (s.chan m).owner = hd.ep ∧ ∀ b ∈ s.bonds, b.1 ≠ g → m ∉ b.2.members) → ZeroAt p [(64 + n, 64 - n), (54, 2)] →
    (n ≠ 0 → 1 ≤ u8 p 3 ∧ u8 p 3 ≤ 64 ∧ 10 ≤ u16 p 52 ∧ u16 p 52 ≤ 1000) → u32 p 60 < 2 ^ 27 →
    exec (.bondSet hd p) s = .next (State.okOf
      (((s.taken c).releaseAll g).updBond g fun b =>
        if n = 0 then { owner := b.owner, ctr := b.ctr }
        else { owner := b.owner, ctr := b.ctr, members := mem, lineId := u8 p 2, flows := bitsSet p 4 32, queues := bitsSet p 36 16
               window := u8 p 3, reorderTo := u16 p 52
               hash := { seed := BitVec.ofNat 32 (u32 p 56), fields := BitVec.ofNat 32 (u32 p 60) } }) c))
  ∧ (∀ (hd : CmdHdr) (p : List Byte) (s : State), let c : RawCmd := ⟨0x0502, hd, p⟩
    let g := u8 p 0
    let n := (s.bond g).members.length
    s.Takes c 0 → s.alive 216 = true → p.length = 6 + u16 p 4 → g < 32 → (s.bond g).owner = hd.ep → 8 < n → ZeroAt p [(1, 1)] →
    u16 p 2 + u16 p 4 ≤ 4096 → (∀ i < u16 p 4, u8 p (6 + i) < n) →
    exec (.bondTableSet hd p) s = .next (State.okOf ((s.taken c).updBond g fun b => { b with
      table := (List.range (u16 p 4)).foldl (fun t i => Tab.set 0 t (u16 p 2 + i) (u8 p (6 + i) + 1)) b.table }) c))
  ∧ (∀ (hd : CmdHdr) (p : List Byte) (s : State), let c : RawCmd := ⟨0x0503, hd, p⟩
    let g := u8 p 0
    s.Takes c 88 → s.alive 216 = true → p.length = 2 → g < 32 → (s.bond g).owner = hd.ep → u8 p 1 ≤ 1 →
    exec (.bondStatsGet hd p) s = .next (State.okOf
      (if u8 p 1 = 1 then (s.taken c).updBond g fun b => { b with ctr := [] } else s.taken c) c
      ((List.range 11).flatMap fun j => leBytes 8 ((s.bond g).ctr.get j))))
  ∧ (∀ (hd : CmdHdr) (p : List Byte) (s : State), let c : RawCmd := ⟨0x0504, hd, p⟩
    let g := u8 p 0
    let n := u8 p 1
    let mem := (List.range n).map fun i => u8 p (12 + i)
    s.Takes c 0 → s.alive 216 = true → p.length = 76 → g < 64 → ((s.lag g).members = [] ∨ (s.lag g).owner = hd.ep) → n ≠ 1 → n ≤ 64 →
    mem.Nodup → (∀ m ∈ mem, s.macOwner m = hd.ep ∧ s.macExists m = true ∧ ∀ b ∈ s.lags, b.1 ≠ g → m ∉ b.2.members) →
    ZeroAt p [(12 + n, 64 - n), (2, 2)] → u32 p 8 < 2 ^ 27 →
    exec (.lagSet hd p) s = .next (State.okOf
      ((s.taken c).updLag g fun _ =>
        if n = 0 then {}
        else { owner := hd.ep, members := mem
               hash := { seed := BitVec.ofNat 32 (u32 p 4), fields := BitVec.ofNat 32 (u32 p 8) } }) c))
  ∧ (∀ (hd : CmdHdr) (p : List Byte) (s : State), let c : RawCmd := ⟨0x0505, hd, p⟩
    let g := u8 p 0
    let n := (s.lag g).members.length
    s.Takes c 0 → s.alive 216 = true → p.length = 6 + u16 p 4 → g < 64 → (s.lag g).owner = hd.ep → n ≠ 0 → ZeroAt p [(1, 1)] →
    u16 p 2 + u16 p 4 ≤ 4096 → (∀ i < u16 p 4, u8 p (6 + i) < n) →
    exec (.lagTableSet hd p) s = .next (State.okOf ((s.taken c).updLag g fun b => { b with
      table := (List.range (u16 p 4)).foldl (fun t i => Tab.set 0 t (u16 p 2 + i) (u8 p (6 + i) + 1)) b.table }) c))

/-- A page written is in the store and the tail cells of the frames it completes are freed (R257); the eighth failure of a transfer
retrains the stack's link (R265). With no page being written, or on a stack that takes no request, nothing changes. The next page of a
queue is read when its share and the pages in flight leave room under ON_MAX and its stack takes the request, and the page reader backs
off when the stack refuses it (R258, R276); a page read lands in staging, its frames stand in the head, and it leaves the store, but for
the records from an uncorrectable error to the end of the page, which are lost (R258, R259, R266). Where the spec leaves a choice it is
the model's, of log entries 38, 107, 108. -/
def Obligations.PagesMoveToAndFromTheStore : Prop :=
  (∀ (q : QueueId) (n : Fin 9) (s : State) (p : Page),
    ((s.queue q).pages.find? fun p => p.ph == .writing) = some p → s.stackRefuses p.stack = false → n.val < 8 →
    exec (.pageWriteDone q n) s = .next (
      let t := (s.bumpMem .spillLinkRetry n).updQueue q fun x => { x with
        pages := x.pages.map fun y => if y.start == p.start then { y with ph := .stored } else y }
      (((t.updStack p.stack fun y => { y with writes := y.writes - 1 }).bumpMem .spillPagesWritten).bumpQ q .spillPages).freeWritten
        q (p.start + 16384)))
  ∧ (∀ (q : QueueId) (s : State) (p : Page),
    ((s.queue q).pages.find? fun p => p.ph == .writing) = some p → s.stackRefuses p.stack = false →
    exec (.pageWriteDone q 8) s = .next (
      (s.bumpMem .spillLinkRetry 8).updStack p.stack fun x => { x with retraining := true }))
  ∧ (∀ (q : QueueId) (n : Fin 9) (s : State),
    (∀ p, ((s.queue q).pages.find? fun p => p.ph == .writing) = some p → s.stackRefuses p.stack = true) →
    exec (.pageWriteDone q n) s = .next s)
  ∧ (∀ (q : QueueId) (s : State) (p : Page),
    ((s.queue q).pages.find? fun p => p.ph != .reading) = some p → p.ph = .stored →
    (s.queue q).unclaimedShare + 16384 * ((s.queue q).pages.filter fun p => p.ph == .reading).length + 16384
      ≤ (s.queue q).spillCfg.onMax →
    (Tab.get {} s.mem.ports p.stack).wait = 0 → (s.pdom (stackDom p.stack)).ph ≠ .off → (s.stack p.stack).selfRefresh = false →
    exec (.pageReadIssue q) s = .next (
      if s.stackRefuses p.stack then
        (s.bumpMem .spillRetry).updMem fun m => { m with
          ports := Tab.upd {} m.ports p.stack fun x => { k := min 10 (x.k + 1), wait := 2 ^ x.k, held := some q.val } }
      else s.updQueue q fun x => { x with
        pages := x.pages.map fun y => if y.start == p.start then { y with ph := .reading } else y }))
  ∧ (∀ (q : QueueId) (s : State), (∀ p ∈ (s.queue q).pages, p.ph = .reading) → exec (.pageReadIssue q) s = .next s)
  ∧ (∀ (q : QueueId) (n : Fin 9) (damage : Option Nat) (s : State) (p : Page),
    ((s.queue q).pages.find? fun p => p.ph == .reading) = some p → s.stackRefuses p.stack = false → n.val < 8 →
    exec (.pageReadDone q n damage) s = .next (
      let t := s.bumpMem .spillLinkRetry n
      let t := match damage with
        | none => t
        | some d => (t.bumpMem .spillEccUncorr).loseStream q (p.start + d) (p.start + 16384)
      ((((((t.updQueue q fun x => { x with readEnd := p.start + 16384 }).stageFrames q (16 + p.stack)).freePage q p).bumpMem
        .spillPagesRead).bumpQ q .refillPages).joinTail q |>.pressureTest q).cellsChanged))

/-- A stack that fails raises its alarm and holds no page any more (R267); an idle one enters self-refresh and its controller is released
(R268); a retrained one accepts requests again (R265); the patrol scrub counts the pages of a ready stack and the uncorrectable reads it
met (R265, the latter's effect the model's choice of log entry 109), and wakes a stack that is not ready in the opportunistic class
(R261). A spill port whose request is refused, by a bank or by its stack, waits 2^k cycles, k growing to 10, and one accepted starts
afresh and goes on with what it held: a page reader with its read, a page writer with the waiting writes of its stack (R276, R277); the
background scrub counts what it corrects, treats the frame of a cell it cannot as R273 says, and raises the alarm of a memory it cannot,
whose word then reads as zero (R269, where the model keeps that being log entry 110). -/
def Obligations.StacksScrubsAndRetriesAct : Prop :=
  (∀ (i : Fin 4) (s : State), (s.stack i).failed = false → s.queues = [] →
    exec (.stackFailed i) s = .next (
      (((((s.updStack i fun x => { x with failed := true, retraining := false }).updMem fun m => { m with
          ports := Tab.set {} (Tab.set {} m.ports i {}) (4 + i) {} }).bumpMem .spillStackFail).raiseAlarm 0x1040 2 0 i (det1 i)
        allParts).updStack i fun x => { x with pages := 0, writes := 0 })))
  ∧ (∀ (i : Fin 4) (s : State), (s.stack i).failed = false →
    ∃ t, exec (.stackFailed i) s = .next t ∧ (t.stack i).failed = true ∧ (t.stack i).pages = 0 ∧ (t.stack i).writes = 0)
  ∧ (∀ (i : Fin 4) (s : State), (s.stack i).failed = true → exec (.stackFailed i) s = .next s)
  ∧ (∀ (i : Fin 4) (s : State), (s.stack i).pages = 0 → (s.stack i).writes = 0 → (s.stack i).selfRefresh = false →
    exec (.stackSelfRefresh i) s = .next (
      ((s.updStack i fun x => { x with selfRefresh := true }).bumpMem .spillSelfRefresh).requestRelease (stackDom i)))
  ∧ (∀ (i : Fin 4) (s : State), ((s.stack i).pages ≠ 0 ∨ (s.stack i).writes ≠ 0 ∨ (s.stack i).selfRefresh = true) →
    exec (.stackSelfRefresh i) s = .next s)
  ∧ (∀ (i : Fin 4) (s : State), exec (.stackLinkRetrained i) s = .next (s.updStack i fun x => { x with retraining := false }))
  ∧ (∀ (i : Fin 4) (n : Fin 9) (bad : Nat) (s : State), (s.stack i).pages ≠ 0 → (s.stack i).failed = false → s.stackReady i = true →
    n.val < 8 →
    exec (.patrolScrub i ⟨n, bad⟩) s = .next (
      let t := s.bumpMem .spillLinkRetry n
      (if bad = 0 then t else t.bumpMem .spillEccUncorr bad).updStack i fun x => { x with scrubbed := x.scrubbed + x.pages }))
  ∧ (∀ (i : Fin 4) (n : Fin 9) (bad : Nat) (s : State), (s.stack i).pages ≠ 0 → (s.stack i).failed = false → s.stackReady i = false →
    exec (.patrolScrub i ⟨n, bad⟩) s = .next (s.requestWake 2 (stackDom i)))
  ∧ (∀ (i : Fin 4) (n : Fin 9) (bad : Nat) (s : State), ((s.stack i).pages = 0 ∨ (s.stack i).failed = true) →
    exec (.patrolScrub i ⟨n, bad⟩) s = .next s)
  ∧ (∀ (i : Fin 8) (refused : Bool) (s : State),
    let x := Tab.get {} s.mem.ports i
    let t := if x.k = 10 then s.bumpMem .spillBackoffMax else s
    let u := t.updMem fun m => { m with ports := Tab.set {} m.ports i {} }
    exec (.spillPortRetry i refused) s = .next (
      if refused = true ∨ t.stackRefuses (i % 4) = true then (t.bumpMem .spillRetry).updMem fun m => { m with
        ports := Tab.set {} m.ports i { k := min 10 (x.k + 1), wait := 2 ^ x.k, held := x.held } }
      else match x.held with
        | none => u
        | some q => if i.val < 4 then u.doPageReadIssue q else u.startWrites (i - 4)))
  ∧ (∀ (s : State), exec (.backgroundScrub .clean) s = .next s)
  ∧ (∀ (s : State), exec (.backgroundScrub .corrected) s = .next (s.bumpMem .bufEccCorr))
  ∧ (∀ (s : State), exec (.backgroundScrub (.uncorrectableCell none)) s = .next (s.bumpMem .bufEccUncorr))
  ∧ (∀ (s : State) (f : Nat), exec (.backgroundScrub (.uncorrectableCell (some f))) s = .next ((s.bumpMem .bufEccUncorr).cellError f))
  ∧ (∀ (s : State) (m : Byte) (a : BitVec 32), exec (.backgroundScrub (.uncorrectable m a)) s = .next (
      (s.raiseAlarm 0x1041 2 0 m.toNat (det2 m.toNat a.toNat) allParts).updMem fun x => { x with
        zeroWords := if (m.toNat, a.toNat) ∈ x.zeroWords then x.zeroWords else x.zeroWords ++ [(m.toNat, a.toNat)] }))

/-- ARB.PRIO.SET writes bases of the shadow set; ARB.COMMIT makes it the active one, caps the aging and answers the number of commits
(R274, R275); ARB.GET replies with both sets; MEM.BANK.SET opens and closes banks, at least four open (R251); MEM.STATS.GET replies with
Table 7.9 and lets partition 0 clear it. Where the spec leaves a choice it is the model's, of log entry 106. -/
def Obligations.ArbiterAndMemoryCommandsApply : Prop :=
  (∀ (hd : CmdHdr) (p : List Byte) (s : State), let c : RawCmd := ⟨0x0C01, hd, p⟩
    let first := u8 p 0
    let n := u8 p 1
    s.Takes c 0 → s.alive 216 = true → p.length = 2 + n → hd.ep = 0 → 1 ≤ n → first + n ≤ 120 → (∀ i < n, u8 p (2 + i) ≤ 7) →
    exec (.arbPrioSet hd p) s = .next (State.okOf
      ((s.taken c).updMem fun m => { m with
        shadow := (List.range n).foldl (fun t i => Tab.set 0 t (first + i) (u8 p (2 + i) + 1)) m.shadow }) c))
  ∧ (∀ (hd : CmdHdr) (s : State), let c : RawCmd := ⟨0x0C02, hd, []⟩
    s.Takes c 2 → s.alive 216 = true → hd.ep = 0 →
    exec (.arbCommit hd []) s = .next (State.okOf
      ((s.taken c).updMem fun m => { m with
        active := m.shadow
        commits := m.commits + 1
        aging := Tab.mapVals 0 (fun i a => min a (15 - baseOf m.shadow (i % 120))) m.aging }) c (leBytes 2 (s.mem.commits + 1).toNat)))
  ∧ (∀ (hd : CmdHdr) (s : State), let c : RawCmd := ⟨0x0C03, hd, []⟩
    s.Takes c 240 → s.alive 216 = true → hd.ep = 0 →
    exec (.arbGet hd []) s = .next (State.okOf (s.taken c) c
      (((List.range 120).map fun i => BitVec.ofNat 8 (baseOf s.mem.shadow i))
        ++ (List.range 120).map fun i => BitVec.ofNat 8 (baseOf s.mem.active i))))
  ∧ (∀ (hd : CmdHdr) (p : List Byte) (s : State), let c : RawCmd := ⟨0x0C04, hd, p⟩
    let mask := BitVec.ofNat 16 (u16 p 0)
    s.Takes c 0 → s.alive 216 = true → p.length = 2 → hd.ep = 0 → 4 ≤ ((List.range 16).filter mask.getLsbD).length →
    exec (.memBankSet hd p) s = .next (State.okOf
      ((List.range 16).foldl (fun t b =>
        if mask.getLsbD b then
          if (t.bank b).opened then t else (t.updBank b fun x => { x with opened := true }).requestWake 1 (bankDom b)
        else (t.updBank b fun x => { x with opened := false }).gateIfEmpty b) (s.taken c)).cellsChanged c))
  ∧ (∀ (hd : CmdHdr) (p : List Byte) (s : State), let c : RawCmd := ⟨0x0C05, hd, p⟩
    s.Takes c 136 → s.alive 216 = true → p.length = 1 → (u8 p 0 = 0 ∨ (u8 p 0 = 1 ∧ hd.ep = 0)) →
    exec (.memStatsGet hd p) s = .next (State.okOf
      (if u8 p 0 = 1 then (s.taken c).updMem fun m => { m with ctr := [] } else s.taken c) c (memStats s)))

/-- KEY.CHAN.SET stores whether a channel encrypts upstream (R288); KEY.STATE.GET replies with the six key registers of a channel, its
high-water frame and, to partition 0, the two counters of the key-wrap lock (Table 18.8). A KEY.REQ that a condition of R288 stops is
answered with its RESULT; one for a unicast register that is not filled with its KEY_SEQ fills it with a fresh key of the DRBG and its
KEY_SEQ, or is answered RESULT 4 while the DRBG does not run; one for a key already wrapped queues its two KEY.RPT messages again (R289);
the first fragment of a broadcast key opens a collection and is answered (R291, R292). KEY.SWITCH to a filled register that is not
suspect, naming a multiframe boundary from 2 to 255 frames ahead, is accepted and waits for its frame; one that comes later is accepted
for the first boundary that it can meet, RESULT 1 and the condition reported; one for no such register or boundary is answered RESULT 2 or
3 (R293). A broadcast collection not complete in 64 frames is dropped (R292). Where the spec leaves a choice it is the model's, of log
entries 55, 56. -/
def Obligations.KeysAreRequestedAndSwitched : Prop :=
  (∀ (hd : CmdHdr) (p : List Byte) (s : State), let c : RawCmd := ⟨0x0601, hd, p⟩
    let i := u8 p 0
    s.Takes c 0 → s.openHeld i = false → p.length = 2 → i < 64 → (s.chan i).owner = hd.ep → u8 p 1 ≤ 1 →
    exec (.keyChanSet hd p) s = .next (State.okOf
      ((s.taken c).updChan i fun x => { x with cfg := { x.cfg with enc := u8 p 1 == 1 } }) c))
  ∧ (∀ (hd : CmdHdr) (p : List Byte) (s : State), let c : RawCmd := ⟨0x0602, hd, p⟩
    let i := u8 p 0
    let x := (s.chan i).keys
    s.Takes c 48 → s.openHeld i = false → p.length = 1 → i < 64 → (s.chan i).owner = hd.ep →
    exec (.keyStateGet hd p) s = .next (State.okOf (s.taken c) c
      (([x.ds1, x.ds2, x.us1, x.us2, x.bc, x.pend].flatMap fun r => [BitVec.ofNat 8 r.ph.code, r.seq, bByte r.suspect, 0])
        ++ leBytes 6 (x.high.map (·.toNat) |>.getD 0) ++ zeros 2
        ++ (if hd.ep = 0 then leBytes 8 s.gorse.kwe.cuts ++ leBytes 8 s.gorse.kwe.claimBad else zeros 16))))
  ∧ (∀ (c : Chan) (h : TcmHdr) (b : KeyReqBody) (s : State) (n : BitVec 48) (r : Nat),
    s.Hears c h (.keyReq b) n → (s.heard c h (.keyReq b)).keyReqCheck c b = some r →
    exec (.keyReq c h b) s = .next ((s.heard c h (.keyReq b)).answered c h (.keyReq b) n r))
  ∧ (∀ (c : Chan) (h : TcmHdr) (b : KeyReqBody) (s : State) (n : BitVec 48),
    let reg := (s.chan c).keys.uni b.kdir.toNat b.kslot.toNat
    s.Hears c h (.keyReq b) n → s.keyReqCheck c b = none → b.kdir.toNat < 2 → ¬ (reg.ph = .filled ∧ reg.seq = b.keySeq) →
    s.gorse.drbgRun = true →
    ∃ t, exec (.keyReq c h b) s = .next t
      ∧ (t.chan c).keys.uni b.kdir.toNat b.kslot.toNat = { ph := .filled, key := Config.drbg s.draws, seq := b.keySeq })
  ∧ (∀ (c : Chan) (h : TcmHdr) (b : KeyReqBody) (s : State) (n : BitVec 48),
    let reg := (s.chan c).keys.uni b.kdir.toNat b.kslot.toNat
    s.Hears c h (.keyReq b) n → s.keyReqCheck c b = none → b.kdir.toNat < 2 → ¬ (reg.ph = .filled ∧ reg.seq = b.keySeq) →
    s.gorse.drbgRun = false →
    exec (.keyReq c h b) s = .next ((s.heard c h (.keyReq b)).answered c h (.keyReq b) n 4))
  ∧ (∀ (c : Chan) (h : TcmHdr) (b : KeyReqBody) (s : State) (n : BitVec 48) (w : List Byte),
    let reg := (s.chan c).keys.uni b.kdir.toNat b.kslot.toNat
    s.Hears c h (.keyReq b) n → s.keyReqCheck c b = none → b.kdir.toNat < 2 → reg.ph = .filled → reg.seq = b.keySeq →
    State.wrappedOf (s.chan c).keys b.kdir.toNat b.kslot.toNat b.keySeq = some w →
    exec (.keyReq c h b) s = .next (
      let rpt := fun (i : Nat) => UpTcm.keyRpt b.kdir b.kslot b.keySeq (BitVec.ofNat 8 i) 2 (Machine.slice w (20 * i) 20)
      (((s.heard c h (.keyReq b)).queueTcm c (rpt 0) (some (n + 2))).queueTcm c (rpt 1) (some (n + 2))).updTc c fun t => { t with
        dups := t.dups.map fun d =>
          if d.type = 0x0A ∧ d.seq = h.seq then { d with keyRpt := some (b.kdir, b.kslot, b.keySeq) } else d }))
  ∧ (∀ (c : Chan) (h : TcmHdr) (b : KeyReqBody) (s : State) (n : BitVec 48),
    s.Hears c h (.keyReq b) n → s.keyReqCheck c b = none → b.kdir = 2 → (s.chan c).keys.frags = none →
    (h.tid = 0xFFFE → (s.chan c).keys.bc.ph ≠ .empty ∧ (s.chan c).keys.bc.suspect = false) →
    exec (.keyReq c h b) s = .next (
      ((s.heard c h (.keyReq b)).updKeys c fun k => { k with
        frags := some { toTid := h.tid != 0xFFFE, keySeq := b.keySeq, cnt := b.fragCnt.toNat
                        frags := [(b.fragIdx.toNat, b.frag)], first := n } }).answered c h (.keyReq b) n 0))
  ∧ (∀ (c : Chan) (h : TcmHdr) (b : KeySwitchBody) (s : State) (n : BitVec 48),
    let r := if b.kdir = 2 then (s.chan c).keys.pend else (s.chan c).keys.uni b.kdir.toNat b.kslot.toNat
    let t := s.heard c h (.keySwitch b)
    let named : Prop := (b.kdir.toNat < 2 ∧ (b.kslot = 1 ∨ b.kslot = 2)) ∨ (b.kdir = 2 ∧ b.kslot = 3)
    let queued := fun (f : BitVec 48) => t.updKeys c fun k => { k with
      switches := k.switches ++ [{ kdir := b.kdir.toNat, slot := b.kslot.toNat, keySeq := b.keySeq, frame := f }] }
    let next := State.nextBoundary (n + 2)
    s.Hears c h (.keySwitch b) n →
    exec (.keySwitch c h b) s = .next (
      if ¬ named ∨ b.swSfc.toNat % 8 ≠ 0 ∨ r.ph ≠ .filled ∨ r.seq ≠ b.keySeq then t.answered c h (.keySwitch b) n 2
      else if r.suspect = true then t.answered c h (.keySwitch b) n 3
      else if 255 < sfcDiff b.swSfc n then t.answered c h (.keySwitch b) n 2
      else if 2 ≤ sfcDiff b.swSfc n then (queued b.swSfc).answered c h (.keySwitch b) n 0
      else ((queued next).chanCondition c 5 (next.toNat % 4294967296) (some (n + 2))).answered c h (.keySwitch b) n 1))
  ∧ (∀ (c : Chan) (s : State), (s.chan c).keys.frags ≠ none →
    exec (.fragCollectionExpiry c) s = .next ((s.updKeys c fun k => { k with frags := none }).bump c .ckFragExpired))
  ∧ (∀ (c : Chan) (s : State), (s.chan c).keys.frags = none → exec (.fragCollectionExpiry c) s = .next s)

/-- Within its reach (R17), the key-wrap engine is claimed while it is free and released by its owner; a claim for another user is
counted, the owner's read of the lock then clearing LOST (R303, R304); 100 ms without an operation cut the lock, the key and the buffers
zeroed (R305), and an operation in progress puts the cut off. An erasure source leaves every key register of every channel EMPTY and the
working key, PS, KEK and DRK gone (R309). Where the spec leaves a choice it is the model's, of log entries 55, 112. -/
def Obligations.TheKeyWrapLockAndErasure : Prop :=
  (∀ (u : Fin 10) (v : Byte) (s : State), s.kweReach u = true → v.toNat = u →
    exec (.kweClaim u v) s = .next (
      if s.gorse.kwe.owner = 0xFF ∨ s.gorse.kwe.owner = u then s.updKwe fun x => { x with owner := u, lost := false } else s))
  ∧ (∀ (u : Fin 10) (v : Byte) (s : State), s.kweReach u = true → v.toNat ≠ u → v ≠ 0xFE → u.val < 8 →
    exec (.kweClaim u v) s = .next (s.updKwe fun x => { x with
      claimBad := min (x.claimBad + 1) ctrMax, lost := if s.gorse.kwe.owner = u then false else x.lost }))
  ∧ (∀ (u : Fin 10) (s : State), s.kweReach u = true → s.gorse.kwe.owner = u →
    exec (.kweRelease u) s = .next (s.updKwe fun x => { x with owner := 0xFF }).serveKeyJobs)
  ∧ (∀ (u : Fin 10) (v : Byte) (s : State), s.kweReach u = false →
    exec (.kweClaim u v) s = .next s ∧ exec (.kweRelease u) s = .next s)
  ∧ (∀ (u : Fin 10) (s : State), s.gorse.kwe.owner ≠ u → exec (.kweRelease u) s = .next s)
  ∧ (∀ (s : State), s.gorse.kwe.owner ≠ 0xFF → s.gorse.kwe.busy = false →
    exec .kweLockCut s = .next (s.updKwe fun x => { x with
      owner := 0xFF, lost := true, key := 0, len := 0, din := [], dout := [], outLen := 0, job := none
      cuts := min (x.cuts + 1) ctrMax }).serveKeyJobs)
  ∧ (∀ (s : State), s.gorse.kwe.busy = true → exec .kweLockCut s = .next s)
  ∧ (∀ (src : Fin 5) (s : State), ∃ t, exec (.erasureAlarm src) s = .next t
    ∧ (∀ c, (t.chan c).keys.allEmpty = true) ∧ t.gorse.ps = [] ∧ t.gorse.kek = [] ∧ t.gorse.drk = false ∧ t.gorse.kwe.key = 0)

/-- GO of the owner with a length that fits begins the operation, BUSY set (R306, R307), for LOADK, WRAP, UNWRAP, WRAPP and UNWRAPP of any
user, and for the others of the users of Table 8.8; one whose length does not fit ends at once with ERR 2 (R306); CLEAR ends at once with
the working key and the buffers zero (Table 8.8); GO of another user, while BUSY or out of reach does nothing (R17, R303, R307). An
operation that ends leaves its output and DONE, and raises the owner's vector (R306, R307): LOADK leaves its input in the working key,
WRAP and WRAPP the input wrapped under it, UNWRAP and UNWRAPP what it unwraps to or ERR 1, SEAL the input wrapped under the owner's
sealing key (R300), LOAD_PS and LOAD_KEK the key they unwrap, in its place (R301). With no operation nothing ends. Where the spec leaves a
choice it is the model's, of log entries 11, 55, 111. -/
def Obligations.KeyWrapOperationsRun : Prop :=
  let begun := fun (s : State) (op : Nat) (handle : BitVec 12) (job : Nat × Nat × Nat) => s.updKwe fun x => { x with
    op := BitVec.ofNat 4 op, handle, busy := true, job := some (op, job) }
  let refused := fun (s : State) (op : Nat) => (s.updKwe fun x => { x with
    op := BitVec.ofNat 4 op, handle := 0, done := true, err := 2, job := none, din := [], outLen := 0, dout := [] }).kweVector
  let ended := fun (s : State) (out : List Byte) => (s.updKwe fun x => { x with
    done := true, err := 0, busy := false, job := none, din := [], outLen := out.length, dout := out }).kweVector
  let failed := fun (s : State) => (s.updKwe fun x => { x with
    done := true, err := 1, busy := false, job := none, din := [], outLen := 0, dout := [] }).kweVector
  let input := fun (s : State) => Machine.slice s.gorse.kwe.din 0 s.gorse.kwe.len
  (∀ (u : Fin 10) (s : State), let n := s.gorse.kwe.len
    s.OwnsKwe u →
      exec (.kweLoadk u) s = .next (if n = 32 then begun s 1 0 (0, 0, 0) else refused s 1)
      ∧ exec (.kweWrap u) s = .next (if 16 ≤ n ∧ n ≤ 1024 ∧ n % 8 = 0 then begun s 2 0 (0, 0, 0) else refused s 2)
      ∧ exec (.kweUnwrap u) s = .next (if 24 ≤ n ∧ n ≤ 1024 ∧ n % 8 = 0 then begun s 3 0 (0, 0, 0) else refused s 3)
      ∧ exec (.kweWrapp u) s = .next (if 1 ≤ n ∧ n ≤ 1016 then begun s 4 0 (0, 0, 0) else refused s 4)
      ∧ exec (.kweUnwrapp u) s = .next (if 16 ≤ n ∧ n ≤ 1024 ∧ n % 8 = 0 then begun s 5 0 (0, 0, 0) else refused s 5))
  ∧ (∀ (u : Fin 10) (s : State), s.OwnsKwe u → u.val < 8 → s.gorse.kwe.len = 32 → s.gorse.drk = true →
    exec (.kweSeal u) s = .next (begun s 6 0 (0, 0, 0)))
  ∧ (∀ (u : Fin 10) (s : State), s.OwnsKwe u → u.val < 8 → s.gorse.kwe.len = 40 → s.gorse.drk = true →
    exec (.kweLoadPs u) s = .next (begun s 7 0 (0, 0, 0)))
  ∧ (∀ (u : Fin 10) (handle : BitVec 12) (s : State), let c := handle.toNat - 256
    s.OwnsKwe u → u.val < 8 → 256 ≤ handle.toNat → c < 64 → (s.chan c).owner = u →
    s.gorse.kwe.len = 40 → Tab.get none s.gorse.ps u ≠ none → exec (.kweLoadKek u handle) s = .next (begun s 8 handle (c, 0, 0)))
  ∧ (∀ (u : Fin 10) (s : State), s.OwnsKwe u →
    exec (.kweClear u) s = .next (s.updKwe fun x => { x with
      op := 9, handle := 0, key := 0, done := true, err := 0, job := none, din := [], outLen := 0, dout := [] }).kweVector)
  ∧ (∀ (u : Fin 10) (c : Chan) (kdir slot : Byte) (s : State), s.OwnsKwe u → u.val = 8 →
    s.gorse.kwe.len = 0 → Tab.get none s.gorse.kek c ≠ none →
    exec (.kweLineWrap u c kdir slot) s = .next (begun s 10 0 (c, kdir.toNat, slot.toNat)))
  ∧ (∀ (u : Fin 10) (c : Chan) (b : Bool) (s : State), s.OwnsKwe u → u.val = 8 →
    s.gorse.kwe.len = 40 → (b = true ∨ Tab.get none s.gorse.kek c ≠ none) →
    exec (.kweBcastUnwrap u c b) s = .next (begun s 11 0 (c, b.toNat, 3)))
  ∧ (∀ (u : Fin 10) (c : Chan) (handle : BitVec 12) (kdir slot : Byte) (b : Bool) (s : State), ¬ s.OwnsKwe u →
    ∀ i ∈ [Instr.kweLoadk u, .kweWrap u, .kweUnwrap u, .kweWrapp u, .kweUnwrapp u, .kweSeal u, .kweLoadPs u, .kweLoadKek u handle,
      .kweClear u, .kweLineWrap u c kdir slot, .kweBcastUnwrap u c b], exec i s = .next s)
  ∧ (∀ (s : State) (j : Nat × Nat × Nat), s.gorse.kwe.job = some (1, j) → s.gorse.kwe.owner ≠ 8 →
    exec .kweOpDone s = .next (ended (s.updKwe fun x => { x with key := BitVec.ofNat 256 (beVal (input s)) }) []))
  ∧ (∀ (s : State) (j : Nat × Nat × Nat), s.gorse.kwe.job = some (2, j) → s.gorse.kwe.owner ≠ 8 →
    exec .kweOpDone s = .next (ended s (kw s.gorse.kwe.key (input s))))
  ∧ (∀ (s : State) (j : Nat × Nat × Nat), s.gorse.kwe.job = some (3, j) → s.gorse.kwe.owner ≠ 8 →
    exec .kweOpDone s = .next (match kwInv s.gorse.kwe.key (input s) with | some o => ended s o | none => failed s))
  ∧ (∀ (s : State) (j : Nat × Nat × Nat), s.gorse.kwe.job = some (4, j) → s.gorse.kwe.owner ≠ 8 →
    exec .kweOpDone s = .next (ended s (kwp s.gorse.kwe.key (input s))))
  ∧ (∀ (s : State) (j : Nat × Nat × Nat), s.gorse.kwe.job = some (5, j) → s.gorse.kwe.owner ≠ 8 →
    exec .kweOpDone s = .next (match kwpInv s.gorse.kwe.key (input s) with | some o => ended s o | none => failed s))
  ∧ (∀ (s : State) (j : Nat × Nat × Nat), s.gorse.kwe.job = some (6, j) → s.gorse.kwe.owner ≠ 8 →
    exec .kweOpDone s = .next (ended s (kw (sealKey Config.drk s.gorse.kwe.owner) (input s))))
  ∧ (∀ (s : State) (j : Nat × Nat × Nat), let u := s.gorse.kwe.owner
    s.gorse.kwe.job = some (7, j) → u ≠ 8 →
    exec .kweOpDone s = .next (match kwInv (sealKey Config.drk u) (input s) with
      | some o => ended { s with gorse := { s.gorse with ps := Tab.set none s.gorse.ps u (some (BitVec.ofNat 256 (beVal o))) } } []
      | none => failed s))
  ∧ (∀ (s : State) (c a b : Nat) (ps : BitVec 256), s.gorse.kwe.job = some (8, c, a, b) → s.gorse.kwe.owner ≠ 8 →
    Tab.get none s.gorse.ps s.gorse.kwe.owner = some ps →
    exec .kweOpDone s = .next (match kwInv ps (input s) with
      | some o => ended { s with gorse := { s.gorse with kek := Tab.set none s.gorse.kek c (some (BitVec.ofNat 256 (beVal o))) } } []
      | none => failed s))
  ∧ (∀ (s : State), s.gorse.kwe.job = none → exec .kweOpDone s = .next s)

/-- TIME.DOMAIN.BIND binds a domain to a channel or to none, starting its acquisition anew and leaving a large error that still waited for
its confirmation unconfirmed, counted (R320, R322); TIME.DOMAIN.SET stores a domain's servo parameters; TIME.SELECT.SET stores the
selection's parameters and selects anew (R324); each selection leaves the estimate of the uncertainty as R340 says. TIME.RESOLVE ends a
wait for the host, keeping the difference or stepping to the active domain (R326); TIME.SET sets the presented time while neither domain
is LOCKED (R327), the error estimate then beginning at 1 ms (R340); TIME.GET replies with the times, states and corrections (Table 18.9);
TIME.STATS.GET replies with one kind of counters and clears it when asked (R344). Where the spec leaves a choice it is the model's, of log
entries 57, 58, 115, 119. -/
def Obligations.TimeDomainAndPresentedTimeCommandsApply : Prop :=
  (∀ (hd : CmdHdr) (p : List Byte) (s : State), let c : RawCmd := ⟨0x0701, hd, p⟩
    let d := u8 p 0
    let i := u8 p 1
    s.Takes c 0 → p.length = 2 → hd.ep = 0 → d ≤ 1 → (i = 255 ∨ (i < 64 ∧ (s.dom (1 - d)).chan ≠ some i)) →
    exec (.timeDomainBind hd p) s = .next (State.okOf
      (let t := match (s.dom d).large with
         | none => s.taken c
         | some _ => ((s.taken c).updDom d fun x => { x with large := none }).bumpTm d .annOutlier
       let t := t.updDom d fun x => { x with
          chan := if i = 255 then none else some i, ph := if i = 255 then .unbound else .acquiring
          first := i != 255, lastSfc := none, goodRun := 0, badRun := 0, srcHold := false, errs := [] }
       let t := if (s.dom d).ph = .locked then t.bumpTm d .lockLoss else t
       State.keepEstimate (s.taken c) t.reselect) c))
  ∧ (∀ (hd : CmdHdr) (p : List Byte) (s : State), let c : RawCmd := ⟨0x0702, hd, p⟩
    let d := u8 p 0
    s.Takes c 0 → p.length = 24 → hd.ep = 0 → d ≤ 1 → 1 ≤ u32 p 4 → u32 p 4 ≤ 10000 → 1 ≤ u32 p 8 → u32 p 8 ≤ 1000 → 10 ≤ u32 p 12 →
    u32 p 12 ≤ 100000 → 1000 ≤ u32 p 16 → u32 p 16 ≤ 60000 → 100 ≤ u32 p 20 → u32 p 20 ≤ 1000000 → ZeroAt p [(1, 3)] →
    exec (.timeDomainSet hd p) s = .next (State.okOf
      ((s.taken c).updDom d fun x => { x with
        bw := u32 p 4, lockThr := u32 p 8, unlockThr := u32 p 12, annTimeout := u32 p 16, dstep := u32 p 20 }) c))
  ∧ (∀ (hd : CmdHdr) (p : List Byte) (s : State), let c : RawCmd := ⟨0x0703, hd, p⟩
    s.Takes c 0 → p.length = 12 → hd.ep = 0 → u8 p 0 ≤ 2 → u8 p 1 ≤ 1 → u16 p 2 ≤ 3600 → 1 ≤ u32 p 4 → u32 p 4 ≤ 1000 → 1 ≤ u32 p 8 →
    u32 p 8 ≤ 1000000 →
    exec (.timeSelectSet hd p) s = .next (State.okOf
      (State.keepEstimate (s.taken c) (((s.taken c).updTime fun t => { t with
        mode := u8 p 0, preferred := u8 p 1, revert := u16 p 2, slew := u32 p 4, stepThr := u32 p 8 }).reselect)) c))
  ∧ (∀ (hd : CmdHdr) (p : List Byte) (s : State), let c : RawCmd := ⟨0x0704, hd, p⟩
    s.Takes c 0 → p.length = 1 → hd.ep = 0 → u8 p 0 ≤ 1 → s.time.waiting = true →
    exec (.timeResolve hd p) s = .next (State.okOf
      (if u8 p 0 = 0 then (s.taken c).updTime fun t => { t with waiting := false }
       else ((s.taken c).updTime fun t => { t with waiting := false, ofs := 0 }).presentedStep s.presented) c))
  ∧ (∀ (hd : CmdHdr) (p : List Byte) (s : State), let c : RawCmd := ⟨0x0705, hd, p⟩
    s.Takes c 0 → p.length = 12 → hd.ep = 0 → u32 p 6 ≤ 999999999 → (s.dom 0).ph ≠ .locked → (s.dom 1).ph ≠ .locked →
    exec (.timeSet hd p) s = .next (State.okOf
      (((s.taken c).updTime fun t => { t with
        ofs := timeAt p 0 - (s.dom s.time.active).t, held := true, waiting := false, everSet := true
        eBase := 1000000 * nsU, eSince := s.now, eSet := true }).presentedStep s.presented) c))
  ∧ (∀ (hd : CmdHdr) (s : State), let c : RawCmd := ⟨0x0706, hd, []⟩
    let err := fun (d : Nat) => sBytes 4 (((s.dom d).errs.headD 0).tdiv 65536)
    s.Takes c 64 →
    exec (.timeGet hd []) s = .next (State.okOf (s.taken c) c
      (timeBytes s.presented ++ timeBytes (s.dom 0).t ++ timeBytes (s.dom 1).t ++ sBytes 8 (s.time.ofs.tdiv fracU)
        ++ [BitVec.ofNat 8 s.time.active, BitVec.ofNat 8 s.pstate, domStateByte s 0, domStateByte s 1]
        ++ err 0 ++ err 1 ++ sBytes 4 (corrPpm (s.dom 0).corr) ++ sBytes 4 (corrPpm (s.dom 1).corr))))
  ∧ (∀ (hd : CmdHdr) (p : List Byte) (s : State), let c : RawCmd := ⟨0x0707, hd, p⟩
    let i := u8 p 1
    s.Takes c 96 → p.length = 3 → hd.ep = 0 → u8 p 0 = 0 → i ≤ 1 → u8 p 2 ≤ 1 →
    exec (.timeStatsGet hd p) s = .next (State.okOf
      (if u8 p 2 = 1 then (s.taken c).updDom i fun x => { x with ctr := [] } else s.taken c) c
      ((List.range 12).flatMap fun j => leBytes 8 ((s.dom i).ctr.get j))))
  ∧ (∀ (hd : CmdHdr) (p : List Byte) (s : State), let c : RawCmd := ⟨0x0707, hd, p⟩
    let i := u8 p 1
    s.Takes c 16 → p.length = 3 → u8 p 0 = 1 → i ≤ 7 → (s.trig i).owner = hd.ep → u8 p 2 ≤ 1 →
    exec (.timeStatsGet hd p) s = .next (State.okOf
      (if u8 p 2 = 1 then (s.taken c).updTrig i fun x => { x with ctrSkipped := 0, ctrFree := 0 } else s.taken c) c
      (leBytes 8 (s.trig i).ctrSkipped ++ leBytes 8 (s.trig i).ctrFree)))
  ∧ (∀ (hd : CmdHdr) (p : List Byte) (s : State), let c : RawCmd := ⟨0x0707, hd, p⟩
    let i := u8 p 1
    s.Takes c 8 → p.length = 3 → u8 p 0 = 2 → i ≤ 3 → (s.capt i).owner = hd.ep → u8 p 2 ≤ 1 →
    exec (.timeStatsGet hd p) s = .next (State.okOf
      (if u8 p 2 = 1 then (s.taken c).updCapt i fun x => { x with overflow := 0 } else s.taken c) c (leBytes 8 (s.capt i).overflow)))
  ∧ (∀ (hd : CmdHdr) (p : List Byte) (s : State), let c : RawCmd := ⟨0x0707, hd, p⟩
    let k := hd.ep.val
    s.Takes c 8 → p.length = 3 → u8 p 0 = 3 → u8 p 1 = k → u8 p 2 ≤ 1 →
    exec (.timeStatsGet hd p) s = .next (State.okOf
      (if u8 p 2 = 1 then (s.taken c).updEp k fun e => { e with ts := { e.ts with lost := 0 } } else s.taken c) c
      (leBytes 8 (s.ep k).ts.lost)))
  ∧ (∀ (hd : CmdHdr) (p : List Byte) (s : State), let c : RawCmd := ⟨0x0707, hd, p⟩
    let i := u8 p 1
    s.Takes c 16 → p.length = 3 → u8 p 0 = 4 → s.macOwner i = hd.ep → u8 p 2 ≤ 1 →
    exec (.timeStatsGet hd p) s = .next (State.okOf
      (if u8 p 2 = 1 then (s.taken c).updMac i fun x => { x with gateDrops := 0, gateSwitches := 0 } else s.taken c) c
      (leBytes 8 (s.mac i).gateDrops ++ leBytes 8 (s.mac i).gateSwitches)))

/-- PPS.SET, TOD.SET, TRIG.SET and CAPT.SET store what their payload names and give their output pin its configured state (R329, R331,
R332, R335, R460); a trigger with a time of its own starts afresh from its next pulse, after one in progress (R332, R333; the model's
reading of log entry 117). PTP.PORT.SET, PTP.SOURCE.SET, TS.RING.SET and GATE.SET store what their payload names, a gate list for the
first cycle start at least 2 µs ahead (R342); GATE.GET replies with the running and the pending list. -/
def Obligations.TimeOutputAndGateCommandsApply : Prop :=
  (∀ (hd : CmdHdr) (p : List Byte) (s : State), let c : RawCmd := ⟨0x0708, hd, p⟩
    s.Takes c 0 → p.length = 8 → hd.ep = 0 → u8 p 0 ≤ 1 → u8 p 1 ≤ 1 → u8 p 2 ≤ 2 → 1 ≤ u32 p 4 → u32 p 4 ≤ 500000 → ZeroAt p [(3, 1)] →
    exec (.ppsSet hd p) s = .next (State.okOf
      (((s.taken c).updTime fun t => { t with ppsEn := u8 p 0 == 1, ppsPol := u8 p 1, ppsSquelch := u8 p 2, ppsWidth := u32 p 4 }).setPin
        0 4) c))
  ∧ (∀ (hd : CmdHdr) (p : List Byte) (s : State), let c : RawCmd := ⟨0x0709, hd, p⟩
    s.Takes c 0 → p.length = 8 → hd.ep = 0 → u8 p 0 ≤ 1 → u8 p 1 ≤ 2 → u8 p 4 ≤ 3 → ZeroAt p [(5, 3)] →
    exec (.todSet hd p) s = .next (State.okOf
      (((s.taken c).updTime fun t => { t with
        todEn := u8 p 0 == 1, todRate := u8 p 1, utcOfs := BitVec.ofNat 16 (u16 p 2), leap := BitVec.ofNat 8 (u8 p 4) }).setPin 1 4) c))
  ∧ (∀ (hd : CmdHdr) (p : List Byte) (s : State), let c : RawCmd := ⟨0x070A, hd, p⟩
    let i := u8 p 0
    let mode := u8 p 1
    let per := u64 p 16
    let w := u64 p 24
    s.Takes c 0 → p.length = 44 → i ≤ 7 → (s.trig i).owner = hd.ep → mode ≤ 1 → u8 p 2 ≤ 1 → u8 p 3 = 255 →
    u32 p 10 ≤ 999999999 → (per = 0 ∨ (655360 ≤ w ∧ if mode = 0 then w ≤ 32768000000000
      else 65536000 ≤ per ∧ per ≤ 65536000000000 ∧ w + 655360 ≤ per)) →
    exec (.trigSet hd p) s = .next (State.okOf
      ((((s.taken c).updTrig i fun x =>
          { owner := x.owner, mode, pol := u8 p 2, chan := 255, start := timeAt p 4, period := per, width := w, count := u32 p 32
            offset := u64 p 36, pulse := x.pulse, ctrSkipped := x.ctrSkipped, ctrFree := x.ctrFree }).setPin (2 + i) 4).updTrig i
        fun x => x.resume true (s.presented + psT (match (s.trig i).pulse with | some (fin, _) => fin - s.now | none => 0))) c))
  ∧ (∀ (hd : CmdHdr) (p : List Byte) (s : State), let c : RawCmd := ⟨0x070A, hd, p⟩
    let i := u8 p 0
    let per := u64 p 16
    let w := u64 p 24
    let n := (65536000000 + per / 2) / per
    s.Takes c 0 → p.length = 44 → i ≤ 7 → (s.trig i).owner = hd.ep → u8 p 1 = 2 → (s.chan (u8 p 3)).owner = hd.ep → u8 p 2 ≤ 1 →
    u8 p 3 < 64 → u32 p 10 ≤ 999999999 → (per = 0 ∨ (1 ≤ n ∧ n ≤ 1000 ∧ per * n ≤ 65536000000 + n ∧ 65536000000 ≤ per * n + n
      ∧ 65536000 ≤ per ∧ per ≤ 65536000000000 ∧ 655360 ≤ w ∧ w + 655360 ≤ per ∧ u64 p 36 < per)) →
    exec (.trigSet hd p) s = .next (State.okOf
      (((s.taken c).updTrig i fun x =>
          { owner := x.owner, mode := 2, pol := u8 p 2, chan := u8 p 3, start := timeAt p 4, period := per, width := w, count := u32 p 32
            offset := u64 p 36, pulse := x.pulse, ctrSkipped := x.ctrSkipped, ctrFree := x.ctrFree }).setPin (2 + i) 4) c))
  ∧ (∀ (hd : CmdHdr) (p : List Byte) (s : State), let c : RawCmd := ⟨0x070B, hd, p⟩
    let i := u8 p 0
    s.Takes c 0 → p.length = 3 → i ≤ 3 → (s.capt i).owner = hd.ep → u8 p 1 ≤ 1 → u8 p 2 ≤ 2 →
    exec (.captSet hd p) s = .next (State.okOf ((s.taken c).updCapt i fun x => { x with en := u8 p 1 == 1, edge := u8 p 2 }) c))
  ∧ (∀ (hd : CmdHdr) (p : List Byte) (s : State), let c : RawCmd := ⟨0x070C, hd, p⟩
    let m := u8 p 0
    s.Takes c 0 → p.length = 12 → s.macOwner m = hd.ep → u8 p 1 ≤ 2 → -65536 ≤ i32 p 4 → i32 p 4 ≤ 65535 → -65536 ≤ i32 p 8 →
    i32 p 8 ≤ 65535 → ZeroAt p [(2, 2)] → (u8 p 1 = 2 ∨ ∀ y ∈ s.time.ptp, y.2.en = true → y.2.mac ≠ m) →
    exec (.ptpPortSet hd p) s = .next (State.okOf
      ((s.taken c).updMac m fun x => { x with tsMode := u8 p 1, txAdj := i32 p 4, rxAdj := i32 p 8 }) c))
  ∧ (∀ (hd : CmdHdr) (p : List Byte) (s : State), let c : RawCmd := ⟨0x070D, hd, p⟩
    let i := u8 p 0
    s.Takes c 0 → p.length = 12 → hd.ep = 0 → i ≤ 63 → u8 p 1 ≤ 1 → -7 ≤ i8 p 4 → i8 p 4 ≤ 0 → -3 ≤ i8 p 5 → i8 p 5 ≤ 3 → u8 p 6 ≤ 1 →
    ZeroAt p [(7, 1)] → (u8 p 1 = 0 ∨ (s.mac (u8 p 2)).tsMode = 2) →
    exec (.ptpSourceSet hd p) s = .next (State.okOf
      ((s.taken c).updPtp i fun x => { x with
        en := u8 p 1 == 1, mac := u8 p 2, domain := u8 p 3, logSync := i8 p 4, logAnn := i8 p 5, udp := u8 p 6 == 1
        ip := BitVec.ofNat 32 (beVal (slice p 8 4)) }) c))
  ∧ (∀ (hd : CmdHdr) (p : List Byte) (s : State), let c : RawCmd := ⟨0x070E, hd, p⟩
    s.Takes c 0 → p.length = 12 → u64 p 0 % 4096 = 0 → (u64 p 0 = 0 ∨ (8 ≤ u8 p 8 ∧ u8 p 8 ≤ 20)) → u8 p 9 ≤ 15 → ZeroAt p [(10, 2)] →
    exec (.tsRingSet hd p) s = .next (State.okOf
      ((s.taken c).updEp hd.ep fun e => { e with ts := { e.ts with base := u64 p 0, log2 := u8 p 8, vec := u8 p 9, pi := 0, ci := 0 } }) c))
  ∧ (∀ (hd : CmdHdr) (p : List Byte) (s : State), let c : RawCmd := ⟨0x070F, hd, p⟩
    let m := u8 p 0
    let n := u16 p 2
    s.Takes c 0 → n ≤ 256 → p.length = 20 + 8 * n → s.macOwner m = hd.ep → u32 p 10 ≤ 999999999 → 1000 ≤ u32 p 16 →
    (∀ i < n, 64 ≤ u32 p (24 + 8 * i)) → ZeroAt p ((1, 1) :: (List.range n).map fun i => (21 + 8 * i, 3)) →
    exec (.gateSet hd p) s = .next (State.okOf
      ((s.taken c).updMac m fun x => { x with
        gateNext := some (gateFrom p, switchInstant s.presented (timeAt p 4) (u32 p 16)) }) c))
  ∧ (∀ (hd : CmdHdr) (p : List Byte) (s : State), let c : RawCmd := ⟨0x0710, hd, p⟩
    let m := u8 p 0
    let x := s.mac m
    let run := gateBytes m x.gate
    let reply := leBytes 4 run.length ++ run ++ (match x.gateNext with
      | some (g, t) => timeBytes t ++ gateBytes m g
      | none => zeros 12 ++ gateBytes m none)
    s.Takes c reply.length → p.length = 1 → s.macOwner m = hd.ep →
    exec (.gateGet hd p) s = .next (State.okOf (s.taken c) c reply))

/-- A domain whose bound channel gives no announce for ANN_TIMEOUT loses its source and its current announce (R323), and one bound to no
channel is left alone; a preferred domain that has held the top rank for REVERT becomes the active one, and otherwise nothing changes
(R324); a pending gate list replaces the running one at its switch instant, its first entry's gates open, and the waiting head frames are
tested against it (R342, R343); a running list's next entry begins, the first after the last (R341). Where the spec leaves a choice it is
the model's, of log entries 4, 118. -/
def Obligations.TimeSourcesAndGateListsMoveOn : Prop :=
  (∀ (d : DomId) (s : State) (c : Nat), (s.dom d).chan = some c →
    exec (.annTimeout d) s = .next ((s.updTc c fun t => { t with announceCur := none }).loseSource d))
  ∧ (∀ (d : DomId) (s : State), (s.dom d).chan = none → exec (.annTimeout d) s = .next s)
  ∧ (∀ (s : State), let p := s.time.preferred
    exec .revertExpiry s = .next (
      if s.time.mode = 2 ∧ s.time.revert ≠ 0 ∧ s.time.active ≠ p ∧ 0 < s.rank p ∧ s.rank (1 - p) ≤ s.rank p
      then State.keepEstimate s (s.setActive p) else s))
  ∧ (∀ (m : Mac) (s : State) (g : Option GateList) (at_ : TimeVal), (s.mac m).gateNext = some (g, at_) →
    exec (.gateSwitch m) s = .next (
      let mask := match g with
        | some l => (l.entries.getD 0 (0xFF, 0)).1
        | none => 0xFF
      (List.range 8).foldl (fun t k => t.settleHeads (State.egressQ m k)) (s.updMac m fun x => { x with
        gate := g, gateNext := none, gateIdx := 0, gateMask := mask, gateSwitches := min (x.gateSwitches + 1) ctrMax })))
  ∧ (∀ (m : Mac) (s : State), (s.mac m).gateNext = none → exec (.gateSwitch m) s = .next s)
  ∧ (∀ (m : Mac) (s : State) (g : GateList),
    let i := if (s.mac m).gateIdx + 1 < g.count then (s.mac m).gateIdx + 1 else 0
    (s.mac m).gate = some g → (s.mac m).gateIdx < g.count →
    exec (.gateEntryStart m) s = .next (s.updMac m fun x => { x with gateIdx := i, gateMask := (g.entries.getD i (0xFF, 0)).1 }))
  ∧ (∀ (m : Mac) (s : State), (s.mac m).gate = none → exec (.gateEntryStart m) s = .next s)

/-- PPS_OUT gives its pulse, WIDTH long from the whole presented second, while it is enabled and not squelched (R329); TOD_OUT sends the
message of Table 9.4 in UART frames (R331); a trigger with a time of its own, or one whose channel is aligned, gives the next pulse of its
schedule, WIDTH long and both edges on the output grid, if it has one (R332 to R334); a capture pin stamps an edge it is set to take, and
counts one for which its buffer of 64 is full (R335); a running source instance sends Sync and Announce through class 7 of its MAC, the
sequence number one up each time (R339, R340). Where the spec leaves a choice it is the model's, of log entries 11, 57, 59, 60, 61, 62,
117, 120. -/
def Obligations.TimeOutputsAndCapturesAct : Prop :=
  (∀ (s : State), let t : TimeVal := s.presented.ediv secU * secU
    let quiet := (s.time.ppsSquelch = 1 ∧ s.pstate = 3) ∨ (s.time.ppsSquelch = 2 ∧ 2 ≤ s.pstate)
    let width := 1000000 * s.time.ppsWidth
    s.time.ppsSquelch ≤ 2 →
    exec .ppsEdge s = .next (
      if s.time.ppsEn = true ∧ ¬ quiet then
        (s.updTime fun x => { x with ppsSec := some t.sec, ppsEnd := s.now + width }).emit (.pps t (t + psT width) (s.time.ppsPol == 0))
      else s.updTime fun x => { x with ppsSec := some t.sec }))
  ∧ (∀ (s : State), let bits := s.todBytes.flatMap fun b => false :: (List.range 8).map b.getLsbD ++ [true]
    exec .todMessage s = .next ((if s.time.todEn then s.emit (.tod s.todBaud bits) else s).updTime fun t => { t with
      steppedLast := false, ppsSec := none }))
  ∧ (∀ (i : Fin 8) (s : State) (t : TimeVal), let x := s.trig i
    let fin := onGrid (t + x.width * fracU)
    (x.mode ≠ 2 ∨ (s.operating x.chan = true ∧ s.synced x.chan = true) ∨ (s.chan x.chan).tc.st = .doze) → x.next = some t →
    exec (.triggerPulse i) s = .next (
      (s.updTrig i fun x => { x with
        idx := x.idx + 1, sub := x.sub + 1, done := x.done + 1, pulse := some (s.edgeAt fin, x.pol == 0) }).emit
        (.trig i (onGrid t) fin (x.pol == 0))))
  ∧ (∀ (i : Fin 8) (s : State), (s.trig i).mode ≠ 2 → (s.trig i).next = none → exec (.triggerPulse i) s = .next s)
  ∧ (∀ (i : Fin 4) (rising : Bool) (off : Nat) (s : State), (s.capt i).en = true →
    ((s.capt i).edge = 2 ∨ (s.capt i).edge = (if rising then 0 else 1)) → (s.capt i).pend.length < 64 →
    exec (.captureEdge i rising off) s = .next (s.updCapt i fun x => { x with
      pend := x.pend ++ [{ rising, t := s.presentedAt (5 * off), pstate := s.pstate, unsure := s.time.ofs != 0 }] }))
  ∧ (∀ (i : Fin 4) (rising : Bool) (off : Nat) (s : State), (s.capt i).en = true →
    ((s.capt i).edge = 2 ∨ (s.capt i).edge = (if rising then 0 else 1)) → 64 ≤ (s.capt i).pend.length →
    exec (.captureEdge i rising off) s = .next (s.updCapt i fun x => { x with overflow := min (x.overflow + 1) ctrMax }))
  ∧ (∀ (i : Fin 4) (rising : Bool) (off : Nat) (s : State), (s.capt i).en = false → exec (.captureEdge i rising off) s = .next s)
  ∧ (∀ (i : Fin 64) (s : State), let x := s.ptp i
    let msg := State.ptpHeader x 0 44 x.syncSeq.toNat 0 x.logSync ++ zeros 10
    s.ptpRuns i = true →
    exec (.ptpSyncSend i) s = .next ((s.updPtp i fun x => { x with syncSeq := x.syncSeq + 1 }).enqueue (State.egressQ x.mac 7)
      (State.builtFrame ((s.updPtp i fun x => { x with syncSeq := x.syncSeq + 1 }).ptpFrame x true msg) none)))
  ∧ (∀ (i : Fin 64) (s : State), s.ptpRuns i = true →
    ∃ t msg, exec (.ptpAnnounceSend i) s = .next t
      ∧ t = (s.updPtp i fun x => { x with annSeq := x.annSeq + 1 }).enqueue (State.egressQ (s.ptp i).mac 7)
          (State.builtFrame ((s.updPtp i fun x => { x with annSeq := x.annSeq + 1 }).ptpFrame (s.ptp i) false msg) none)
      ∧ msg.length = 64 ∧ u8 msg 0 = 11 ∧ u8 msg 48 = s.clockClass ∧ u8 msg 49 = s.accCode % 256)
  ∧ (∀ (i : Fin 64) (s : State), s.ptpRuns i = false →
    exec (.ptpSyncSend i) s = .next s ∧ exec (.ptpAnnounceSend i) s = .next s)

/-- TRIB.ALLOC.SET binds an allocation without member queues, TRIB.STREAM.SET stores a stream's configuration, TRIB.CONN.SET writes
entries of a page of the connection table that no channel they name uses or has armed (R350 to R352), TRIB.PAGE.ARM arms a page whose
entries are consistent (R353), TRIB.PAGE.DISARM ends that; the tributary unit is then powered while something uses it. TRIB.CONN.GET
replies with entries of the connection table, TRIB.STATS.GET with the counters of a channel or a stream and ODC.STATS.GET with a channel's
ODC counters, cleared when asked (Table 10.7); ODC.PORT.SET enables or disables an ODC port and gives its three pins their configured
state (R358, R460). Where the spec leaves a choice it is the model's, of log entries 63, 64. -/
def Obligations.TributaryCommandsApply : Prop :=
  (∀ (hd : CmdHdr) (p : List Byte) (s : State), let c : RawCmd := ⟨0x0801, hd, p⟩
    let i := u8 p 0
    let a := u8 p 1
    let b := bindAt p
    s.Takes c 0 → (s.pdom 217).inReset = false → p.length = 6 → i < 64 → (s.chan i).owner = hd.ep → 1 ≤ a → a ≤ 63 → u8 p 2 ≤ 2 →
    (u8 p 2 = 1 → 1 ≤ u8 p 3 ∧ u8 p 3 ≤ 64 ∧ u16 p 4 + u8 p 3 ≤ 2048) →
    (∀ o ∈ (s.chan i).trib.binds, o.1 ≠ a → b.clash o.2 = false) → s.members i a = [] →
    exec (.tribAllocSet hd p) s = .next (State.okOf
      ((s.taken c).updTrib i fun t => { t with binds := Tab.set .none t.binds a b }).tribPower c))
  ∧ (∀ (hd : CmdHdr) (p : List Byte) (s : State), let c : RawCmd := ⟨0x0802, hd, p⟩
    let i := u16 p 0
    let x := s.stream i
    let y : StreamSt := { x with
      en := u8 p 2 == 1, up := u8 p 3 == 1, chan := u8 p 4, partSlots := u8 p 5, slots := u16 p 6, mac := u8 p 8, cls := u8 p 9
      etype := BitVec.ofNat 16 (u16 p 10), da := BitVec.ofNat 48 (beVal (slice p 12 6))
      vlan := if bitAt p 18 0 then some (BitVec.ofNat 16 (u16 p 20)) else none, parts := [] }
    s.Takes c 0 → (s.pdom 217).inReset = false → p.length = 24 → i < 4096 → u8 p 2 ≤ 1 → u8 p 3 ≤ 1 → u8 p 4 < 64 → 1 ≤ u8 p 5 →
    u8 p 5 ≤ 7 → 1 ≤ u16 p 6 → u16 p 6 ≤ 2048 → u8 p 9 ≤ 7 → 0x0600 ≤ u16 p 10 → u8 p 18 ≤ 1 → ZeroAt p [(19, 1), (22, 2)] →
    s.macOwner (u8 p 8) = hd.ep → (s.chan (u8 p 4)).owner = hd.ep →
    (x.en = false ∨ (s.macOwner x.mac = hd.ep ∧ (s.chan x.chan).owner = hd.ep ∧ x.up = y.up ∧ x.chan = y.chan
      ∧ x.partSlots = y.partSlots ∧ x.slots = y.slots ∧ x.mac = y.mac ∧ x.etype = y.etype)) →
    exec (.tribStreamSet hd p) s = .next (State.okOf
      ((s.taken c).updStream i fun x => { y with parts := if x.en && y.en then x.parts else [] }).tribPower c))
  ∧ (∀ (hd : CmdHdr) (p : List Byte) (s : State), let c : RawCmd := ⟨0x0803, hd, p⟩
    let k := hd.ep.val
    let page := u8 p 0 == 1
    let first := u32 p 4
    let n := u16 p 8
    let es := (List.range n).map fun i => (first + i, connAt p i)
    s.Takes c 0 → (s.pdom 217).inReset = false → 1 ≤ n → n ≤ 8190 → p.length = 16 + 8 * n → u8 p 0 ≤ 1 → ZeroAt p [(1, 3), (10, 6)] →
    (∀ f ∈ connRsvBad p n, f.1 = false) → first + n ≤ s.quota k 4 →
    (∀ e ∈ es, connValid e.2 = true → (s.chan (connChan e.2)).owner = k
      ∧ ((s.stream (connStream e.2)).en = true → s.macOwner (s.stream (connStream e.2)).mac = k)) →
    (∀ e ∈ es, s.connBars page e.2 = false ∧ s.connBars page (Tab.get 0 s.trib.conn (connIdx page k e.1)) = false) →
    exec (.tribConnSet hd p) s = .next (State.okOf
      ({ s.taken c with trib := { s.trib with
          conn := es.foldl (fun t e => Tab.set 0 t (connIdx page k e.1) e.2) s.trib.conn } } : State).tribPower c))
  ∧ (∀ (hd : CmdHdr) (p : List Byte) (s : State), let c : RawCmd := ⟨0x0805, hd, p⟩
    let i := u8 p 0
    s.Takes c 0 → (s.pdom 217).inReset = false → p.length = 1 → i < 64 → (s.chan i).owner = hd.ep →
    s.firstInconsistent i (!(s.chan i).trib.page) = none →
    exec (.tribPageArm hd p) s = .next (State.okOf
      (if (s.chan i).trib.armed then s.taken c else (s.taken c).updTrib i fun t => { t with armed := true, seen := 0 }) c))
  ∧ (∀ (hd : CmdHdr) (p : List Byte) (s : State), let c : RawCmd := ⟨0x0806, hd, p⟩
    let i := u8 p 0
    s.Takes c 0 → (s.pdom 217).inReset = false → p.length = 1 → i < 64 → (s.chan i).owner = hd.ep →
    exec (.tribPageDisarm hd p) s = .next (State.okOf ((s.taken c).updTrib i fun t => { t with armed := false }) c))
  ∧ (∀ (hd : CmdHdr) (p : List Byte) (s : State), let c : RawCmd := ⟨0x0804, hd, p⟩
    let k := hd.ep.val
    let first := u32 p 4
    let n := u16 p 8
    let reply := (List.range n).flatMap fun i => leBytes 8 (Tab.get 0 s.trib.conn (connIdx (u8 p 0 == 1) k (first + i))).toNat
    s.Takes c reply.length → (s.pdom 217).inReset = false → p.length = 10 → u8 p 0 ≤ 1 → ZeroAt p [(1, 3)] → 1 ≤ n → n ≤ 8192 →
    first + n ≤ s.quota k 4 →
    exec (.tribConnGet hd p) s = .next (State.okOf (s.taken c) c reply))
  ∧ (∀ (hd : CmdHdr) (p : List Byte) (s : State), let c : RawCmd := ⟨0x0807, hd, p⟩
    let i := u16 p 2
    s.Takes c 88 → (s.pdom 217).inReset = false → p.length = 5 → u8 p 0 = 0 → ZeroAt p [(1, 1)] → i < 64 → (s.chan i).owner = hd.ep →
    u8 p 4 ≤ 1 →
    exec (.tribStatsGet hd p) s = .next (State.okOf
      (if u8 p 4 = 1 then (s.taken c).updTrib i fun t => { t with ctr := t.ctr.filter fun e => decide (11 ≤ e.1) } else s.taken c) c
      ((List.range 11).flatMap fun j => leBytes 8 ((s.chan i).trib.ctr.get j))))
  ∧ (∀ (hd : CmdHdr) (p : List Byte) (s : State), let c : RawCmd := ⟨0x0807, hd, p⟩
    let i := u16 p 2
    s.Takes c 56 → (s.pdom 217).inReset = false → p.length = 5 → u8 p 0 = 1 → ZeroAt p [(1, 1)] → i < 4096 →
    s.macOwner (s.stream i).mac = hd.ep → u8 p 4 ≤ 1 →
    exec (.tribStatsGet hd p) s = .next (State.okOf
      (if u8 p 4 = 1 then (s.taken c).updStream i fun x => { x with ctr := [] } else s.taken c) c
      ((List.range 7).flatMap fun j => leBytes 8 ((s.stream i).ctr.get j))))
  ∧ (∀ (hd : CmdHdr) (p : List Byte) (s : State), let c : RawCmd := ⟨0x0808, hd, p⟩
    let i := u8 p 0
    let t := (((s.taken c).setPin (10 + 3 * i) 4).setPin (11 + 3 * i) 4).setPin (12 + 3 * i) 4
    s.Takes c 0 → (s.pdom 217).inReset = false → p.length = 2 → hd.ep = 0 → i ≤ 7 → u8 p 1 ≤ 1 →
    exec (.odcPortSet hd p) s = .next (State.okOf
      ({ t with trib := { t.trib with odcOn := Tab.set false t.trib.odcOn i (u8 p 1 == 1) } } : State).tribPower c))
  ∧ (∀ (hd : CmdHdr) (p : List Byte) (s : State), let c : RawCmd := ⟨0x0809, hd, p⟩
    let i := u8 p 0
    s.Takes c 24 → (s.pdom 217).inReset = false → p.length = 2 → i < 64 → (s.chan i).owner = hd.ep → u8 p 1 ≤ 1 →
    exec (.odcStatsGet hd p) s = .next (State.okOf
      (if u8 p 1 = 1 then (s.taken c).updTrib i fun t => { t with ctr := t.ctr.filter fun e => decide (e.1 < 11 ∨ 14 ≤ e.1) }
       else s.taken c) c ((List.range 3).flatMap fun j => leBytes 8 ((s.chan i).trib.ctr.get (11 + j)))))

/-- The parts of a whole multiframe are enqueued with its slots, those of a channel that does not operate or is not aligned every 1 ms
with every slot missing (R360), and with the tributary unit absent none, the slots of a whole multiframe counted missing (R457). An
upstream part that a test of R361 fails is counted, one that passes is stored for its multiframe, and one that no stream takes from this
MAC is left alone. A port frame of an enabled ODC port takes each channel's first frame that is 2 µs old, zero bytes where there is none,
and gives each bound channel its 64 bytes (R363 to R365). Where the spec leaves a choice it is the model's, of log entries 29, 63, 65. -/
def Obligations.TributaryAndOdcFramesAreMoved : Prop :=
  (∀ (c : Chan) (s : State) (w : WholeMf), s.alive 217 = true → (s.chan c).trib.whole = some w →
    exec (.tribPartsEnqueue c) s = .next ((s.updTrib c fun t => { t with whole := none }).enqueueParts c w false))
  ∧ (∀ (c : Chan) (s : State), let t := (s.chan c).trib
    s.alive 217 = true → t.whole = none → t.begun = true → ((s.chan c).rx.aligned = false ∨ s.operating c = false) →
    exec (.tribPartsEnqueue c) s = .next ((s.updTrib c fun t => { t with
        tseq := t.tseq + 1, boundary := t.boundary.map (· + psT 1000000000), free := true, dsSlots := [] }).enqueueParts c
        { num := t.tseq, page := t.page, at_ := t.boundary, slots := [] } true))
  ∧ (∀ (c : Chan) (s : State), (s.chan c).trib.whole = none →
    (s.alive 217 = false ∨ (s.chan c).trib.begun = false ∨ ((s.chan c).rx.aligned = true ∧ s.operating c = true)) →
    exec (.tribPartsEnqueue c) s = .next s)
  ∧ (∀ (c : Chan) (s : State) (w : WholeMf), let n := s.missingOf c { w with slots := [] }
    s.alive 217 = false → (s.chan c).trib.whole = some w →
    exec (.tribPartsEnqueue c) s = .next
      (((s.updTrib c fun t => { t with whole := none }).bumpTrib c .dsMissing n).absentResponse 217 n))
  ∧ (∀ (m : Mac) (f : TribFrame) (s : State) (k : StreamCtr), s.tribAccepts m f = true → s.alive 217 = true →
    s.tribFrameTest (s.stream f.stream.toNat) f = some k → exec (.tributaryFrameRx m f) s = .next (s.bumpStream f.stream.toNat k))
  ∧ (∀ (m : Mac) (f : TribFrame) (s : State), let i := f.stream.toNat
    s.tribAccepts m f = true → s.alive 217 = true → s.tribFrameTest (s.stream i) f = none →
    (∀ q ∈ (s.stream i).parts,
      (s.tdsOf (s.stream i).chan (q.1 ++ (0 : BitVec 3))).all (fun t => decide ((s.now : Int) ≤ t + 4000000000)) = true) →
    exec (.tributaryFrameRx m f) s = .next ((s.updStream i fun x => { x with
      parts := x.parts ++ [(f.tseq, f.part.toNat, f.missing, f.payload)] }).bumpStream i .rxFrames))
  ∧ (∀ (m : Mac) (f : TribFrame) (s : State), let i := f.stream.toNat
    s.tribAccepts m f = true → s.alive 217 = true → s.tribFrameTest (s.stream i) f = none →
    ∃ t, exec (.tributaryFrameRx m f) s = .next t ∧ (f.tseq, f.part.toNat, f.missing, f.payload) ∈ (t.stream i).parts)
  ∧ (∀ (m : Mac) (f : TribFrame) (s : State), (s.tribAccepts m f = false ∨ s.alive 217 = false) →
    exec (.tributaryFrameRx m f) s = .next s)
  ∧ (∀ (k : Fin 8) (di : List Byte) (s : State),
    let ripe := fun (c : Nat) => (s.chan c).trib.odcQ.head?.any fun f => decide (f.1 + 2000000 ≤ s.now)
    let taken := fun (c : Nat) => if ripe c then Machine.slice (((s.chan c).trib.odcQ.headD (0, [])).2) 0 64 else zeros 64
    Tab.get false s.trib.odcOn k = true → s.alive 217 = true →
    ∃ t, exec (.odcPortFrame k di) s = .next t
      ∧ t.out = s.out ++ [.odc k ((List.range 8).flatMap fun j => taken (8 * k + j))]
      ∧ ∀ j < 8, let c := 8 * k + j
          (t.chan c).trib.odcQ = (if ripe c then (s.chan c).trib.odcQ.tail else (s.chan c).trib.odcQ)
          ∧ ((∃ b ∈ (s.chan c).trib.binds, b.2 = .odc) → (t.chan c).trib.odcUs = some (Machine.slice di (64 * j) 64)))
  ∧ (∀ (k : Fin 8) (di : List Byte) (s : State), (Tab.get false s.trib.odcOn k = false ∨ s.alive 217 = false) →
    exec (.odcPortFrame k di) s = .next s)

/-- A frame received on a running MAC is counted once by the first check of R372 that it fails, and one that passes goes to the slice with
its time stamped (R206, R337, R339), or is a MAC control frame (R376), or a tributary frame (R361); a MAC that does not run receives
nothing (R371). An idle MAC that runs takes the head frame of its highest eligible class, pads and stamps it and sends it, the counters of
Table 11.4 following; a frame with a cell error goes out with a bad FCS (R182, R273, R373, R375). A MAC that still sends, or does not run,
takes none, and one with nothing eligible only settles its heads (R343). Where the spec leaves a choice it is the model's, of log entries
62, 67, 102, 105, 118, 120. -/
def Obligations.HostFramesMove : Prop :=
  (∀ (m : Mac) (f : HostFrame) (s : State) (k : Nat), s.macRuns m = true → s.rxCheck m f = some k →
    exec (.hostFrameReceived m f) s = .next (s.bumpMac m k))
  ∧ (∀ (m : Mac) (f : HostFrame) (s : State),
    let t := ((s.bumpMac m 0).bumpMac m 1 (f.bytes.length + 4)).bumpMac m (2 + destKind f.bytes)
    s.macRuns m = true → s.rxCheck m f = none → beVal (Machine.slice f.bytes 12 2) ≠ 0x8808 →
    exec (.hostFrameReceived m f) s = .next (
      if t.tribAccepts m (tribOf f.bytes) then t.doTribFrame m (tribOf f.bytes)
      else ((t.stampRx m f.bytes f.off100).answerDelayReq m f.bytes f.off100).classifyHost m f.bytes))
  ∧ (∀ (m : Mac) (f : HostFrame) (s : State), s.macRuns m = true → s.rxCheck m f = none → beVal (Machine.slice f.bytes 12 2) = 0x8808 →
    exec (.hostFrameReceived m f) s = .next (s.macControl m f.bytes))
  ∧ (∀ (m : Mac) (f : HostFrame) (s : State), s.macRuns m = false → exec (.hostFrameReceived m f) s = .next s)
  ∧ (∀ (m : Mac) (cellErr : Bool) (off : Nat) (s : State) (k : Nat) (f : Frame), let q := State.egressQ m k
    let u := (List.range 8).foldl (fun t k => t.settleHeads (State.egressQ m k)) s
    let v := (((u.askBanks (84 + m / 8) f.cells).takeOut q (fun h => h.id == f.id) (State.countDeq q)).occupy m (State.wireLen f)
      (s.now + 100 * off)).stampTx m (f.bytes ++ zeros (60 - f.len)) off
    let w := v.2.emit (.hostTx m v.1 (!cellErr && !f.bad))
    s.macRuns m = true → (s.mac m).txEnd ≤ s.now + 100 * off → u.nextClass m off = some (k, f) →
    exec (.egressFrameTake m ⟨cellErr, off⟩) s = .next (
      if f.bad = true then w.bumpMac m 25
      else if cellErr = true then (w.bumpMem .bufEccUncorr).bumpMac m 25
      else ((w.bumpMac m 20).bumpMac m 21 (v.1.length + 4)).bumpMac m (22 + destKind v.1)))
  ∧ (∀ (m : Mac) (cellErr : Bool) (off : Nat) (s : State),
    let u := (List.range 8).foldl (fun t k => t.settleHeads (State.egressQ m k)) s
    s.macRuns m = true → (s.mac m).txEnd ≤ s.now + 100 * off → u.nextClass m off = none →
    exec (.egressFrameTake m ⟨cellErr, off⟩) s = .next u)
  ∧ (∀ (m : Mac) (cellErr : Bool) (off : Nat) (s : State), (s.macRuns m = false ∨ s.now + 100 * off < (s.mac m).txEnd) →
    exec (.egressFrameTake m ⟨cellErr, off⟩) s = .next s)

/-- A paused class resumes when its pause time is over (R376); a pause point still asserted is refreshed under flow control, and no other
is (R377). A MAC's link goes up while the MAC is enabled in an awake, powered group, and at no other time; it goes down at any time, its
egress queues flushed under DOWN_POLICY flush (R371). A port group falls asleep when its quiet notice ends, and wakes at once after an
HPORT.WAKE (R379, R382); a sleeping one is woken by the partner's pattern (R380); the wake pattern over, its MACs start (R381); a group in
another phase is left alone. Where the spec leaves a choice it is the model's, of log entries 66, 67. -/
def Obligations.HostPausesLinksAndSleep : Prop :=
  (∀ (m : Mac) (k : Fin 8) (s : State),
    exec (.pauseTimeExpiry m k) s = .next (s.updMac m fun x => { x with paused := Tab.erase x.paused k }))
  ∧ (∀ (m : Mac) (k : Fin 8) (s : State),
    exec (.pauseRefresh m k) s = .next (
      if (s.mac m).fcMode ≠ 0 ∧ k.val ∈ (s.mac m).asserted then s.sendPause m k (s.mac m).quanta else s))
  ∧ (∀ (m : Mac) (s : State), (s.mac m).link = false → s.macExists m = true → (s.mac m).en = true → (s.port (m / 8)).ph = .awake →
    s.alive (portDom (m / 8)) = true →
    exec (.linkChange m true) s = .next ((s.updMac m fun x => { x with link := true }).event 0x3001 0 3 m (det1 1) [s.macOwner m]))
  ∧ (∀ (m : Mac) (s : State), ((s.mac m).link = true ∨ s.macExists m = false ∨ (s.mac m).en = false ∨ (s.port (m / 8)).ph ≠ .awake
      ∨ s.alive (portDom (m / 8)) = false) → exec (.linkChange m true) s = .next s)
  ∧ (∀ (m : Mac) (s : State), (s.mac m).link = true →
    exec (.linkChange m false) s = .next (
      let t := ((s.updMac m fun x => { x with link := false }).bumpMac m 41).event 0x3001 0 3 m (det1 0) [s.macOwner m]
      if (s.mac m).hold then t else (List.range 8).foldl (fun t k => t.flush (State.egressQ m k)) t))
  ∧ (∀ (m : Mac) (s : State), (s.mac m).link = false → exec (.linkChange m false) s = .next s)
  ∧ (∀ (p : PortId) (s : State), (s.port p).ph = .quiet → ((s.linksDown p).port p).wakeAfterQuiet = false →
    exec (.quietNoticeEnd p) s = .next (
      ((((s.linksDown p).bumpMac (8 * p) 42).event 0x3002 0 2 p (det1 0) [((s.linksDown p).port p).owner]).updPort p fun x => { x with
        ph := .asleep }).requestRelease (portDom p)))
  ∧ (∀ (p : PortId) (s : State), (s.port p).ph = .quiet → ((s.linksDown p).port p).wakeAfterQuiet = true →
    exec (.quietNoticeEnd p) s = .next (
      ((s.linksDown p).updPort p fun x => { x with wakeAfterQuiet := false, wakeCause := 1, wakeAsked := s.now
                                                   grantedAt := s.now }).portPowered p))
  ∧ (∀ (p : PortId) (s : State), (s.port p).ph = .asleep → exec (.wakeDetected p) s = .next ((s.bumpMac (8 * p) 43).wakePort p 0))
  ∧ (∀ (p : PortId) (s : State), (s.port p).ph = .pattern → exec (.wakePatternEnd p) s = .next (s.portAwake p))
  ∧ (∀ (p : PortId) (s : State),
    ((s.port p).ph ≠ .quiet → exec (.quietNoticeEnd p) s = .next s)
    ∧ ((s.port p).ph ≠ .asleep → exec (.wakeDetected p) s = .next s)
    ∧ ((s.port p).ph ≠ .pattern → exec (.wakePatternEnd p) s = .next s))

/-- HPORT.MODE.SET sets the mode of an awake port group whose MACs that go are not named (R371); HPORT.SET stores a MAC's configuration,
its link down when it is disabled, its pause points tested anew under a new FC_MODE, its group's domain woken when it is enabled (R372 to
R377, R445); HPORT.STATUS.GET and HPORT.STATS.GET reply with state and counters, the counters cleared (Table 11.4). HPORT.SLEEP.SET stores
the wake parameters of a port group; HPORT.SLEEP begins the quiet notice of an awake group none of whose MACs is named, pauses ending
(R379); HPORT.WAKE wakes a sleeping group, and during the quiet notice leaves the wake for its end (R380). Where the spec leaves a choice
it is the model's, of log entries 66, 67. -/
def Obligations.HostPortCommandsApply : Prop :=
  (∀ (hd : CmdHdr) (p : List Byte) (s : State), let c : RawCmd := ⟨0x0901, hd, p⟩
    let g := u8 p 0
    let gone := fun (m : Nat) => m / 8 == g && modeHas (s.port g).mode (m % 8) && !modeHas (u8 p 1) (m % 8)
    s.Takes c 0 → (s.pdom (portDom g)).inReset = false → p.length = 2 → g < 32 → (s.port g).owner = hd.ep → u8 p 1 ≤ 3 →
    (s.port g).ph = .awake → s.macsNamed gone = false → (∀ l ∈ s.lags, ∀ m ∈ l.2.members, gone m = false) →
    exec (.hportModeSet hd p) s = .next (State.okOf ((s.taken c).setMode g (u8 p 1)) c))
  ∧ (∀ (hd : CmdHdr) (p : List Byte) (s : State), let c : RawCmd := ⟨0x0902, hd, p⟩
    let m := u8 p 0
    let x := s.mac m
    s.Takes c 0 → (s.pdom (portDom (m / 8))).inReset = false → p.length = 16 → s.macOwner m = hd.ep → u8 p 1 ≤ 1 → u8 p 2 ≤ 2 →
    64 ≤ u16 p 10 → u16 p 10 ≤ 16383 → 1 ≤ u16 p 12 → u8 p 14 ≤ 1 → ZeroAt p [(15, 1)] → s.macExists m = true →
    exec (.hportSet hd p) s = .next (State.okOf
      (let t := if x.en && u8 p 1 == 0 then (s.taken c).linkDown m else s.taken c
       let t := t.updMac m fun x => { x with
         en := u8 p 1 == 1, fcMode := u8 p 2, pfcEn := p.getD 3 0, sa := some (BitVec.ofNat 48 (beVal (slice p 4 6)))
         maxFrame := u16 p 10, quanta := u16 p 12, hold := u8 p 14 == 0 }
       let t := if x.fcMode = u8 p 2 then t else t.restartPoints m
       if u8 p 1 == 1 && (t.port (m / 8)).ph == .awake then t.requestWake 1 (portDom (m / 8)) else t) c))
  ∧ (∀ (hd : CmdHdr) (p : List Byte) (s : State), let c : RawCmd := ⟨0x0906, hd, p⟩
    let g := u8 p 0
    s.Takes c 4 → (s.pdom (portDom g)).inReset = false → p.length = 1 → g < 32 → (s.port g).owner = hd.ep →
    exec (.hportStatusGet hd p) s = .next (State.okOf (s.taken c) c
      [BitVec.ofNat 8 (s.port g).mode,
       (match (s.port g).ph with
         | .awake => 0 | .asleep => 1 | .quiet => 2 | .powering | .pattern => 4),
       BitVec.ofNat 8 (State.bitMap ((List.range 8).filter fun i => (s.mac (8 * g + i)).link)), 0]))
  ∧ (∀ (hd : CmdHdr) (p : List Byte) (s : State), let c : RawCmd := ⟨0x0907, hd, p⟩
    let m := u8 p 0
    s.Takes c 368 → (s.pdom (portDom (m / 8))).inReset = false → p.length = 1 → s.macOwner m = hd.ep →
    exec (.hportStatsGet hd p) s = .next (State.okOf ((s.taken c).updMac m fun x => { x with ctr := [], sat := 0 }) c
      (((List.range 45).flatMap fun j => leBytes 8 ((s.mac m).ctr.get j)) ++ leBytes 8 (s.mac m).sat.toNat)))
  ∧ (∀ (hd : CmdHdr) (p : List Byte) (s : State), let c : RawCmd := ⟨0x0903, hd, p⟩
    let g := u8 p 0
    s.Takes c 0 → (s.pdom (portDom g)).inReset = false → p.length = 4 → g < 32 → (s.port g).owner = hd.ep → u8 p 1 ≤ 1 → 10 ≤ u16 p 2 →
    u16 p 2 ≤ 100 →
    exec (.hportSleepSet hd p) s = .next (State.okOf
      ((s.taken c).updPort g fun x => { x with autoWake := u8 p 1 == 1, wakeLen := u16 p 2 }) c))
  ∧ (∀ (hd : CmdHdr) (p : List Byte) (s : State), let c : RawCmd := ⟨0x0904, hd, p⟩
    let g := u8 p 0
    s.Takes c 0 → (s.pdom (portDom g)).inReset = false → p.length = 1 → g < 32 → (s.port g).owner = hd.ep → (s.port g).ph = .awake →
    (s.macsNamed fun m => m / 8 == g) = false →
    exec (.hportSleep hd p) s = .next (State.okOf
      (let t := (s.taken c).updPort g fun x => { x with ph := .quiet, wakeAfterQuiet := false }
       let t := (List.range 8).foldl (fun t i => t.updMac (8 * g + i) fun x => { x with paused := [] }) t
       if (t.macsOn g).isEmpty then t else t.emit (.portPattern g false)) c))
  ∧ (∀ (hd : CmdHdr) (p : List Byte) (s : State), let c : RawCmd := ⟨0x0905, hd, p⟩
    let g := u8 p 0
    s.Takes c 0 → (s.pdom (portDom g)).inReset = false → p.length = 1 → g < 32 → (s.port g).owner = hd.ep →
    exec (.hportWake hd p) s = .next (State.okOf
      (match (s.port g).ph with
       | .asleep => (s.taken c).wakePort g 1
       | .quiet => (s.taken c).updPort g fun x => { x with wakeAfterQuiet := true }
       | _ => s.taken c) c))

/-- LANE.TX.SET stores taps, a line lane's for its next burst, and a channel's lane map, inversions and lead (R394, R395, R397);
LANE.RX.SET stores the equalizer freeze and LOS_DEB (R398, R399); LANE.TEST.SET puts a lane that carries no traffic in a test mode, a line
channel's domains powered meanwhile (R400, R401). LANE.INJECT inverts bits of a lane under PRBS test, at once or at a rate (R402);
LANE.EYE.GET begins a scan of a lane that has none under way and completes with PENDING_ASYNC (R404, R530); LANE.STATUS.GET and
LANE.STATS.GET reply with status and counters. Where the spec leaves a choice it is the model's, of log entry 70. -/
def Obligations.LaneCommandsApply : Prop :=
  (∀ (hd : CmdHdr) (p : List Byte) (s : State), let c : RawCmd := ⟨0x0A02, hd, p⟩
    let l := u16 p 0
    let taps := bitAt p 2 0
    let chan := bitAt p 2 1
    s.Takes c 0 → s.laneHeld l = false → p.length = 16 → l < 512 → s.laneOwner l = hd.ep → u8 p 2 ≤ 3 → ZeroAt p [(3, 1), (13, 1)] →
    (taps = true → (i8 p 4).natAbs + (i8 p 5).natAbs + (i8 p 6).natAbs + (i8 p 7).natAbs ≤ 64 ∧ 32 ≤ i8 p 6) →
    (chan = true → l < 256 ∧ isPerm ((slice p 8 4).map (·.toNat)) = true ∧ u8 p 12 ≤ 15 ∧ 200 ≤ u16 p 14 ∧ u16 p 14 ≤ 2000) →
    exec (.laneTxSet hd p) s = .next (State.okOf
      (let w := some (i8 p 4, i8 p 5, i8 p 6, i8 p 7)
       let t := if !taps then s.taken c
         else if l < 256 then (s.taken c).updLane l fun x => { x with tapsNext := w }
         else (s.taken c).updLane l fun x => { x with taps := w }
       if !chan then t else t.updChan (l / 4) fun x => { x with cfg := { x.cfg with
         txMap := (slice p 8 4).map (·.toNat), txInv := u8 p 12, txLeadNs := u16 p 14 } }) c))
  ∧ (∀ (hd : CmdHdr) (p : List Byte) (s : State), let c : RawCmd := ⟨0x0A03, hd, p⟩
    let l := u16 p 0
    s.Takes c 0 → s.laneHeld l = false → p.length = 8 → l < 512 → s.laneOwner l = hd.ep → u8 p 2 ≤ 1 → ZeroAt p [(3, 1)] →
    1 ≤ u32 p 4 → u32 p 4 ≤ 1000 →
    exec (.laneRxSet hd p) s = .next (State.okOf
      ((s.taken c).updLane l fun x => { x with frozen := u8 p 2 == 1, losDebUs := u32 p 4 }) c))
  ∧ (∀ (hd : CmdHdr) (p : List Byte) (s : State), let c : RawCmd := ⟨0x0A04, hd, p⟩
    let l := u16 p 0
    s.Takes c 0 → s.laneHeld l = false → p.length = 6 → l < 512 → s.laneOwner l = hd.ep → u8 p 2 ≤ 4 → (u8 p 3 ≤ 8 ∨ u8 p 3 = 255) →
    (u8 p 4 ≤ 8 ∨ u8 p 4 = 255) → u8 p 5 ≤ 3 → s.testBarred l = false →
    exec (.laneTestSet hd p) s = .next (State.okOf
      (let t := (s.taken c).updLane l fun x => { x with
         test := u8 p 2, gen := u8 p 3, chk := u8 p 4, genInv := bitAt p 5 0, chkInv := bitAt p 5 1, prbsLock := false
         injM := if u8 p 2 = 1 then x.injM else 0, injE := if u8 p 2 = 1 then x.injE else 0 }
       if l < 256 then t.testPower (l / 4) (s.inTest (l / 4)) else t) c))
  ∧ (∀ (hd : CmdHdr) (p : List Byte) (s : State), let c : RawCmd := ⟨0x0A05, hd, p⟩
    let l := u16 p 0
    let form := u8 p 2
    s.Takes c 0 → s.laneHeld l = false → p.length = 6 → l < 512 → s.laneOwner l = hd.ep → form ≤ 2 →
    (form = 1 → 1 ≤ u8 p 3 ∧ u8 p 3 ≤ 64) → (form = 2 → u8 p 4 ≤ 9 ∧ (u8 p 4 = 0 ∨ (3 ≤ u8 p 5 ∧ u8 p 5 ≤ 12))) →
    (s.lane l).test = 1 →
    exec (.laneInject hd p) s = .next (State.okOf
      (match form with
       | 0 => (s.taken c).bumpLane l .injected
       | 1 => (s.taken c).bumpLane l .injected (u8 p 3)
       | _ => (s.taken c).updLane l fun x => { x with injM := u8 p 4, injE := if u8 p 4 = 0 then 0 else u8 p 5 }) c))
  ∧ (∀ (hd : CmdHdr) (p : List Byte) (s : State), let c : RawCmd := ⟨0x0A06, hd, p⟩
    let l := u16 p 0
    s.Takes c 0 → s.laneHeld l = false → p.length = 12 → l < 512 → s.laneOwner l = hd.ep → u8 p 2 ≤ 2 → 16 ≤ u8 p 3 → u8 p 3 ≤ 36 →
    -32 ≤ i8 p 4 → i8 p 4 ≤ i8 p 5 → i8 p 5 ≤ 31 → 1 ≤ u8 p 6 → -127 ≤ i8 p 8 → i8 p 8 ≤ i8 p 9 → 1 ≤ u8 p 10 →
    ZeroAt p [(7, 1), (11, 1)] → (s.lane l).scan = none →
    exec (.laneEyeGet hd p) s = .next (State.pendOf ((s.taken c).updLane l fun x => { x with scan := some (hd, eyePoints p) }) c))
  ∧ (∀ (hd : CmdHdr) (p : List Byte) (s : State), let c : RawCmd := ⟨0x0A01, hd, p⟩
    let l := u16 p 0
    let x := s.lane l
    let y := s.chan (l / 4)
    s.Takes c 8 → s.laneHeld l = false → p.length = 2 → l < 512 → s.laneOwner l = hd.ep →
    exec (.laneStatusGet hd p) s = .next (State.okOf (s.taken c) c
      (if l < 256 then
        [BitVec.ofNat 8 (x.los.toNat + 2 * x.lol.toNat + 4 * y.rx.felos.toNat + 8 * x.blockLock.toNat + 16 * y.rx.lanesUp.toNat
           + 32 * x.frozen.toNat + 64 * x.scan.isSome.toNat),
         BitVec.ofNat 8 (y.rxMap.getD (l % 4) (l % 4)), bByte x.inverted, BitVec.ofNat 8 x.test]
          ++ leBytes 2 (y.rxSkew.getD (l % 4) 0) ++ zeros 2
       else BitVec.ofNat 8 (x.los.toNat + 2 * x.lol.toNat + 32 * x.frozen.toNat + 64 * x.scan.isSome.toNat) :: zeros 7)))
  ∧ (∀ (hd : CmdHdr) (p : List Byte) (s : State), let c : RawCmd := ⟨0x0A07, hd, p⟩
    let l := u16 p 0
    s.Takes c 96 → s.laneHeld l = false → p.length = 3 → l < 512 → s.laneOwner l = hd.ep → u8 p 2 ≤ 1 →
    exec (.laneStatsGet hd p) s = .next (State.okOf
      (if u8 p 2 = 1 then (s.taken c).updLane l fun x => { x with ctr := [] } else s.taken c) c
      ((List.range 12).flatMap fun j => leBytes 8 ((s.lane l).ctr.get j))))

/-- Block lock is declared on a line lane of a powered receiver whose detectors are clear and fixes its polarity (R388); it is lost with
its marker history, and alignment with it (R389). A marker that misses MSYNC or MCRC, or its place, is counted (R391); a good marker in
its place joins the channel's collection (R392); the fourth bad one in a row on an aligned channel loses alignment (R393). A lane that is
no line lane, or without block lock, takes no marker. Where the spec leaves a choice it is the model's, of log entries 68, 69, 121. -/
def Obligations.BlockLockAndMarkersAreFollowed : Prop :=
  (∀ (l : LaneId) (inv : Bool) (s : State), let x := s.lane l
    exec (.blockLock l inv) s = .next (
      if l.val < 256 ∧ s.alive (dsDom (l / 4)) = true ∧ x.blockLock = false ∧ x.los = false ∧ x.lol = false then
        s.updLane l fun x => { x with blockLock := true, inverted := inv, lastMarker := none, badMarkers := 0 }
      else s))
  ∧ (∀ (l : LaneId) (s : State), let x := s.lane l
    let t := ((s.updLane l fun x => { x with blockLock := false, lastMarker := none, badMarkers := 0 }).updChan
      (l / 4) fun x => { x with markers := Tab.set none x.markers (l % 4) none }).bumpLane l .blockLockLoss
    exec (.blockLockLoss l) s = .next (
      if l.val < 256 ∧ x.blockLock = true then
        (if x.los = true ∨ x.lol = true then t else t.bumpLane l .hdrInvalid 32).alignLost (l / 4)
      else s))
  ∧ (∀ (l : LaneId) (raw : BitVec 64) (a : Nat) (s : State), let x := s.lane l
    let m := if x.inverted then ~~~raw else raw
    let due := match x.lastMarker with
      | none => true
      | some p => (a + 4294967296 - p % 4294967296) % 4294967296 % markerSpan == 0
    let missed := s.bumpLane l .markerErr
    l.val < 256 → x.blockLock = true →
    exec (.laneMarker l raw a) s = .next (
      if markerFits m = true ∧ due = true then
        (s.updLane l fun x => { x with lastMarker := some a, badMarkers := 0 }).collectMarker l m a
      else if due = false then missed
      else if (s.chan (l / 4)).rx.lanesUp = true ∧ 3 ≤ x.badMarkers then missed.alignLost (l / 4)
      else missed.updLane l fun x => { x with badMarkers := x.badMarkers + 1 }))
  ∧ (∀ (l : LaneId) (raw : BitVec 64) (a : Nat) (s : State), (256 ≤ l.val ∨ (s.lane l).blockLock = false) →
    exec (.laneMarker l raw a) s = .next s)

/-- A detector of a powered lane changes state after its debounce: an assertion is counted, both edges are posted to the owner, and loss
of signal or of lock takes block lock away or the host link down (R399); no other report of a detector changes anything. FELOScc likewise
takes the line of its channel, that of a sleeping one into HOLDOVER with its doze record (R124, R399, R433). A running checker locks to
its pattern and loses the lock by 256 errors (R401); a scan that ends posts LANE_EYE under the tag of its command, in parts above 65,536
bytes (R404, R530, the parts being the model's of log entry 70); a poll of a front end posts a status that does not fit its expected
pattern and raises or clears the laser fault alarm (R133, R396); a front-end bus held low over 25 ms is freed by the firmware (R584).
Where the checker does not run, no scan is under way or the firmware does not poll, nothing changes. -/
def Obligations.DetectorsAndLaneTestsReport : Prop :=
  (∀ (l : LaneId) (s : State), s.rxAlive l = true → (s.lane l).los = false →
    exec (.losDetect l true) s = .next (
      (((s.updLane l fun x => { x with los := true }).bumpLane l .los).event 0x3101 0 8 l (det2 0 1) [s.laneOwner l]).laneFails l))
  ∧ (∀ (l : LaneId) (s : State), s.rxAlive l = true → (s.lane l).los = true →
    exec (.losDetect l false) s = .next ((s.updLane l fun x => { x with los := false }).event 0x3101 0 8 l (det2 0 0) [s.laneOwner l]))
  ∧ (∀ (l : LaneId) (s : State), s.rxAlive l = true → (s.lane l).lol = false →
    exec (.lolDetect l true) s = .next (
      (((s.updLane l fun x => { x with lol := true }).bumpLane l .lol).event 0x3101 0 8 l (det2 1 1) [s.laneOwner l]).laneFails l))
  ∧ (∀ (l : LaneId) (s : State), s.rxAlive l = true → (s.lane l).lol = true →
    exec (.lolDetect l false) s = .next ((s.updLane l fun x => { x with lol := false }).event 0x3101 0 8 l (det2 1 0) [s.laneOwner l]))
  ∧ (∀ (l : LaneId) (on : Bool) (s : State), (s.rxAlive l = false ∨ (s.lane l).los = on) → exec (.losDetect l on) s = .next s)
  ∧ (∀ (l : LaneId) (on : Bool) (s : State), (s.rxAlive l = false ∨ (s.lane l).lol = on) → exec (.lolDetect l on) s = .next s)
  ∧ (∀ (c : Chan) (s : State),
    let t := ((s.updRx c fun r => { r with felos := true }).bumpLane (4 * c) .felos).laneDetect (4 * c) 2 true
    (s.chan c).rx.felos = false →
    exec (.felosDetect c true) s = .next (match (s.chan c).tc.doze with
      | none => t.lineLost c
      | some d => if d.awake then t.lineLost c
          else (t.enterHoldover c { tag := d.recTag, sfc := d.recSfc, tds := d.recTds, since := s.now }).requestWake 0 (dsDom c)))
  ∧ (∀ (c : Chan) (s : State), (s.chan c).rx.felos = true →
    exec (.felosDetect c false) s = .next ((s.updRx c fun r => { r with felos := false }).laneDetect (4 * c) 2 false))
  ∧ (∀ (c : Chan) (on : Bool) (s : State), (s.chan c).rx.felos = on → exec (.felosDetect c on) s = .next s)
  ∧ (∀ (l : LaneId) (s : State),
    exec (.prbsLock l) s = .next (
      if ((s.lane l).test = 1 ∨ (s.lane l).test = 2 ∨ (s.lane l).test = 4) ∧ (s.lane l).chk ≠ 0xFF ∧ s.rxAlive l = true then
        s.updLane l fun x => { x with prbsLock := true }
      else s))
  ∧ (∀ (l : LaneId) (s : State),
    exec (.prbsLockLoss l) s = .next (
      if (s.lane l).prbsLock = true then
        ((s.updLane l fun x => { x with prbsLock := false }).bumpLane l .prbsErr 256).bumpLane l .prbsLoss
      else s))
  ∧ (∀ (l : LaneId) (counts : List Nat) (s : State) (hd : CmdHdr) (n : Nat), (s.lane l).scan = some (hd, n) →
    exec (.eyeScanDone l counts) s = .next (
      (State.resultParts ((List.range n).flatMap fun i => leBytes 8 (counts.getD i 0))).foldl (fun t detail => t.post
      { e := { code := 0x0105, sev := 0, raised := false, kind := 8, idx := l, detail, time := 0, pstate := 0, parts := [hd.ep.val]
               seq := 0, flash := false }
        tag := hd.tag, epoch := some hd.epoch, status := stOk }) (s.updLane l fun x => { x with scan := none })))
  ∧ (∀ (l : LaneId) (counts : List Nat) (s : State), (s.lane l).scan = none → exec (.eyeScanDone l counts) s = .next s)
  ∧ (∀ (result : List Byte), result.length ≤ 65536 → State.resultParts result = [result])
  ∧ (∀ (c : Chan) (code : Byte) (mis : Bool) (tx : Byte) (s : State), (s.chan c).cfg.fePoll = true → (s.chan c).tc.opened = true →
    s.fw.ready = true →
    exec (.feLanePoll c code mis tx) s = .next (
      let t := (s.setPin (34 + c / 8) 4).setPin (42 + c / 8) 4
      let t := if mis then t.event 0x3102 1 8 (4 * c) (det1 code.toNat) (t.chanParts c) else t
      if tx = 0 then t.clearChan c 2 0 else if t.alarmOpen 0x2002 1 c then t else t.raiseChan c 2 tx.toNat))
  ∧ (∀ (c : Chan) (code : Byte) (mis : Bool) (tx : Byte) (s : State),
    ((s.chan c).cfg.fePoll = false ∨ (s.chan c).tc.opened = false ∨ s.fw.ready = false) →
    exec (.feLanePoll c code mis tx) s = .next s)
  ∧ (∀ (k : Fin 8) (s : State),
    exec (.feBusStretchTimeout k) s = .next (
      if s.fw.ready = true then ((s.setPin (34 + k) 4).setPin (42 + k) 4).emit (.feRelease k) else s))

/-- PWR.BUDGET.SET stores budgets that hold what is reserved now (R412, R417, R420); PWR.RELEASE releases a seated card (R425);
DOMAIN.RESET resets a domain that holds nothing, holds it, or frees one held (R440). All are partition 0's. PWR.ENERGY.GET replies with
the energy of domains the partition sees, of the base and of the rails (R435); PWR.STATE.GET with every domain's state, the ledgers and
the budgets (Table 18.13). Neither changes anything. -/
def Obligations.PowerCommandsApply : Prop :=
  (∀ (hd : CmdHdr) (p : List Byte) (s : State), let c : RawCmd := ⟨0x0B01, hd, p⟩
    let rails := (List.range 6).map fun r => u32 p (4 * r)
    let slews := (List.range 6).map fun r => u32 p (28 + 4 * r)
    let w := u32 p 24
    s.Takes c 0 → p.length = 52 → hd.ep = 0 → 60 ≤ w → w ≤ 740 →
    (∀ r < 6, railMax.getD r 0 ≤ 10 * rails.getD r 0 ∧ rails.getD r 0 ≤ railMax.getD r 0 ∧ 500 ≤ slews.getD r 0
      ∧ slews.getD r 0 ≤ 64000) →
    (∀ r < 6, s.slewFloor25 0 r ≤ 25 * slews.getD r 0 ∧ s.ledgers.getD r 0 ≤ rails.getD r 0) →
    s.powerTotal s.ledgers ≤ w * 10000000 →
    exec (.pwrBudgetSet hd p) s = .next (State.okOf
      ((s.taken c).updPwr fun x => { x with
        railBudget := ((List.range 6).zip rails).filter fun e => e.2 ≠ 0
        budgetW := w
        slew := ((List.range 6).zip slews).filter fun e => e.2 ≠ 0 }) c))
  ∧ (∀ (hd : CmdHdr) (s : State), let c : RawCmd := ⟨0x0B02, hd, []⟩
    s.Takes c 0 → hd.ep = 0 → s.pwr.seated = true →
    exec (.pwrRelease hd []) s = .next (State.okOf ((s.taken c).release 0) c))
  ∧ (∀ (hd : CmdHdr) (p : List Byte) (s : State), let c : RawCmd := ⟨0x0B05, hd, p⟩
    let d := u8 p 0
    s.Takes c 0 → p.length = 2 → hd.ep = 0 → (d = 2 ∨ (132 ≤ d ∧ d ≤ 217 ∧ d ≠ 216)) → u8 p 1 ≤ 1 → s.domBusy d = false →
    exec (.domainReset hd p) s = .next (State.okOf
      (let t := if u8 p 1 = 1 ∧ !s.rst.heldDom.contains d then
          (s.taken c).updRst fun r => { r with heldDom := r.heldDom ++ [d] } else s.taken c
       if d = 2 then t.mgmtReset srcDomain2 else t.domReset d) c))
  ∧ (∀ (hd : CmdHdr) (p : List Byte) (s : State), let c : RawCmd := ⟨0x0B05, hd, p⟩
    let d := u8 p 0
    s.Takes c 0 → p.length = 2 → hd.ep = 0 → (d = 2 ∨ (132 ≤ d ∧ d ≤ 217 ∧ d ≠ 216)) → u8 p 1 = 2 → d ∈ s.rst.heldDom →
    exec (.domainReset hd p) s = .next (State.okOf
      (((s.taken c).updRst fun r => { r with heldDom := r.heldDom.filter fun x => x != d }).freeDoms [d]) c))
  ∧ (∀ (hd : CmdHdr) (p : List Byte) (s : State), let c : RawCmd := ⟨0x0B03, hd, p⟩
    let a := u8 p 0
    let n := u8 p 1
    let reply := ((List.range n).flatMap fun i => leBytes 8 (s.pdom (a + i)).energy) ++ leBytes 8 s.pwr.baseEnergy
      ++ (List.range 8).flatMap fun r => leBytes 8 (Ctrs.get s.pwr.railEnergy r)
    s.Takes c reply.length → p.length = 2 → 1 ≤ n → a + n ≤ 218 → (∀ i < n, s.seesDom hd.ep (a + i) = true) →
    exec (.pwrEnergyGet hd p) s = .next (State.okOf (s.taken c) c reply))
  ∧ (∀ (hd : CmdHdr) (s : State), let c : RawCmd := ⟨0x0B04, hd, []⟩
    s.Takes c 2032 →
    exec (.pwrStateGet hd []) s = .next (State.okOf (s.taken c) c
      ((List.range 218).map s.domByte ++ zeros 6 ++ s.ledgers.flatMap (leBytes 4)
        ++ (List.range 6).flatMap (fun r => leBytes 4 (s.railBudget r)) ++ leBytes 2 s.budgetW ++ leBytes 2 (min s.pwr.measured 65535)
        ++ [BitVec.ofNat 8 (s.pwr.insMode.toNat + 2 * s.pwr.seated.toNat)] ++ zeros 11
        ++ (List.range 218).flatMap fun d =>
            leBytes 4 (min (s.pdom d).orphan 4294967295) ++ leBytes 4 (min (s.pdom d).absent 4294967295))))

/-- Bracken grants a committed request when its wake set can wake, a service request also when it fits the budgets, no other stands before
it and no power over budget bars it, and grants nothing else (R413, R416, R417, R422); a service request that has waited 1 ms is posted
once. A ramp's end leaves the domain on, once those it depends on are powered, or off, what waits for it going on (R33, R35, R414, R418;
that a ramp's end before then leaves it ramping is the model's choice of log entry 113). A measured total over the budget bars service
wakes, releases stacks without pages and closes banks, and raises PWR_OVER (R422). The whole microjoules of each 10 µs of rail energy,
with what earlier intervals left over, are counted for their rail, those of a budgeted rail shared among the powered domains and the base
allowance, VIO and VAON counted in the base counter (R434, R435). -/
def Obligations.PowerGrantsRampsAndEnergy : Prop :=
  (∀ (d : DomainId) (s : State), let x := s.pdom d
    exec (.brackenGrant d) s = .next (
      if x.wait = true ∧ s.canWake d = true ∧ (x.cls = 0 ∨ (s.fits (s.wakeSet d) = true ∧ (s.blocker = none ∨ s.blocker = some d.val)
          ∧ s.pwr.overBudget = false)) then s.grantNow x.cls d
      else s))
  ∧ (∀ (d : DomainId) (s : State),
    exec (.serviceWaitLimit d) s = .next (
      if (s.pdom d).wait = true ∧ (s.pdom d).cls = 1 ∧ (s.pdom d).waitLimit = false then
        (s.updPdom d fun p => { p with waitLimit := true }).event 0x6001 0 5 d (det1 d) [0]
      else s))
  ∧ (∀ (d : DomainId) (s : State),
    let up := (s.updPdom d fun p => { p with ph := .on, fenced := p.inReset, releaseNext := false }).domUp d
    exec (.rampEnd d) s = .next (match (s.pdom d).ph with
      | .up => (if ∀ e ∈ domDeps d, s.powered e = true then (if (s.pdom d).releaseNext then up.requestRelease d else up) else s).settle
      | .down => (((s.updPdom d fun p => { p with ph := .off, fenced := true }).domDown d).releaseFreed d).settle
      | _ => s.settle))
  ∧ (∀ (w : Nat) (s : State), let t := s.updPwr fun p => { p with overBudget := true, okRun := 0, measured := w }
    exec (.powerOverBudget w) s = .next ((((List.range 4).foldl (fun s i =>
      if (s.stack i).pages = 0 then s.requestRelease (stackDom i) else s) t).closeBanks.cellsChanged).raiseAlarm 0x1020 2 0 0 (det1 w)
      allParts))
  ∧ (∀ (nj : List Nat) (s : State),
    let whole := fun (r : Nat) => (Tab.get 0 s.pwr.energyCarry r + nj.getD r 0) / 1000
    exec (.energyIntegration nj) s = .next (
      let t := (List.range 6).foldl (fun t r => t.shareRail r (whole r)) s
      let t := [6, 7].foldl (fun t r => t.updPwr fun p => { p with
        baseEnergy := min (p.baseEnergy + whole r) ctrMax, railEnergy := p.railEnergy.add r (whole r) }) t
      let t := (List.range 8).foldl (fun t r => t.updPwr fun p => { p with
        energyCarry := Tab.upd 0 p.energyCarry r fun c => (c + nj.getD r 0) % 1000 }) t
      { t with draws := t.draws + 1 }))
  ∧ (∀ (nj : List Nat) (s : State), ∃ t, exec (.energyIntegration nj) s = .next t
      ∧ ∀ r < 8, Ctrs.get t.pwr.railEnergy r
          = min (Ctrs.get s.pwr.railEnergy r + (Tab.get 0 s.pwr.energyCarry r + nj.getD r 0) / 1000) ctrMax)

/-- Seating the card releases the withdrawal source, and the rail-loss source when every rail is good (R423, R424); withdrawal sets
insertion mode, gives every open channel its condition, starts the emergency shutdown and asserts its source (R426, R427, R133). Power
good lost on a rail that a powered domain draws on is an alarm, a lockout, the shutdown and a WARM source, on VIO or VAON the power-on
source (R409, R427); overcurrent and a thermal trip start the shutdown too (R427, R442); a rail good again clears its alarm. Each step of
an emergency shutdown takes its group of Table 13.6 off, a waiting reset reaching what it leaves, and the sixteenth ends the shutdown
(R428, R446); with no shutdown under way a step does nothing. Tj below 100 °C clears the trip alarms and raises THERMTRIP_N, and releases
an asserted thermal source when that is enabled and at most its third release in 60 minutes; a later one locks it (R442). Where the spec
leaves a choice it is the model's, of log entries 74, 75, 77. -/
def Obligations.CardRailsTripsAndEmergency : Prop :=
  (∀ (s : State), let t := ((s.updPwr fun p => { p with seated := true }).releaseSources [8]).railsRelease
    s.pwr.seated = false →
    exec .cardSeated s = .next (if (t.pdom 1).inReset = false ∧ (t.pdom 1).ph = .off then t.requestWake 1 1 else t))
  ∧ (∀ (s : State), s.pwr.seated = true → exec .cardSeated s = .next s)
  ∧ (∀ (s : State), s.pwr.seated = true →
    exec .cardWithdrawal s = .next (
      ((List.range 64).foldl (fun t c => if (t.chan c).tc.opened then t.chanCondition c 6 0 else t)
        (s.updPwr fun p => { p with seated := false, insMode := true })).startEmergency.wideReset 8 100 false true))
  ∧ (∀ (s : State), s.pwr.seated = false → exec .cardWithdrawal s = .next s)
  ∧ (∀ (r : Fin 8) (s : State), let t := s.updPwr fun p => { p with railGood := p.railGood.erase r }
    r.val < 6 →
    exec (.railPowerGoodLoss r) s = .next (
      if t.railDrawn r then
        (((t.raiseAlarm 0x1012 3 6 r (det1 r) allParts).updPwr fun p => { p with lockout := true }).startEmergency.wideReset 9 100 false
          true)
      else t))
  ∧ (∀ (r : Fin 8) (s : State), 6 ≤ r.val →
    exec (.railPowerGoodLoss r) s = .next ((s.updPwr fun p => { p with railGood := p.railGood.erase r }).doPowerOn))
  ∧ (∀ (r : Fin 8) (s : State),
    exec (.railPowerGood r) s = .next (
      (((s.updPwr fun p => { p with railGood := if r.val ∈ p.railGood then p.railGood else p.railGood ++ [r.val] }).clearAlarm
        0x1012 6 r).powerOnTest).railsRelease))
  ∧ (∀ (r : Fin 8) (s : State),
    exec (.railOvercurrent r) s = .next ((s.raiseAlarm 0x1012 3 6 r (det1 r) allParts).startEmergency))
  ∧ (∀ (i : Fin 48) (s : State),
    let t := (s.updMgmt fun m => { m with trips := if i.val ∈ m.trips then m.trips else m.trips ++ [i.val] }).raiseAlarm 0x1003 3 7 i
      (det1 i) allParts
    exec (.thermalTrip i) s = .next (
      (if t.pwr.thermtrip then t else (t.updPwr fun p => { p with thermtrip := true }).emit (.thermtrip true)).startEmergency.wideReset
        7 100 false true))
  ∧ (∀ (s : State) (n : Nat), let g := emergencyGroup (n + 1)
    let t := (g.foldl (fun s d => s.emergencyOff d) (s.updPwr fun p => { p with emergency := some (n + 1) })).latentReach g
    s.pwr.emergency = some n → exec .emergencyStep s = .next (if 15 ≤ n then t.endEmergency else t))
  ∧ (∀ (s : State), s.pwr.emergency = none → exec .emergencyStep s = .next s)
  ∧ (∀ (s : State),
    let t := (s.mgmt.trips.foldl (fun t i => t.clearAlarm 0x1003 7 i) s).updMgmt fun m => { m with trips := [] }
    let u := if t.pwr.thermtrip then (t.updPwr fun p => { p with thermtrip := false }).emit (.thermtrip false) else t
    let recent := u.rst.thermReleases.filter fun a => decide (u.now < a + 3600000000000000)
    exec .thermalRestart s = .next (
      if 7 ∉ u.rst.asserted then u
      else if u.rst.thermRestart = true ∧ recent.length < 3 then
        (u.updRst fun r => { r with thermReleases := recent ++ [u.now] }).releaseSources [7]
      else u.updRst fun r => { r with thermReleases := recent, thermLock := true }))

/-- Power-on asserts its source alone, takes every domain into reset and drives RESET_N (R436, R437, R451), and releases with VAON and VIO
good and XAON running. RESET_N low asserts a WARM source while the device neither drives nor blanks the pin and power-on does not hold
(R449, R451), held low 1 s a COLD one (R450), and high releases both; the drive ends when no other source holds it, and the blanking with
the pin tested anew, a pin low that was the drive's own cause asserting nothing (R451). Out of their conditions these events change
nothing. Where the spec leaves a choice it is the model's, of log entries 74, 78. -/
def Obligations.ResetSourcesAssertAndRelease : Prop :=
  (∀ (s : State), ∃ t, exec .powerOn s = .next t ∧ t.rst.asserted = [0] ∧ t.rst.driving = true ∧ t.rst.lastReach = 0
    ∧ (∀ d < 218, (t.pdom d).inReset = true) ∧ (∀ c, (t.chan c).tc = {}) ∧ t.queues = [] ∧ t.eps = [])
  ∧ (∀ (s : State), let t := s.updRst fun r => { r with xaon := true }
    exec .xaonRunning s = .next (if 6 ∈ s.pwr.railGood ∧ 7 ∈ s.pwr.railGood then t.releaseSources [0] else t))
  ∧ (∀ (s : State),
    exec .resetNLow s = .next (
      if s.rst.driving = true ∨ s.rst.blanking = true ∨ 0 ∈ s.rst.asserted then s
      else ((s.updRst fun r => { r with nLow := true }).wideReset 1 100 false true).endThermLock))
  ∧ (∀ (s : State),
    exec .resetNHigh s = .next (
      if s.rst.driving = true ∨ s.rst.blanking = true then s
      else (s.updRst fun r => { r with nLow := false }).releaseSources [1, 2]))
  ∧ (∀ (s : State),
    exec .resetNHeld s = .next (
      if 1 ∈ s.rst.asserted ∧ s.rst.nLow = true ∧ 2 ∉ s.rst.asserted then s.wideReset 2 1000 true true else s))
  ∧ (∀ (s : State),
    exec .resetNDriveEnd s = .next (
      if s.rst.driving = true ∧ ∀ x ∈ s.rst.asserted, x = 1 ∨ x = 2 then
        (s.updRst fun r => { r with driving := false, blanking := true }).emit (.resetN false)
      else s))
  ∧ (∀ (s : State), s.rst.blanking = true →
    exec (.blankingEnd false) s = .next ((s.updRst fun r => { r with blanking := false, nLow := false }).releaseSources [1, 2]))
  ∧ (∀ (s : State), s.rst.blanking = true →
    exec (.blankingEnd true) s = .next (
      if s.rst.driveForN = true ∧ s.rst.nLow = true then s.updRst fun r => { r with blanking := false }
      else ((s.updRst fun r => { r with blanking := false, nLow := true }).wideReset 1 100 false true).endThermLock))
  ∧ (∀ (low : Bool) (s : State), s.rst.blanking = false → exec (.blankingEnd low) s = .next s)

/-- The armed watchdog's expiry counts, is remembered for the alarm after READY, and resets the management cluster, during an activation
after the return to the old image (R486, R503). The source of DEV.RESET asserts after its completion, with its stretch (R548). The end of
Heath's stretch latches each strap field from its last three readings, a bit that differs reading 0, before the domains take their turns
(R445, R464); that of another domain lets the turns go on. With none of these under way nothing changes. Where the spec leaves a choice it
is the model's, of log entries 80, 82. -/
def Obligations.WatchdogStrapsAndDeviceReset : Prop :=
  (∀ (s : State), let t := if s.fw.actMgmt = true ∧ s.fw.ready = false then s.rollBack else s
    s.mgmt.wdogArmed = true →
    exec .watchdogExpiry s = .next (
      (t.updMgmt fun m => { m with wdogCount := min (m.wdogCount + 1) 255, wdogFired := true }).mgmtReset 3))
  ∧ (∀ (s : State), s.mgmt.wdogArmed = false → exec .watchdogExpiry s = .next s)
  ∧ (∀ (s : State), s.rst.devReset = some 0 →
    exec .devResetSourceAssert s = .next ((s.updRst fun x => { x with devReset := none }).wideReset 4 100 false false))
  ∧ (∀ (s : State), s.rst.devReset = some 1 →
    exec .devResetSourceAssert s = .next ((s.updRst fun x => { x with devReset := none }).wideReset 4 1000 true false))
  ∧ (∀ (s : State), s.rst.devReset = none → exec .devResetSourceAssert s = .next s)
  ∧ (∀ (x : StrapSample) (s : State), let v := x.r0 &&& x.r1 &&& x.r2
    (s.pdom 0).stretching = true →
    exec (.stretchEnd 0 x) s = .next (
      ((((s.updPdom 0 fun p => { p with stretching := false, stretchUs := 0 }).updRst fun r => { r with
        bootSrc := v.toNat % 4, clkMode := v.toNat / 4, strapUnstable := decide (x.r0 ≠ x.r1 ∨ x.r1 ≠ x.r2) }).updPdom 0
        fun p => { p with inReset := false, fenced := false, ph := .on }).turns)))
  ∧ (∀ (d : DomainId) (x : StrapSample) (s : State), d.val ≠ 0 → (s.pdom d).stretching = true →
    exec (.stretchEnd d x) s = .next ((s.updPdom d fun p => { p with stretching := false, stretchUs := 0 }).turns))
  ∧ (∀ (d : DomainId) (x : StrapSample) (s : State), (s.pdom d).stretching = false → exec (.stretchEnd d x) s = .next s)

/-- FW.STAGE, FW.VERIFY, FW.ACTIVATE, FUSE.SVN.ADVANCE and ATTEST.QUOTE begin their operation when nothing of its kind goes on and
complete with PENDING_ASYNC (R484, R485, R489, R530); staging ends the verification of its slot. FW.STATUS.GET replies with the boot slot,
the state of the update slot, the versions, the boot record and the images (Table 18.16); FUSE.PINMAP.BURN burns and locks the pins it
names, none of them locked before (R461); ATTEST.CERT.GET replies with both certificates. Where the spec leaves a choice it is the
model's, of log entries 12, 85, 86, 122. -/
def Obligations.FirmwareCommandsApply : Prop :=
  (∀ (hd : CmdHdr) (p : List Byte) (s : State), let c : RawCmd := ⟨0x0E01, hd, p⟩
    let slot := if bitAt p 0 0 then s.fw.recov else s.fw.target
    let len := p.length - 8
    s.Takes c 0 → 9 ≤ p.length → p.length ≤ 61448 → hd.ep = 0 → u8 p 0 ≤ 1 → ZeroAt p [(1, 3)] → u32 p 4 + len ≤ slotSize →
    State.overlaps slot (u32 p 4) len = false → s.updating = false →
    exec (.fwStage hd p) s = .next (State.pendOf
      (let t := (s.taken c).startOp opStage hd p
       if bitAt p 0 0 then t.updFw fun f => { f with recov := { f.recov with verified := none } }
       else t.updFw fun f => { f with target := { f.target with verified := none } }) c))
  ∧ (∀ (hd : CmdHdr) (p : List Byte) (s : State), let c : RawCmd := ⟨0x0E02, hd, p⟩
    s.Takes c 0 → p.length = 1 → hd.ep = 0 → u8 p 0 ≤ 1 → s.updating = false →
    exec (.fwVerify hd p) s = .next (State.pendOf ((s.taken c).startOp opVerify hd p) c))
  ∧ (∀ (hd : CmdHdr) (p : List Byte) (s : State) (g : PackageInfo), let c : RawCmd := ⟨0x0E03, hd, p⟩
    let mask := BitVec.ofNat 16 (u16 p 2)
    s.Takes c 0 → p.length = 4 → hd.ep = 0 → u8 p 0 ≤ 3 → (bitAt p 0 1 = true → bitAt p 0 0 = true ∧ u16 p 2 = 65535) →
    ZeroAt p [(1, 1)] → s.fw.target.verified = some g → s.fw.svn ≤ g.svn → s.updating = false →
    exec (.fwActivate hd p) s = .next (State.pendOf
      (((s.taken c).startOp opActivate hd p).activate (bitAt p 0 0) (bitAt p 0 1) ((List.range 16).filter mask.getLsbD)) c))
  ∧ (∀ (hd : CmdHdr) (s : State), let c : RawCmd := ⟨0x0E05, hd, []⟩
    s.Takes c 0 → hd.ep = 0 → s.fw.pushed = false → recoveryPasses s = true → s.updating = false →
    exec (.fuseSvnAdvance hd []) s = .next (State.pendOf (({ s.taken c with draws := s.draws + 1 } : State).startOp opSvn hd []) c))
  ∧ (∀ (hd : CmdHdr) (p : List Byte) (s : State), let c : RawCmd := ⟨0x0E07, hd, p⟩
    s.Takes c 0 → p.length = 32 → s.quoting = false →
    exec (.attestQuote hd p) s = .next (
      if s.identLost then State.failOf (s.taken c) c stState else State.pendOf ((s.taken c).startOp opQuote hd p) c))
  ∧ (∀ (hd : CmdHdr) (s : State), let c : RawCmd := ⟨0x0E04, hd, []⟩
    let f := s.fw
    let slot := if f.target.verified.isSome then 2 else if f.target.written.isEmpty then 0 else 1
    let reply := [BitVec.ofNat 8 f.bootSlot, BitVec.ofNat 8 slot, BitVec.ofNat 8 f.lastReason, 0]
      ++ leBytes 8 ((f.pkg.map (·.imgVer.toNat)).getD 0) ++ leBytes 8 ((f.target.verified.map (·.imgVer.toNat)).getD 0)
      ++ Machine.slice s.bootRecBytes 0 16 ++ s.imageDigests
    s.Takes c reply.length →
    exec (.fwStatusGet hd []) s = .next (State.okOf (s.taken c) c reply))
  ∧ (∀ (hd : CmdHdr) (p : List Byte) (s : State), let c : RawCmd := ⟨0x0E06, hd, p⟩
    let named := (List.range 50).filter fun i => (BitVec.ofNat 64 (u64 p 0)).getLsbD i
    s.Takes c 0 → p.length = 24 → hd.ep = 0 → u64 p 0 < 2 ^ 50 → (∀ i ∈ named, (s.pin i).locked = false) →
    exec (.fusePinmapBurn hd p) s = .next (State.okOf
      (named.foldl (fun t i => t.updPin i fun x => { x with fuse := u8 p (8 + i / 4) / 4 ^ (i % 4) % 4, locked := true }) (s.taken c)) c))
  ∧ (∀ (hd : CmdHdr) (s : State), let c : RawCmd := ⟨0x0E08, hd, []⟩
    let reply := leBytes 4 Config.devCert.length ++ Config.devCert ++ Config.caCert
    s.Takes c 65536 →
    exec (.attestCertGet hd []) s = .next (if s.identLost then State.failOf (s.taken c) c stState else State.okOf (s.taken c) c reply))

/-- A candidate that verifies is recorded and runs under the watchdog (R468, R474, R503); one that a check of Table 15.6 rejects is
recorded with the check's code, its reason kept and alarmed, and the next candidate follows, or after the last the recovery wait (R468,
R473). Where no candidate is at hand, or the root of trust is down, nothing happens. READY lets the management firmware serve the rings,
posts the events it kept and, after a watchdog reset, alarms it (R476, R486, R503). An engine cluster that reports ready takes the image
of the running package, or of the one being activated where it is the next cluster of an activation, and rejoins planning when the image
is accepted; otherwise it stays fenced, and an activation goes no further (R162, R485 to R487). A cluster fault takes it out. Where the
spec leaves a choice it is the model's, of log entries 81, 82, 84, 122. -/
def Obligations.CandidatesBootAndClustersJoin : Prop :=
  (∀ (readOk : Bool) (img : PkgImage) (s : State) (slot : Nat) (rest : List Nat),
    let code := s.verifyCode readOk img slotSize (s.rst.bootSrc == 1 && !s.fw.recoveryWait)
    s.alive 1 = true → s.fw.cands = slot :: rest →
    exec (.candidateVerified readOk img) s = .next (
      if code = 0 then (s.recordCandidate slot 0).coresRun (pkgInfo img.head) slot false
      else if rest = [] then ((s.recordCandidate slot code).reject slot code).enterRecovery.turns
      else ((s.recordCandidate slot code).reject slot code).updFw fun f => { f with cands := rest }))
  ∧ (∀ (readOk : Bool) (img : PkgImage) (s : State), s.alive 1 = false ∨ s.fw.cands = [] →
    exec (.candidateVerified readOk img) s = .next s)
  ∧ (∀ (s : State), let t := ((s.updFw fun f => { f with ready := true, restarting := false }).epFaults 0).postKept
    let u := if t.mgmt.wdogFired = true then
        (t.updMgmt fun m => { m with wdogFired := false }).raiseAlarm 0x1050 2 0 0 (det1 t.mgmt.wdogCount) allParts
      else t
    exec .ready s = .next (
      (if s.alive 2 = true ∧ s.fw.mgmtFree = true ∧ s.fw.coresHalted = false ∧ s.fw.pkg ≠ none ∧ s.fw.ready = false then
        ((u.requestWake 1 216).mgmtActivated).serveKeyJobs
      else s).settle))
  ∧ (∀ (k : Fin 16) (s : State),
    let mine : Bool := !s.fw.actMgmt && s.fw.actClusters.head? == some k.val
    let t := s.setImage k (if mine = true then s.fw.actPkg else s.fw.pkg)
    let u := (t.updFw fun f => { f with absent := f.absent.filter fun x => x != k.val }).updPdom (engDom k) fun p => { p with
      fenced := false }
    s.alive (engDom k) = true →
    exec (.clusterReady k true) s = .next (
      if mine = true then State.activateNext 17 (u.updFw fun f => { f with actClusters := f.actClusters.tail }) else u))
  ∧ (∀ (k : Fin 16) (s : State),
    let mine : Bool := !s.fw.actMgmt && s.fw.actClusters.head? == some k.val
    let t := (s.setImage k (if mine = true then s.fw.actPkg else s.fw.pkg)).updPdom (engDom k) fun p => { p with fenced := true }
    s.alive (engDom k) = true →
    exec (.clusterReady k false) s = .next (if mine = true then t.activateStop else t))
  ∧ (∀ (k : Fin 16) (ok : Bool) (s : State), s.alive (engDom k) = false → exec (.clusterReady k ok) s = .next s)
  ∧ (∀ (k : Fin 16) (s : State), exec (.engineClusterFault k) s = .next (s.clusterGone k))

/-- A health failure stops the DRBG and is alarmed, a restart starts it with its count at 0 and clears the alarm, a reseed sets the count
to 0 (R477, R478); a stopped DRBG fails and reseeds no more, and a running one does not restart. An activated firmware that does not come
up is rolled back to the image it ran before (R486). An operation that ends with OK has its effect and posts one result under the tag and
epoch of its command: a staged chunk is written, a verified package stands in its slot with the check's code as the result's reason, an
advance raises the security version (R484, R489, R530); a quote ends with its signed body and raises the quote count (R481). A chunk or an
advance that ends with TIMEOUT or INTERNAL posts that status and leaves what R545 says; an activation that ends with an error goes no
further. Without an open operation of that opcode nothing happens. Where the spec leaves a choice it is the model's, of log entries 83,
85, 122. -/
def Obligations.DrbgActivationAndOperationResults : Prop :=
  (∀ (test : Byte) (s : State),
    exec (.drbgHealthFailure test) s = .next (
      if s.gorse.drbgRun = true then
        ({ s with gorse := { s.gorse with drbgRun := false } }).raiseAlarm 0x1031 2 0 0 (det1 test.toNat) allParts
      else s))
  ∧ (∀ (s : State),
    exec .drbgRestart s = .next (
      if s.gorse.drbgRun = false ∧ s.alive 1 = true then
        ({ s with gorse := { s.gorse with drbgRun := true, drbgReqs := 0 } }).clearAlarm 0x1031 0 0
      else s))
  ∧ (∀ (s : State),
    exec .drbgReseed s = .next (if s.gorse.drbgRun = true then { s with gorse := { s.gorse with drbgReqs := 0 } } else s))
  ∧ (∀ (s : State), exec .mgmtRestartTimeout s = .next (
      if s.fw.actMgmt = true ∧ s.fw.ready = false then
        ((s.updFw fun f => { f with pkg := f.prevPkg, prevPkg := none }).activateStop).event 0x0103 2 0 0 (det1 1) allParts
      else s))
  ∧ (∀ (reason : Byte) (img : PkgImage) (s : State) (o : AsyncOp),
    let len := o.arg.length - 8
    s.openOp 0x0E01 = some o → o.opcode = 0x0E01 →
    exec (.asyncOperationDone 0x0E01 0 reason img) s = .next (
      ((s.updFw fun f => { f with ops := f.ops.erase o }).updFw fun f =>
        if bitAt o.arg 0 0 = true then { f with recov := State.writeChunk f.recov (u32 o.arg 4) len }
        else { f with target := State.writeChunk f.target (u32 o.arg 4) len }).result 0x0101 o.hdr 0 (det2 0x0E01 reason.toNat)))
  ∧ (∀ (reason : Byte) (img : PkgImage) (s : State) (o : AsyncOp), let code := s.verifyCode (reason.toNat != 1) img slotSize false
    let kept := if code = 0 then some (pkgInfo img.head) else none
    s.openOp 0x0E02 = some o → o.opcode = 0x0E02 → s.passesSpoiled o code = false →
    exec (.asyncOperationDone 0x0E02 0 reason img) s = .next (
      ((s.updFw fun f => { f with ops := f.ops.erase o }).updFw fun f =>
        if bitAt o.arg 0 0 = true then { f with recov := { f.recov with verified := kept } }
        else { f with target := { f.target with verified := kept } }).result 0x0101 o.hdr 0 (det2 0x0E02 code)))
  ∧ (∀ (reason : Byte) (img : PkgImage) (s : State) (o : AsyncOp), s.openOp 0x0E05 = some o → o.opcode = 0x0E05 →
    exec (.asyncOperationDone 0x0E05 0 reason img) s = .next (
      ((s.updFw fun f => { f with ops := f.ops.erase o }).updFw fun f => { f with
        svn := max f.svn ((f.pkg.map (·.svn)).getD 0) }).result 0x0101 o.hdr 0 (det2 0x0E05 reason.toNat)))
  ∧ (∀ (reason : Byte) (img : PkgImage) (s : State) (o : AsyncOp), let q := s.quoteBody o.hdr.ep.val o.arg
    s.openOp 0x0E07 = some o → o.opcode = 0x0E07 →
    exec (.asyncOperationDone 0x0E07 0 reason img) s = .next (
      ((s.updFw fun f => { f with ops := f.ops.erase o }).updFw fun f => { f with qcount := f.qcount + 1 }).result 0x0104 o.hdr 0
        (q ++ Config.identSign q)))
  ∧ (∀ (op status : BitVec 16) (reason : Byte) (img : PkgImage) (s : State) (o : AsyncOp),
    let t := s.updFw fun f => { f with ops := f.ops.erase o }
    s.openOp op.toNat = some o → (op = 0x0E01 ∨ op = 0x0E05) → (status = 0x17 ∨ status = 0x20) →
    exec (.asyncOperationDone op status reason img) s = .next (
      (t.opBroken o).result 0x0101 o.hdr status.toNat (det2 op.toNat reason.toNat)))
  ∧ (∀ (status : BitVec 16) (reason : Byte) (img : PkgImage) (s : State) (o : AsyncOp),
    let t := s.updFw fun f => { f with ops := f.ops.erase o }
    s.openOp 0x0E03 = some o → status ≠ 0 → asyncStatus status.toNat = true →
    exec (.asyncOperationDone 0x0E03 status reason img) s = .next (
      t.activateStop.result 0x0101 o.hdr status.toNat (det2 0x0E03 reason.toNat)))
  ∧ (∀ (op status : BitVec 16) (reason : Byte) (img : PkgImage) (s : State), s.openOp op.toNat = none →
    exec (.asyncOperationDone op status reason img) s = .next s)

/-- SENSOR.GET replies with temperatures, and to partition 0 with rails and power (R490); ALARM.THRESH.SET and WDOG.SET store their values
(R492, R502); ALARM.ACK drops a critical alarm whose condition has ended (R497); LOG.READ replies with records of the partition from an
LSEQ on and FLOG.READ with records of the flash log by age (R498 to R501). Where the spec leaves a choice it is the model's, of log entry
88. -/
def Obligations.ManagementCommandsApply : Prop :=
  (∀ (hd : CmdHdr) (s : State), let c : RawCmd := ⟨0x0D01, hd, []⟩
    s.Takes c 164 →
    exec (.sensorGet hd []) s = .next (State.okOf (s.taken c) c
      ((List.range 48).flatMap (fun i => sBytes 2 (Tab.get 0 s.mgmt.temps i))
        ++ if hd.ep = 0 then ((List.range 8).flatMap fun r => leBytes 4 (Tab.get 0 s.pwr.railV r) ++ leBytes 4 (Tab.get 0 s.pwr.railI r))
            ++ leBytes 4 s.pwr.measured else zeros 68)))
  ∧ (∀ (hd : CmdHdr) (p : List Byte) (s : State), let c : RawCmd := ⟨0x0D02, hd, p⟩
    s.Takes c 0 → p.length = 2 → hd.ep = 0 → 60 ≤ u8 p 0 → u8 p 0 < u8 p 1 → u8 p 1 ≤ 110 →
    exec (.alarmThreshSet hd p) s = .next (State.okOf ((s.taken c).updMgmt fun m => { m with minorT := u8 p 0, majorT := u8 p 1 }) c))
  ∧ (∀ (hd : CmdHdr) (p : List Byte) (s : State), let c : RawCmd := ⟨0x0D03, hd, p⟩
    let it := fun (a : AlarmSt) => a.code = u16 p 0 ∧ a.kind = u8 p 2 ∧ a.idx = u16 p 4
    s.Takes c 0 → p.length = 6 → hd.ep = 0 → u8 p 2 ≤ 9 → ZeroAt p [(3, 1)] →
    (∃ a ∈ s.mgmt.alarms, it a ∧ a.sev = 3 ∧ a.present = false ∧ a.listed = true) →
    exec (.alarmAck hd p) s = .next (State.okOf
      ((s.taken c).updMgmt fun m => { m with
        alarms := m.alarms.filter fun a => !(a.code == u16 p 0 && a.kind == u8 p 2 && a.idx == u16 p 4) }) c))
  ∧ (∀ (hd : CmdHdr) (p : List Byte) (s : State), let c : RawCmd := ⟨0x0D04, hd, p⟩
    let l := (s.mgmt.log.filter fun r => decide (0 ≤ (BitVec.ofNat 32 r.seq - BitVec.ofNat 32 (u32 p 0)).toInt)
      && r.parts.contains hd.ep.val).take (u16 p 4)
    let reply := leBytes 4 ((l.head?.map (·.seq)).getD (u32 p 0)) ++ leBytes 4 l.length ++ l.flatMap EvRec.bytes
    s.Takes c reply.length → p.length = 6 → 1 ≤ u16 p 4 → u16 p 4 ≤ 2047 →
    exec (.logRead hd p) s = .next (State.okOf (s.taken c) c reply))
  ∧ (∀ (hd : CmdHdr) (p : List Byte) (s : State), let c : RawCmd := ⟨0x0D05, hd, p⟩
    let reply := ((List.range (u16 p 2)).filterMap fun i => s.flogAge (u16 p 0 + i)).flatMap EvRec.bytes
    s.Takes c reply.length → p.length = 4 → hd.ep = 0 → u16 p 0 ≤ 4095 → 1 ≤ u16 p 2 → u16 p 2 ≤ 2047 →
    exec (.flogRead hd p) s = .next (State.okOf (s.taken c) c reply))
  ∧ (∀ (hd : CmdHdr) (p : List Byte) (s : State), let c : RawCmd := ⟨0x0D06, hd, p⟩
    s.Takes c 0 → p.length = 4 → hd.ep = 0 → 10 ≤ u32 p 0 → u32 p 0 ≤ 10000 →
    exec (.wdogSet hd p) s = .next (State.okOf ((s.taken c).updMgmt fun m => { m with wdogNext := u32 p 0 }) c))

/-- A sample of the 48 sensors raises a warning alarm for the first sensor at a threshold (R492), which clears after 1 s 3 °C below it; a
sample of the rails raises an alarm after 1 ms out of tolerance or above 95 % of its maximum, and ends a restriction after 1 ms within the
budget (R422, R493); a rail alarm clears after 100 ms without its condition. A record copied to flash is renumbered, marked and leaves the
last-gasp buffer, and the oldest of 4,096 gives way; a failed write is tried once more, and the second failure stops the flash log; while
it is stopped, no firmware is READY or nothing is left to copy, none is written (R500 to R502). Where the spec leaves a choice it is the
model's, of log entries 76, 87. -/
def Obligations.SamplesRaiseAlarmsAndTheLogIsCopied : Prop :=
  (∀ (temps : List Int) (s : State), exec (.sensorSample temps) s = .next (
      ((s.updMgmt fun m => { m with temps := ((List.range 48).zip temps).filter fun e => e.2 ≠ 0 }).tempAlarm 0x1001 1 s.mgmt.minorT).tempAlarm
        0x1002 2
        (((s.updMgmt fun m => { m with temps := ((List.range 48).zip temps).filter fun e => e.2 ≠ 0 }).tempAlarm 0x1001 1
          s.mgmt.minorT).mgmt.majorT)))
  ∧ (∀ (major : Bool) (s : State),
    let code := if major = true then 0x1002 else 0x1001
    let thr := if major = true then s.mgmt.majorT else s.mgmt.minorT
    exec (.tempAlarmClear major) s = .next (
      if ∀ i < 48, Tab.get 0 s.mgmt.temps i ≤ 16 * ((thr : Int) - 3) then
        match s.mgmt.alarms.find? fun a => a.code == code && a.present with
        | some a => s.clearAlarm code 7 a.idx
        | none => s
      else s))
  ∧ (∀ (vs : List RailReading) (s : State), exec (.railSample vs) s = .next (
      ((((List.range 8).zip vs).foldl (fun s e => s.railTake e.1 e.2) s).updPwr fun p => { p with
        measured := (vs.map fun x => x.v * x.i).sum / 100000 }).overTest))
  ∧ (∀ (r : Fin 8) (s : State), exec (.railAlarmClear r true) s = .next (
      if Tab.get 0 s.mgmt.railHiRun r = 0 then s.clearAlarm 0x1011 6 r else s))
  ∧ (∀ (r : Fin 8) (s : State), exec (.railAlarmClear r false) s = .next (
      if Tab.get 0 s.mgmt.railOutRun r = 0 then s.clearAlarm 0x1010 6 r else s))
  ∧ (∀ (s : State) (r : EvRec), s.mgmt.flogStopped = false → s.fw.ready = true → s.flashNext = some r →
    exec (.flashLogWrite true) s = .next (s.updMgmt fun m => { m with
      flog := if m.flog.length < 4096 then m.flog ++ [{ r with seq := m.fseq, flash := true }]
        else (m.flog ++ [{ r with seq := m.fseq, flash := true }]).drop 1
      fseq := (m.fseq + 1) % 4294967296, flogRetry := false
      gasp := m.gasp.filter fun g => g.seq != r.seq
      log := m.log.map fun x => if x.seq == r.seq then { x with flash := true } else x }))
  ∧ (∀ (s : State) (r : EvRec), s.mgmt.flogStopped = false → s.fw.ready = true → s.flashNext = some r →
    exec (.flashLogWrite false) s = .next (
      if s.mgmt.flogRetry = true then (s.updMgmt fun m => { m with flogRetry := false, flogStopped := true }).flashFailed
      else s.updMgmt fun m => { m with flogRetry := true }))
  ∧ (∀ (ok : Bool) (s : State), s.mgmt.flogStopped = true ∨ s.fw.ready = false ∨ s.flashNext = none →
    exec (.flashLogWrite ok) s = .next s)

/-- The sideband releases insertion mode while the card is seated (R425, R504) and asserts a WARM or COLD reset, ending a locked thermal
trip (R442, R504). A window command is answered in the window (R505): a push begins, goes on and ends by verification where BOOT_SRC 11 or
the recovery wait takes it and ends with STATE elsewhere (R469, R506), and the flash log, the boot record and the open alarms can be read
(Table 16.8). While the bus of the sideband is down its commands have no effect (R504); while Gorse does not run or the management
restarts, each window command is answered with BUSY (R505); a push that has not begun goes on and ends with STATE (R506); a malformed
request of PUSH.END, FLOG.GET or ALARM.GET is answered with BAD_PARAM. Where the spec leaves a choice it is the model's, of log entries
20, 22, 89. -/
def Obligations.SidebandCommandsAct : Prop :=
  (∀ (s : State), s.sbUp = true →
    exec .sbRelease s = .next (if s.pwr.seated = true then s.release 1 else s.updMgmt fun m => { m with sbRefused := true }))
  ∧ (∀ (s : State), s.sbUp = true → exec .sbResetWarm s = .next (s.endThermLock.wideReset 5 100 false false))
  ∧ (∀ (s : State), s.sbUp = true → exec .sbResetCold s = .next (s.endThermLock.wideReset 5 1000 true false))
  ∧ (∀ (req : List Byte) (s : State),
    let t := s.updMgmt fun m => { m with sbOp := 0x01 }
    s.sbUp = true → (s.fw.ready = true ∨ s.fw.restarting = false ∧ s.alive 1 = true) →
    exec (.sbPushBegin req) s = .next (
      if s.pushOpen 3 = false then t.sbReply stState []
      else if req.length = 4 ∧ 1 ≤ u32 req 0 ∧ u32 req 0 ≤ 4194304 then
        (t.updFw fun f => { f with pushSb := some { len := u32 req 0 } }).sbReply 0 []
      else t.sbReply stBadParam []))
  ∧ (∀ (req : List Byte) (s : State) (x : PushSt),
    let t := s.updMgmt fun m => { m with sbOp := 0x02 }
    s.sbUp = true → (s.fw.ready = true ∨ s.fw.restarting = false ∧ s.alive 1 = true) → s.fw.pushSb = some x →
    exec (.sbPushData req) s = .next (
      if s.pushOpen 3 = false then t.sbReply stState []
      else if 5 ≤ req.length ∧ req.length ≤ 64 ∧ u32 req 0 + (req.length - 4) ≤ x.len then
        (t.updFw fun f => { f with pushSb := some { x with chunks := (u32 req 0, req.drop 4) :: x.chunks } }).sbReply 0 []
      else t.sbReply stBadParam []))
  ∧ (∀ (sigOk : Bool) (s : State) (x : PushSt),
    let t := s.updMgmt fun m => { m with sbOp := 0x03 }
    let y := (t.updFw fun f => { f with pushSb := none }).pushVerified 4 x sigOk
    s.sbUp = true → (s.fw.ready = true ∨ s.fw.restarting = false ∧ s.alive 1 = true) → s.fw.pushSb = some x →
    exec (.sbPushEnd [] sigOk) s = .next (if s.pushOpen 3 = false then t.sbReply stState [] else y.2.sbReply 0 (leBytes 1 y.1)))
  ∧ (∀ (req : List Byte) (s : State), s.sbUp = true → (s.fw.ready = true ∨ s.fw.restarting = false ∧ s.alive 1 = true) →
    req.length = 2 → u16 req 0 ≤ 4095 →
    exec (.sbFlogGet req) s = .next (
      (s.updMgmt fun m => { m with sbOp := 0x10 }).sbReply 0 (((s.flogAge (u16 req 0)).map EvRec.bytes).getD [])))
  ∧ (∀ (s : State), s.sbUp = true → (s.fw.ready = true ∨ s.fw.restarting = false ∧ s.alive 1 = true) →
    exec .sbBootrecGet s = .next ((s.updMgmt fun m => { m with sbOp := 0x11 }).sbReply 0
      ((s.fw.record.flatMap fun r => leBytes 1 r.1 ++ leBytes 1 r.2).take 64)))
  ∧ (∀ (req : List Byte) (s : State), s.sbUp = true → (s.fw.ready = true ∨ s.fw.restarting = false ∧ s.alive 1 = true) →
    req.length = 1 →
    exec (.sbAlarmGet req) s = .next ((s.updMgmt fun m => { m with sbOp := 0x12 }).sbReply 0
      (match (s.mgmt.alarms.filter fun a => a.listed)[u8 req 0]? with
       | some a => leBytes 2 a.code ++ leBytes 1 a.sev ++ leBytes 1 a.kind ++ leBytes 2 a.idx
       | none => [])))
  ∧ (∀ (req : List Byte) (sigOk : Bool) (c : Instr) (s : State), s.sbUp = false →
    c ∈ [Instr.sbRelease, .sbResetWarm, .sbResetCold, .sbPushBegin req, .sbPushData req, .sbPushEnd req sigOk, .sbFlogGet req, .sbBootrecGet,
      .sbAlarmGet req] → exec c s = .next s)
  ∧ (∀ (req : List Byte) (sigOk : Bool) (c : Instr) (op : Nat) (s : State), s.sbUp = true → s.fw.ready = false →
    (s.fw.restarting = true ∨ s.alive 1 = false) →
    (c, op) ∈ [(Instr.sbPushBegin req, 0x01), (.sbPushData req, 0x02), (.sbPushEnd req sigOk, 0x03), (.sbFlogGet req, 0x10),
      (.sbBootrecGet, 0x11), (.sbAlarmGet req, 0x12)] →
    exec c s = .next ((s.updMgmt fun m => { m with sbOp := op }).sbReply stBusy []))
  ∧ (∀ (req : List Byte) (sigOk : Bool) (c : Instr) (op : Nat) (s : State), s.sbUp = true →
    (s.fw.ready = true ∨ s.fw.restarting = false ∧ s.alive 1 = true) → s.fw.pushSb = none →
    (c, op) ∈ [(Instr.sbPushData req, 0x02), (.sbPushEnd req sigOk, 0x03)] →
    exec c s = .next ((s.updMgmt fun m => { m with sbOp := op }).sbReply stState []))
  ∧ (∀ (req : List Byte) (sigOk : Bool) (s : State) (x : PushSt), s.sbUp = true →
    (s.fw.ready = true ∨ s.fw.restarting = false ∧ s.alive 1 = true) → s.fw.pushSb = some x → req ≠ [] →
    exec (.sbPushEnd req sigOk) s = .next ((s.updMgmt fun m => { m with sbOp := 0x03 }).sbReply
      (if s.pushOpen 3 = true then stBadParam else stState) []))
  ∧ (∀ (req : List Byte) (s : State), s.sbUp = true → (s.fw.ready = true ∨ s.fw.restarting = false ∧ s.alive 1 = true) →
    (req.length ≠ 2 ∨ 4095 < u16 req 0) →
    exec (.sbFlogGet req) s = .next ((s.updMgmt fun m => { m with sbOp := 0x10 }).sbReply stBadParam []))
  ∧ (∀ (req : List Byte) (s : State), s.sbUp = true → (s.fw.ready = true ∨ s.fw.restarting = false ∧ s.alive 1 = true) →
    req.length ≠ 1 →
    exec (.sbAlarmGet req) s = .next ((s.updMgmt fun m => { m with sbOp := 0x12 }).sbReply stBadParam []))

/-- A doorbell value behind the commands posted before, or past the room of the command ring, stops the rings with fault 3 (R520); one
that the posted commands fill posts them (R519). RUN starts rings of valid sizes and bases from index 0, keeping what was fetched (R515,
R516, R522), and shows fault 4 for others; RUN as 0 stops them (R522). While the registers of an endpoint do not answer, its rings stand
still, and rings in the state that a command asks for take nothing from it. A function-level reset or a lost link stops an endpoint's
rings and returns its registers (R511), and the link comes up again. A hold time that expires sends the vector of the records not yet
signalled, and none where there is none (R514). Where the spec leaves a choice it is the model's, of log entries 7, 14. -/
def Obligations.RingsStartAndStop : Prop :=
  (∀ (k : EpId) (v : BitVec 32) (cmds : List RawCmd) (s : State), let e := s.ep k
    s.epUp k = true → e.run = true → ((v - e.cmdCi).toNat < (e.cmdPi - e.cmdCi).toNat ∨ 2 ^ e.cmdSize < (v - e.cmdCi).toNat) →
    exec (.mbxDoorbell k v cmds) s = .next ((s.updEp k fun e => { e with
      run := false, waiting := e.waiting.take e.fetched }).updEp k fun e => { e with fault := 3 }))
  ∧ (∀ (k : EpId) (v : BitVec 32) (cmds : List RawCmd) (s : State), let e := s.ep k
    s.epUp k = true → e.run = true → (e.cmdPi - e.cmdCi).toNat ≤ (v - e.cmdCi).toNat → (v - e.cmdCi).toNat ≤ 2 ^ e.cmdSize →
    (v - e.cmdPi).toNat = (cmds.map State.unitsOf).sum →
    exec (.mbxDoorbell k v cmds) s = .next ((s.updEp k fun e => { e with waiting := e.waiting ++ cmds, cmdPi := v }).settle))
  ∧ (∀ (k : EpId) (v : BitVec 32) (cmds : List RawCmd) (s : State), s.epUp k = false ∨ (s.ep k).run = false →
    exec (.mbxDoorbell k v cmds) s = .next s)
  ∧ (∀ (k : EpId) (s : State), let e := s.ep k
    s.Still → s.epUp k = true → e.run = false → 11 ≤ e.cmdSize → e.cmdSize ≤ 20 → 11 ≤ e.cmpSize → e.cmpSize ≤ 20 → 11 ≤ e.evtSize →
    e.evtSize ≤ 20 → e.cmdBase ≠ 0 → e.cmpBase ≠ 0 → e.evtBase ≠ 0 → e.idxBase ≠ 0 → e.held = [] →
    ∃ t, exec (.ringRun k) s = .next t ∧ (t.ep k).run = true ∧ (t.ep k).cmdPi = 0 ∧ (t.ep k).cmpPi = 0 ∧ (t.ep k).evtPi = 0
      ∧ (t.ep k).expSeq = none ∧ (t.ep k).epoch = e.epoch ∧ (t.ep k).eseq = e.eseq)
  ∧ (∀ (k : EpId) (s : State), s.epUp k = true → (s.ep k).run = false → State.ringsValid (s.ep k) = false →
    exec (.ringRun k) s = .next (s.updEp k fun e => { e with fault := 4 }))
  ∧ (∀ (k : EpId) (s : State), s.epUp k = false ∨ (s.ep k).run = true → exec (.ringRun k) s = .next s)
  ∧ (∀ (k : EpId) (s : State), exec (.ringStop k) s = .next (
      if s.epUp k = true ∧ (s.ep k).run = true then s.updEp k fun e => { e with run := false, waiting := e.waiting.take e.fetched }
      else s))
  ∧ (∀ (k : EpId) (s : State), exec (.functionLevelReset k) s = .next (if s.epUp k = true then s.epRegsReset k else s).settle)
  ∧ (∀ (k : EpId) (s : State), exec (.pcieLinkDown k) s = .next (
      if (s.ep k).link = true then (s.epRegsReset k).updEp k fun e => { e with link := false } else s).settle)
  ∧ (∀ (k : EpId) (s : State), exec (.pcieLinkUp k) s = .next (
      if s.alive 3 = true then s.updEp k fun e => { e with link := true } else s))
  ∧ (∀ (k : EpId) (s : State), exec (.moderationHoldExpiry k true) s = .next (
      if (s.ep k).evtUnsig = 0 then s
      else (s.updEp k fun e => { e with evtUnsig := 0 }).emit (.vector k ((s.ep k).vec.toNat / 16 % 16))))
  ∧ (∀ (k : EpId) (s : State), exec (.moderationHoldExpiry k false) s = .next (
      if (s.ep k).cmpUnsig = 0 then s
      else (s.updEp k fun e => { e with cmpUnsig := 0 }).emit (.vector k ((s.ep k).vec.toNat % 16))))

/-- A free mailbox takes its request and answers it in its window (R535): a push through endpoint 0 begins, goes on and ends by
verification where BOOT_SRC 10 or the recovery wait takes it and ends with STATE elsewhere (R469, R536), endpoint 0 reads the flash log,
every endpoint the boot record, and a command of at most 224 bytes of payload waits for the next command boundary (R536, R537). A mailbox
that is not free takes no operation (R535). Before READY a command, and every operation through endpoints 1 to 7 or while Gorse does not
run, is answered with BUSY (R536); a push goes on only when one has begun and only through endpoint 0, the flash log is endpoint 0's to
read, and a command of more than 224 bytes of payload, or a malformed request of PUSH.END or FLOG.GET, is answered with BAD_PARAM (R536).
A write stores the fields of its register (R13, Table 17.1): those that read only and reserved offsets take none, the ring sizes and bases
take it only while the rings are stopped (R515), RUN starts and stops the rings, and nothing is written in an endpoint that does not
answer. On the sideband a write to a register that reads only, or a value that SB_RELEASE or SB_RESET does not know, is refused (R504).
Where the spec leaves a choice it is the model's, of log entries 20, 21, 22. -/
def Obligations.MailboxAndRegistersAct : Prop :=
  (∀ (req : List Byte) (s : State),
    let t := s.mboxRequest 0 0x01 req
    s.mboxFree 0 = true → (s.fw.ready = true ∨ s.alive 1 = true) →
    exec (.mbxPushBegin 0 req) s = .next (
      if s.pushOpen 2 = false then t.mboxReply 0 stState []
      else if req.length = 4 ∧ 1 ≤ u32 req 0 ∧ u32 req 0 ≤ 4194304 then
        (t.updFw fun f => { f with push := some { len := u32 req 0 } }).mboxReply 0 0 []
      else t.mboxReply 0 stBadParam []))
  ∧ (∀ (req : List Byte) (s : State) (x : PushSt),
    let t := s.mboxRequest 0 0x02 req
    s.mboxFree 0 = true → (s.fw.ready = true ∨ s.alive 1 = true) → s.fw.push = some x →
    exec (.mbxPushData 0 req) s = .next (
      if s.pushOpen 2 = false then t.mboxReply 0 stState []
      else if 5 ≤ req.length ∧ req.length ≤ 256 ∧ u32 req 0 + (req.length - 4) ≤ x.len then
        (t.updFw fun f => { f with push := some { x with chunks := (u32 req 0, req.drop 4) :: x.chunks } }).mboxReply 0 0 []
      else t.mboxReply 0 stBadParam []))
  ∧ (∀ (sigOk : Bool) (s : State) (x : PushSt),
    let t := s.mboxRequest 0 0x03 []
    let y := (t.updFw fun f => { f with push := none }).pushVerified 3 x sigOk
    s.mboxFree 0 = true → (s.fw.ready = true ∨ s.alive 1 = true) → s.fw.push = some x →
    exec (.mbxPushEnd 0 [] sigOk) s = .next (
      if s.pushOpen 2 = false then t.mboxReply 0 stState [] else y.2.mboxReply 0 0 (leBytes 1 y.1)))
  ∧ (∀ (req : List Byte) (s : State), s.mboxFree 0 = true → (s.fw.ready = true ∨ s.alive 1 = true) → req.length = 2 → u16 req 0 ≤ 4095 →
    exec (.mbxFlogGet 0 req) s = .next (
      (s.mboxRequest 0 0x10 req).mboxReply 0 0 (((s.flogAge (u16 req 0)).map EvRec.bytes).getD [])))
  ∧ (∀ (k : EpId) (s : State), s.mboxFree k = true → (s.fw.ready = true ∨ k = 0 ∧ s.alive 1 = true) →
    exec (.mbxBootrecGet k) s = .next ((s.mboxRequest k 0x11 []).mboxReply k 0
      ((s.fw.record.flatMap fun r => leBytes 1 r.1 ++ leBytes 1 r.2).take 256)))
  ∧ (∀ (k : EpId) (c : RawCmd) (s : State), s.mboxFree k = true → s.fw.ready = true → c.payload.length ≤ 224 →
    exec (.mbxCmd k c) s = .next ((s.mboxRequest k 0x20 (State.cmdBytes c)).updEp k fun e => { e with mboxWait := some c }).settle)
  ∧ (∀ (k : EpId) (req : List Byte) (sigOk : Bool) (r : RawCmd) (c : Instr) (s : State), s.mboxFree k = false →
    c ∈ [Instr.mbxPushBegin k req, .mbxPushData k req, .mbxPushEnd k req sigOk, .mbxFlogGet k req, .mbxBootrecGet k, .mbxCmd k r] →
    exec c s = .next s)
  ∧ (∀ (k : EpId) (req : List Byte) (sigOk : Bool) (x : Instr × Nat × List Byte) (s : State), s.mboxFree k = true → s.fw.ready = false →
    (k ≠ 0 ∨ s.alive 1 = false) →
    x ∈ [(Instr.mbxPushBegin k req, 0x01, req), (.mbxPushData k req, 0x02, req), (.mbxPushEnd k req sigOk, 0x03, req), (.mbxFlogGet k req, 0x10, req),
      (.mbxBootrecGet k, 0x11, [])] →
    exec x.1 s = .next ((s.mboxRequest k x.2.1 x.2.2).mboxReply k stBusy []))
  ∧ (∀ (k : EpId) (c : RawCmd) (s : State), s.mboxFree k = true → (s.fw.ready = false ∨ 224 < c.payload.length) →
    exec (.mbxCmd k c) s = .next ((s.mboxRequest k 0x20 (State.cmdBytes c)).mboxReply k (if s.fw.ready = true then stBadParam else stBusy) []))
  ∧ (∀ (k : EpId) (req : List Byte) (sigOk : Bool) (x : Instr × Nat × List Byte) (s : State), s.mboxFree k = true → s.fw.ready = true →
    k ≠ 0 →
    x ∈ [(Instr.mbxPushBegin k req, 0x01, req), (.mbxPushData k req, 0x02, req), (.mbxPushEnd k req sigOk, 0x03, req)] →
    exec x.1 s = .next ((s.mboxRequest k x.2.1 x.2.2).mboxReply k stState []))
  ∧ (∀ (req : List Byte) (sigOk : Bool) (x : Instr × Nat × List Byte) (s : State), s.mboxFree 0 = true →
    (s.fw.ready = true ∨ s.alive 1 = true) → s.fw.push = none →
    x ∈ [(Instr.mbxPushData 0 req, 0x02, req), (.mbxPushEnd 0 req sigOk, 0x03, req)] →
    exec x.1 s = .next ((s.mboxRequest 0 x.2.1 x.2.2).mboxReply 0 stState []))
  ∧ (∀ (req : List Byte) (sigOk : Bool) (s : State) (x : PushSt), s.mboxFree 0 = true → (s.fw.ready = true ∨ s.alive 1 = true) →
    s.fw.push = some x → req ≠ [] →
    exec (.mbxPushEnd 0 req sigOk) s = .next ((s.mboxRequest 0 0x03 req).mboxReply 0
      (if s.pushOpen 2 = true then stBadParam else stState) []))
  ∧ (∀ (k : EpId) (req : List Byte) (s : State), s.mboxFree k = true → s.fw.ready = true → k ≠ 0 →
    exec (.mbxFlogGet k req) s = .next ((s.mboxRequest k 0x10 req).mboxReply k stNoRight []))
  ∧ (∀ (req : List Byte) (s : State), s.mboxFree 0 = true → (s.fw.ready = true ∨ s.alive 1 = true) → (req.length ≠ 2 ∨ 4095 < u16 req 0) →
    exec (.mbxFlogGet 0 req) s = .next ((s.mboxRequest 0 0x10 req).mboxReply 0 stBadParam []))
  ∧ (∀ (k : EpId) (v : BitVec 32) (s : State), s.epUp k = true →
    exec (.registerWrite (.bar0 k) 0x0C v) s = .next (s.updEp k fun e => { e with vec := v.setWidth 16 })
    ∧ exec (.registerWrite (.bar0 k) 0x18 v) s = .next (s.updEp k fun e => { e with cmpCi := v }).settle
    ∧ exec (.registerWrite (.bar0 k) 0x1C v) s = .next (s.updEp k fun e => { e with evtCi := v })
    ∧ exec (.registerWrite (.bar0 k) 0x20 v) s = .next (s.updEp k fun e => { e with smp := { e.smp with ci := v } })
    ∧ exec (.registerWrite (.bar0 k) 0x24 v) s = .next (s.updEp k fun e => { e with ts := { e.ts with ci := v } })
    ∧ exec (.registerWrite (.bar0 k) 0x28 v) s = .next (s.updEp k fun e => { e with
        cmpHold := v.toNat / 65536 % 1024, cmpCount := v.toNat % 256 })
    ∧ exec (.registerWrite (.bar0 k) 0x2C v) s = .next (s.updEp k fun e => { e with
        evtHold := v.toNat / 65536 % 1024, evtCount := v.toNat % 256 })
    ∧ exec (.registerWrite (.bar0 k) 0x04 v) s = .next s)
  ∧ (∀ (k : EpId) (v : BitVec 32) (s : State), s.epUp k = true →
    exec (.registerWrite (.bar0 k) 0x08 v) s = if v.getLsbD 0 = true then exec (.ringRun k) s else exec (.ringStop k) s)
  ∧ (∀ (k : EpId) (v : BitVec 32) (s : State), s.epUp k = true → s.stopped k = true →
    exec (.registerWrite (.bar0 k) 0x40 v) s = .next (s.updEp k fun e => { e with
        cmdBase := e.cmdBase / 2 ^ 32 * 2 ^ 32 + v.toNat / 4096 * 4096 })
    ∧ exec (.registerWrite (.bar0 k) 0x44 v) s = .next (s.updEp k fun e => { e with cmdBase := v.toNat * 2 ^ 32 + e.cmdBase % 2 ^ 32 })
    ∧ exec (.registerWrite (.bar0 k) 0x48 v) s = .next (s.updEp k fun e => { e with cmdSize := v.toNat % 32 })
    ∧ exec (.registerWrite (.bar0 k) 0x70 v) s = .next (s.updEp k fun e => { e with
        idxBase := e.idxBase / 2 ^ 32 * 2 ^ 32 + v.toNat / 64 * 64 }))
  ∧ (∀ (k : EpId) (off : Nat) (v : BitVec 32) (s : State), s.epUp k = false ∨ off % 4 ≠ 0 ∨ s.stopped k = false ∧ 0x40 ≤ off ∧ off < 0x78 →
    exec (.registerWrite (.bar0 k) off v) s = .next s)
  ∧ (∀ (v : BitVec 32) (s : State), s.sbUp = true →
    exec (.registerWrite .sideband 0x08 v) s = .next (s.updRst fun r => { r with seen := r.seen &&& ~~~v.setWidth 11 })
    ∧ exec (.registerWrite .sideband 0x00 v) s = .next (s.updMgmt fun m => { m with sbRefused := true })
    ∧ exec (.registerWrite .sideband 0x10 v) s = .next (s.updMgmt fun m => { m with sbSel := v.toNat % 256 })
    ∧ exec (.registerWrite .sideband 0x1C v) s = (if v = 0xA5 then exec .sbRelease s
        else .next (s.updMgmt fun m => { m with sbRefused := true }))
    ∧ exec (.registerWrite .sideband 0x20 v) s = (if v = 0x5E then exec .sbResetWarm s else if v = 0xC0 then exec .sbResetCold s
        else .next (s.updMgmt fun m => { m with sbRefused := true })))
  ∧ (∀ (off : Nat) (v : BitVec 32) (s : State), s.sbUp = false ∨ off % 4 ≠ 0 → exec (.registerWrite .sideband off v) s = .next s)

/-- A step takes the command at the front of the queue and runs it on the rest. On an empty queue the block idles: the model's choice, of
log entry 3. -/
def Obligations.StepRunsTheFrontCommand : Prop :=
  (∀ (s : State) (c : Instr) (rest : List Instr), s.pending = c :: rest → step s = exec c { s with pending := rest })
  ∧ (∀ (s : State), s.pending = [] → step s = .next s)

/-- What the spec gives for reset: the power-on source asserted and every domain in reset (R436), insertion mode (R424), partition 0
owning every channel, port group, lane and MAC (R44) and holding the whole quotas (R507), no channel open (R90), the queues at the
defaults of Table 5.11, the shaper and counter tables empty (R20, R185), the thresholds and the watchdog timeout at their defaults (R492,
R503), no ring running (R516) and no command waiting; and the tables are in their canonical form. -/
def Obligations.ResetLeavesTheSpecsValues : Prop :=
  let s := State.reset
  s.rst.asserted = [0] ∧ (∀ d, (s.pdom d).inReset = true ∧ s.alive d = false) ∧ s.pwr.insMode = true
    ∧ (∀ c, (s.chan c).owner = 0 ∧ (s.chan c).tc.opened = false ∧ (s.chan c).ctr = []) ∧ (∀ p, (s.port p).owner = 0)
    ∧ (∀ l, s.laneOwner l = 0) ∧ (∀ m, s.macOwner m = 0) ∧ (s.part 0).quotas = wholeQuotas
    ∧ s.queues = [] ∧ s.peaks = [] ∧ s.policers = [] ∧ s.mgmt.minorT = 95 ∧ s.mgmt.majorT = 105 ∧ s.mgmt.wdogNext = 1000
    ∧ (∀ k, (s.ep k).run = false ∧ (s.ep k).epoch = 0) ∧ s.out = [] ∧ s.pending = []

/-- A stale command is consumed with no effect and no completion, and counted (R524): posted on a still ring, only the indices, the
expected SEQ of a first command (R523, R592) and the count change; and so at the head of a ring's commands, or of those kept from before a
restart, whatever else stands there. Where the spec leaves a choice it is the model's, of log entry 15. -/
def Obligations.StaleCommandsAreDiscarded : Prop :=
  (∀ (s : State) (c : RawCmd), let k := c.hdr.ep.val
    let e := s.ep k
    let n := BitVec.ofNat 32 (State.unitsOf c)
    s.Still → s.epUp k = true → e.run = true → s.fw.ready = true → s.rst.devReset = none → e.cmdCi = e.cmdPi →
    State.unitsOf c ≤ 1025 → State.unitsOf c ≤ 2 ^ e.cmdSize → c.opcode ≠ 1 → c.hdr.epoch ≠ e.epoch →
    exec (.mbxDoorbell c.hdr.ep (e.cmdPi + n) [c]) s = .next (
      ((s.updEp k fun e => { e with cmdPi := e.cmdPi + n, cmdCi := e.cmdPi + n }).writeIndex k).updEp k fun e => { e with
        expSeq := if e.expSeq = none ∧ e.seqReset = false then some (c.hdr.seq + 1) else e.expSeq
        stale := min (e.stale + 1) 0xFFFFFFFF }))
  ∧ (∀ (s : State) (k : EpId) (c : RawCmd) (rest : List RawCmd), (s.ep k).waiting = c :: rest → c.opcode ≠ 1 →
    c.hdr.epoch ≠ (s.ep k).epoch →
    s.processHead k = some (s.updEp k fun e => { e with
      waiting := rest, fetched := e.fetched - 1, stale := min (e.stale + 1) 0xFFFFFFFF
      expSeq := if e.expSeq = none ∧ e.seqReset = false then some (c.hdr.seq + 1) else e.expSeq }))
  ∧ (∀ (s : State) (k : EpId) (c : RawCmd) (rest : List RawCmd), (s.ep k).kept = c :: rest → (s.ep k).keptOrphan = false →
    c.opcode ≠ 1 → c.hdr.epoch ≠ (s.ep k).epoch →
    s.processKept k = some (s.updEp k fun e => { e with kept := rest, stale := min (e.stale + 1) 0xFFFFFFFF }))

/-- An opcode that no table of chapter 18 lists completes with BAD_OPCODE (R546). -/
def Obligations.UnlistedOpcodesCompleteWithBadOpcode : Prop :=
  ∀ (s : State) (c : RawCmd), s.Takes c 0 → c.opcode.toNat ∉ catalogue →
    exec (.mbxDoorbell c.hdr.ep ((s.ep c.hdr.ep).cmdPi + BitVec.ofNat 32 (State.unitsOf c)) [c]) s = .next (
      State.failOf (s.taken c) c 0x10)

/-- Every command of the catalogue that comes to a status other than OK and PENDING_ASYNC and does not go on applying has had no effect
(R527): only the ring's indices, its expected SEQ and the completion with that status have changed, whatever the command and its operands.
Where the spec leaves a choice it is the model's, of log entries 16, 17. -/
def Obligations.RefusedCommandsHaveNoEffect : Prop :=
  ∀ (s : State) (c : RawCmd), let r := (s.taken c).applyCmd c
    s.Takes c 0 → c.opcode ≠ 1 → c.opcode ≠ 2 → r.status ≠ stOk → r.status ≠ stPending → r.status ≠ stApplying →
    exec (.mbxDoorbell c.hdr.ep ((s.ep c.hdr.ep).cmdPi + BitVec.ofNat 32 (State.unitsOf c)) [c]) s = .next (
      State.failOf (s.taken c) c r.status r.detail)

/-- Statistics counters do not wrap: one raised by n saturates at all ones and its neighbours stay (R20); ring indices, sequence numbers
and the superframe counter wrap. -/
def Obligations.CountersSaturate : Prop :=
  (∀ (s : State) (c : Nat) (k : ChanCtr) (n : Nat), (s.chan c).ctr.get k.ctorIdx ≤ 2 ^ 64 - 1 →
    ((s.bump c k n).chan c).ctr.get k.ctorIdx = min ((s.chan c).ctr.get k.ctorIdx + n) (2 ^ 64 - 1)
    ∧ (∀ j : ChanCtr, j ≠ k → ((s.bump c k n).chan c).ctr.get j.ctorIdx = (s.chan c).ctr.get j.ctorIdx))
  ∧ (∀ (s : State) (c : RawCmd), (s.ep c.hdr.ep).cmdPi = 0xFFFFFFFF → State.unitsOf c = 1 → c.hdr.seq = 0xFFFFFFFF →
    ((s.taken c).ep c.hdr.ep).cmdPi = 0 ∧ ((s.taken c).ep c.hdr.ep).expSeq = some 0)
  ∧ sfcDiff 0 0xFFFFFFFFFFFF = 1

/-- Every downstream TCM laid out by Tables 3.4 to 3.6, its counts fitting their bytes, is read back whole from the payload of its control
segment: type, identifier, sequence number and every field of its body at every value. -/
def Obligations.MessagesAreReadAsLaidOut : Prop :=
  ∀ (h : TcmHdr) (m : DownTcm), m.fits = true → parseTcm h.flowTag (tcmBytes h m) = .ok (h, m)

/-- The anti-rollback counter never falls, and it advances only through FUSE.SVN.ADVANCE (R475): from every state, a step on any command,
or on an empty queue, leaves at least as many fuses burned, and exactly as many unless a FUSE.SVN.ADVANCE accepted earlier is open. How
many an interrupted burn leaves is a free value, which the statement does not rest on. -/
def Obligations.RollbackCounterNeverFalls : Prop :=
  ∀ s t : State, step s = .next t →
    s.fw.svn ≤ t.fw.svn ∧ (t.fw.svn ≠ s.fw.svn → ∃ o ∈ s.fw.ops, o.opcode = 0x0E05)

/-- What a line lane sends is read back. A receiver that corrects the polarity and whose descrambler follows the scrambler takes from the
65 symbols of a block its header, its 16 bytes and the register after them, whatever the marker bit and the lane's inversion (R384 to
R386, R395); the stream bytes dealt over the four lanes come back in their order (R387); one wrong bit on a lane makes no bit wrong but
its own and those 39 and 58 further on (R386); the marker bits of a lane's blocks are the words of Table 12.1, every 16,384 blocks, and
between them every header is 01 (R385, R390). -/
def Obligations.LaneBlocksAreReadBack : Prop :=
  (∀ (m inv : Bool) (r : BitVec 58) (bytes : List Byte), let x := laneBlock m r bytes
    bytes.length = 16 →
    x.1.length = 65 ∧ readBlock inv r (invertLevels inv x.1) = ([m, !m], bytes, x.2))
  ∧ (∀ bytes : List Byte, bytes.length % 64 = 0 → joinShares ((List.range 4).map fun l => laneShare l bytes) = bytes)
  ∧ (∀ (r : BitVec 58) (bits : List Bool) (i j : Nat),
    let sent := (laneScramble r bits).1
    i < bits.length → (laneDescramble r (sent.modify i fun b => !b)).1[j]? ≠ bits[j]? → j = i ∨ j = i + 39 ∨ j = i + 58)
  ∧ (∀ (lane : Fin 4) (k j : Nat), j < 16384 →
    markerBit lane (16384 * k + j) = if j < 64 then (laneMarkerWord lane k).getLsbD (63 - j) else false)

/-- A command laid out in its ring by Table 17.8 is read back whole, whatever follows it in its last unit: opcode, flags, tag, SEQ, epoch,
reserved bits and every byte of its payload at every value (R6, R519). A completion, an event and the index block have the lengths of
Tables 17.9, 17.11 and 17.7. -/
def Obligations.CommandsAreReadFromTheRing : Prop :=
  (∀ (c : RawCmd) (rest : List Byte), c.payload.length < 2 ^ 32 →
    RawCmd.ofImage c.hdr.ep (Machine.RawCmd.image c ++ rest) = c)
  ∧ (∀ c : Completion, c.image.length = 32 + c.reply.length)
  ∧ (∀ (e : EvRec) (tag : BitVec 32) (epoch : BitVec 16) (status : Nat) (loss : Bool),
    (eventImage e tag epoch status loss).length = 32 + e.detail.length)
  ∧ (∀ (a b c d e : BitVec 32) (epoch : BitVec 16), (indexImage a b c d e epoch).length = 64)

/-- A 64-bit register reads as one value: its lowest-addressed word latches it, and the other word then gives the high half of the value
latched, whatever the register has become since (R15, R512). Bits that no field holds, offsets not listed and the doorbell read as zero
(R10, R13); an endpoint that does not answer reads as all ones and nothing changes (R17). The key-wrap registers but the lock read as zero
to another user than the owner, and the owner's first read of the lock clears LOST (R303). -/
def Obligations.RegistersAreRead : Prop :=
  (∀ (k : EpId) (off v : Nat) (s t : State), s.bar0Wide k off = some v → s.epUp k = true → t.epUp k = true →
    (t.ep k).latch = ((s.readBar0 k off).2.ep k).latch →
    (s.readBar0 k off).1 + 2 ^ 32 * (t.readBar0 k (off + 4)).1 = v)
  ∧ (∀ (k : EpId) (off : Nat) (s : State), s.epUp k = false → s.readBar0 k off = (0xFFFFFFFF, s))
  ∧ (∀ (k : EpId) (off : Nat) (s : State), s.epUp k = true → (off = 0x10 ∨ 0x78 ≤ off ∧ off < 0x100 ∨ 0x2100 ≤ off ∧ off < 0x3000) →
    (s.readBar0 k off).1 = 0)
  ∧ (∀ (k : EpId) (off : Nat) (s : State), s.epUp k = true → s.alive 1 = true → s.gorse.kwe.owner ≠ k.val → 0x304 ≤ off →
    off < 0x318 → (s.readBar0 k off).1 = 0)
  ∧ (∀ (k : EpId) (s : State), let t := s.readBar0 k 0x300
    s.epUp k = true → s.alive 1 = true → s.gorse.kwe.owner = k.val →
    t.1 = s.kweLock.toNat ∧ t.2.gorse.kwe = { s.gorse.kwe with lost := false })
end

