-- ==== Sys2Proof/Laws/Tab.lean ====
section
/-! SUPPORT. Tables of numbered resources: reading after writing, and that every table operation keeps the canonical form. -/

namespace Sys2Proof.Machine.Tab

variable {α : Type} {d : α}

theorem get_erase (t : Tab α) (k j : Nat) : Tab.get d (Tab.erase t k) j = if j = k then d else Tab.get d t j := by
  induction t with
  | nil => simp [Tab.erase, Tab.get]
  | cons p t ih =>
    obtain ⟨i, v⟩ := p
    by_cases h : i = k
    · subst h
      simp only [Tab.erase, if_true, ih, Tab.get]
      by_cases hj : j = i
      · simp [hj]
      · simp [hj, Ne.symm hj]
    · simp only [Tab.erase, if_neg h, Tab.get, ih]
      by_cases hj : i = j
      · subst hj; simp [h]
      · simp [hj]

theorem not_mem_erase (t : Tab α) (k : Nat) : ∀ p ∈ Tab.erase t k, p.1 ≠ k := by
  induction t with
  | nil => simp [Tab.erase]
  | cons p t ih =>
    obtain ⟨i, v⟩ := p
    by_cases h : i = k
    · simpa [Tab.erase, h] using ih
    · simp only [Tab.erase, if_neg h, List.mem_cons]
      rintro q (rfl | hq)
      · exact h
      · exact ih q hq

theorem get_insert (t : Tab α) (k j : Nat) (x : α) (h : ∀ p ∈ t, p.1 ≠ k) :
    Tab.get d (Tab.insert t k x) j = if j = k then x else Tab.get d t j := by
  induction t with
  | nil => simp [Tab.insert, Tab.get, eq_comm]
  | cons p t ih =>
    obtain ⟨i, v⟩ := p
    have hik : i ≠ k := h (i, v) (by simp)
    have ih := ih fun p hp => h p (by simp [hp])
    simp only [Tab.insert]
    split
    · simp [Tab.get, eq_comm]
    · simp only [Tab.get, ih]
      by_cases hj : i = j
      · subst hj; simp [hik]
      · simp [hj]

@[simp] theorem get_nil (k : Nat) : Tab.get d [] k = d := rfl

theorem get_absent (t : Tab α) (k : Nat) (h : ∀ v, (k, v) ∉ t) : Tab.get d t k = d := by
  induction t with
  | nil => rfl
  | cons q t ih =>
    obtain ⟨j, w⟩ := q
    have hj : j ≠ k := by rintro rfl; exact h w (by simp)
    simp only [Tab.get, if_neg hj]
    exact ih fun v hv => h v (by simp [hv])

theorem mem_erase {t : Tab α} {k : Nat} {p : Nat × α} (h : p ∈ Tab.erase t k) : p ∈ t := by
  induction t with
  | nil => simp [Tab.erase] at h
  | cons q t ih =>
    obtain ⟨i, v⟩ := q
    simp only [Tab.erase] at h
    split at h
    · exact List.mem_cons_of_mem _ (ih h)
    · rcases List.mem_cons.1 h with rfl | h
      · simp
      · exact List.mem_cons_of_mem _ (ih h)

theorem mem_insert {t : Tab α} {k : Nat} {x : α} {p : Nat × α} (h : p ∈ Tab.insert t k x) : p = (k, x) ∨ p ∈ t := by
  induction t with
  | nil => simpa [Tab.insert] using h
  | cons q t ih =>
    obtain ⟨i, v⟩ := q
    simp only [Tab.insert] at h
    split at h
    · simpa [or_assoc] using h
    · rcases List.mem_cons.1 h with rfl | h
      · simp
      · rcases ih h with h | h
        · exact .inl h
        · exact .inr (by simp [h])

variable [DecidableEq α]

/-- Reading a table after one entry has been replaced. -/
@[simp] theorem get_set (t : Tab α) (k j : Nat) (x : α) : Tab.get d (Tab.set d t k x) j = if j = k then x else Tab.get d t j := by
  unfold Tab.set
  split
  · rw [get_erase]; simp_all
  · rw [get_insert _ _ _ _ (not_mem_erase t k), get_erase]
    by_cases hj : j = k <;> simp [hj]

/-- Reading a table after one entry has been changed. -/
@[simp] theorem get_upd (t : Tab α) (k j : Nat) (f : α → α) :
    Tab.get d (Tab.upd d t k f) j = if j = k then f (Tab.get d t k) else Tab.get d t j := get_set t k j _

/-- Changing every value by a function that keeps the default changes every reading. -/
theorem get_mapVals (f : Nat → α → α) (hf : ∀ i, f i d = d) (t : Tab α) (hn : (t.map (·.1)).Nodup) (k : Nat) :
    Tab.get d (Tab.mapVals d f t) k = f k (Tab.get d t k) := by
  induction t with
  | nil => simp [Tab.mapVals, Tab.get, hf]
  | cons p t ih =>
    obtain ⟨i, v⟩ := p
    simp only [List.map_cons, List.nodup_cons] at hn
    have ih := ih hn.2
    unfold Tab.mapVals at ih ⊢
    simp only [List.map_cons, List.filter_cons]
    by_cases hk : i = k
    · subst hk
      by_cases hv : f i v = d
      · simp only [hv, ne_eq, not_true_eq_false, decide_false, Tab.get, if_true, Bool.false_eq_true, if_false]
        rw [ih, get_absent t i (by simpa using hn.1), hf]
      · simp [hv, Tab.get]
    · by_cases hv : f i v = d
      · simp only [hv, ne_eq, not_true_eq_false, decide_false, Bool.false_eq_true, if_false, Tab.get, if_neg hk]
        exact ih
      · simp only [hv, ne_eq, not_false_eq_true, decide_true, if_true, Tab.get, if_neg hk]
        exact ih

theorem erase_of_not_mem (t : Tab α) (k : Nat) (h : ∀ p ∈ t, p.1 ≠ k) : Tab.erase t k = t := by
  induction t with
  | nil => rfl
  | cons p t ih =>
    obtain ⟨i, v⟩ := p
    have : i ≠ k := h (i, v) (by simp)
    simp only [Tab.erase, if_neg this, ih fun p hp => h p (by simp [hp])]

theorem erase_insert (t : Tab α) (k : Nat) (x : α) (h : ∀ p ∈ t, p.1 ≠ k) : Tab.erase (Tab.insert t k x) k = t := by
  induction t with
  | nil => simp [Tab.insert, Tab.erase]
  | cons p t ih =>
    obtain ⟨i, v⟩ := p
    have hi : i ≠ k := h (i, v) (by simp)
    have ht : ∀ p ∈ t, p.1 ≠ k := fun p hp => h p (by simp [hp])
    simp only [Tab.insert]
    split
    · simp only [Tab.erase, if_true, if_neg hi, erase_of_not_mem t k ht]
    · simp only [Tab.erase, if_neg hi, ih ht]

theorem erase_set (t : Tab α) (k : Nat) (x : α) : Tab.erase (Tab.set d t k x) k = Tab.erase t k := by
  unfold Tab.set
  split
  · exact erase_of_not_mem _ _ (not_mem_erase t k)
  · exact erase_insert _ _ _ (not_mem_erase t k)

/-- Replacing an entry twice keeps the second value. -/
theorem set_set (t : Tab α) (k : Nat) (x y : α) : Tab.set d (Tab.set d t k x) k y = Tab.set d t k y := by
  rw [Tab.set, erase_set]; rfl

/-- Two changes of one entry are one change. -/
theorem upd_upd (t : Tab α) (k : Nat) (f g : α → α) : Tab.upd d (Tab.upd d t k f) k g = Tab.upd d t k fun x => g (f x) := by
  simp only [Tab.upd, get_set, if_true, set_set]

/-- A change depends on the value it meets alone. -/
theorem upd_congr (t : Tab α) (k : Nat) (f g : α → α) (h : f (Tab.get d t k) = g (Tab.get d t k)) :
    Tab.upd d t k f = Tab.upd d t k g := by
  simp only [Tab.upd, h]

/-! ### The canonical form -/

theorem wf_cons (i : Nat) (v : α) (t : Tab α) :
    Tab.wf d ((i, v) :: t) = true ↔ v ≠ d ∧ (∀ p ∈ t, i < p.1) ∧ Tab.wf d t = true := by
  simp [Tab.wf, Bool.and_eq_true, List.all_eq_true, and_assoc]

theorem wf_erase (t : Tab α) (k : Nat) (h : Tab.wf d t = true) : Tab.wf d (Tab.erase t k) = true := by
  induction t with
  | nil => rfl
  | cons p t ih =>
    obtain ⟨i, v⟩ := p
    rw [wf_cons] at h
    simp only [Tab.erase]
    split
    · exact ih h.2.2
    · rw [wf_cons]; exact ⟨h.1, fun p hp => h.2.1 p (mem_erase hp), ih h.2.2⟩

theorem wf_insert (t : Tab α) (k : Nat) (x : α) (hx : x ≠ d) (hk : ∀ p ∈ t, p.1 ≠ k) (h : Tab.wf d t = true) :
    Tab.wf d (Tab.insert t k x) = true := by
  induction t with
  | nil => simp [Tab.insert, Tab.wf, hx]
  | cons p t ih =>
    obtain ⟨i, v⟩ := p
    have h' := h
    rw [wf_cons] at h
    simp only [Tab.insert]
    split
    · rename_i hki
      rw [wf_cons]
      refine ⟨hx, ?_, h'⟩
      rintro p hp
      rcases List.mem_cons.1 hp with rfl | hp
      · exact hki
      · exact lt_trans hki (h.2.1 p hp)
    · rename_i hki
      have hne : i ≠ k := hk (i, v) (by simp)
      rw [wf_cons]
      refine ⟨h.1, ?_, ih (fun p hp => hk p (by simp [hp])) h.2.2⟩
      intro p hp
      rcases mem_insert hp with rfl | hp
      · simp only; omega
      · exact h.2.1 p hp

/-- Replacing an entry keeps the canonical form. -/
theorem wf_set (t : Tab α) (k : Nat) (x : α) (h : Tab.wf d t = true) : Tab.wf d (Tab.set d t k x) = true := by
  unfold Tab.set
  split
  · exact wf_erase t k h
  · rename_i hx; exact wf_insert _ k x hx (not_mem_erase t k) (wf_erase t k h)

/-- Changing an entry keeps the canonical form. -/
theorem wf_upd (t : Tab α) (k : Nat) (f : α → α) (h : Tab.wf d t = true) : Tab.wf d (Tab.upd d t k f) = true := wf_set t k _ h

/-- Changing every value keeps the canonical form. -/
theorem wf_mapVals (f : Nat → α → α) (t : Tab α) (h : Tab.wf d t = true) : Tab.wf d (Tab.mapVals d f t) = true := by
  unfold Tab.mapVals
  induction t with
  | nil => rfl
  | cons p t ih =>
    obtain ⟨i, v⟩ := p
    rw [wf_cons] at h
    simp only [List.map_cons, List.filter_cons]
    split
    · rename_i hv
      rw [wf_cons]
      refine ⟨by simpa using hv, ?_, ih h.2.2⟩
      intro p hp
      simp only [List.mem_filter, List.mem_map] at hp
      obtain ⟨⟨q, hq, rfl⟩, -⟩ := hp
      exact h.2.1 q hq
    · exact ih h.2.2

/-- Two canonical tables that read alike are equal. -/
theorem ext_wf (t u : Tab α) (ht : Tab.wf d t = true) (hu : Tab.wf d u = true) (h : ∀ k, Tab.get d t k = Tab.get d u k) : t = u := by
  have absent : ∀ (t : Tab α) (k : Nat), (∀ p ∈ t, k < p.1) → Tab.get d t k = d := by
    intro t k hk
    induction t with
    | nil => rfl
    | cons p t ih =>
      obtain ⟨i, v⟩ := p
      have : k < i := hk (i, v) (by simp)
      simp only [Tab.get, if_neg (Nat.ne_of_gt this)]
      exact ih fun p hp => hk p (by simp [hp])
  induction t generalizing u with
  | nil =>
    cases u with
    | nil => rfl
    | cons p u =>
      obtain ⟨i, v⟩ := p
      rw [wf_cons] at hu
      exact absurd (by simpa [Tab.get] using (h i).symm) hu.1
  | cons p t ih =>
    obtain ⟨i, v⟩ := p
    rw [wf_cons] at ht
    cases u with
    | nil => exact absurd (by simpa [Tab.get] using h i) ht.1
    | cons q u =>
      obtain ⟨j, w⟩ := q
      rw [wf_cons] at hu
      have hij : i = j := by
        rcases lt_trichotomy i j with hlt | he | hlt
        · have := h i
          rw [absent ((j, w) :: u) i (by
            rintro p hp
            rcases List.mem_cons.1 hp with rfl | hp
            · exact hlt
            · exact lt_trans hlt (hu.2.1 p hp))] at this
          exact absurd (by simpa [Tab.get] using this) ht.1
        · exact he
        · have := h j
          rw [absent ((i, v) :: t) j (by
            rintro p hp
            rcases List.mem_cons.1 hp with rfl | hp
            · exact hlt
            · exact lt_trans hlt (ht.2.1 p hp))] at this
          exact absurd (by simpa [Tab.get] using this.symm) hu.1
      subst hij
      have hv : v = w := by simpa [Tab.get] using h i
      subst hv
      congr 1
      refine ih u ht.2.2 hu.2.2 fun k => ?_
      by_cases hk : i = k
      · subst hk; rw [absent t i ht.2.1, absent u i hu.2.1]
      · simpa [Tab.get, hk] using h k

/-- A canonical table with one entry replaced by itself. -/
theorem set_get_self (t : Tab α) (k : Nat) (h : Tab.wf d t = true) : Tab.set d t k (Tab.get d t k) = t := by
  refine ext_wf _ _ (wf_set t k _ h) h fun j => ?_
  rw [get_set]; split
  · rename_i e; rw [e]
  · rfl

end Sys2Proof.Machine.Tab
end

