-- ==== Sys2Proof/Laws/State.lean ====
section
/-! SUPPORT. The state after each of its updates: one lemma per field and per resource read, so that no later proof unfolds an update. -/

namespace Sys2Proof.Machine.State

variable (s : State) (i j : Nat)

section
variable (f : ChanSt → ChanSt)

@[simp] theorem chan_updChan : (s.updChan i f).chan j = if j = i then f (s.chan i) else s.chan j := Tab.get_upd _ _ _ _
theorem updChan_updChan (g : ChanSt → ChanSt) : (s.updChan i f).updChan i g = s.updChan i fun x => g (f x) := by
  simp only [updChan, Tab.upd_upd]
theorem updChan_congr (g : ChanSt → ChanSt) (h : f (s.chan i) = g (s.chan i)) : s.updChan i f = s.updChan i g := by
  simp only [updChan, Tab.upd_congr _ _ f g h]
theorem updChan_emit (x : Out) : (s.emit x).updChan i f = (s.updChan i f).emit x := rfl
@[simp] theorem queue_updChan : (s.updChan i f).queue j = s.queue j := rfl
@[simp] theorem alloc_updChan : (s.updChan i f).alloc j = s.alloc j := rfl
@[simp] theorem peak_updChan : (s.updChan i f).peak j = s.peak j := rfl
@[simp] theorem policer_updChan : (s.updChan i f).policer j = s.policer j := rfl
@[simp] theorem slice_updChan : (s.updChan i f).slice j = s.slice j := rfl
@[simp] theorem bond_updChan : (s.updChan i f).bond j = s.bond j := rfl
@[simp] theorem lag_updChan : (s.updChan i f).lag j = s.lag j := rfl
@[simp] theorem port_updChan : (s.updChan i f).port j = s.port j := rfl
@[simp] theorem mac_updChan : (s.updChan i f).mac j = s.mac j := rfl
@[simp] theorem lane_updChan : (s.updChan i f).lane j = s.lane j := rfl
@[simp] theorem part_updChan : (s.updChan i f).part j = s.part j := rfl
@[simp] theorem ep_updChan : (s.updChan i f).ep j = s.ep j := rfl
@[simp] theorem pdom_updChan : (s.updChan i f).pdom j = s.pdom j := rfl
@[simp] theorem dom_updChan : (s.updChan i f).dom j = s.dom j := rfl
@[simp] theorem trig_updChan : (s.updChan i f).trig j = s.trig j := rfl
@[simp] theorem capt_updChan : (s.updChan i f).capt j = s.capt j := rfl
@[simp] theorem ptp_updChan : (s.updChan i f).ptp j = s.ptp j := rfl
@[simp] theorem stream_updChan : (s.updChan i f).stream j = s.stream j := rfl
@[simp] theorem bank_updChan : (s.updChan i f).bank j = s.bank j := rfl
@[simp] theorem stack_updChan : (s.updChan i f).stack j = s.stack j := rfl
@[simp] theorem pin_updChan : (s.updChan i f).pin j = s.pin j := rfl
@[simp] theorem queues_updChan : (s.updChan i f).queues = s.queues := rfl
@[simp] theorem allocs_updChan : (s.updChan i f).allocs = s.allocs := rfl
@[simp] theorem peaks_updChan : (s.updChan i f).peaks = s.peaks := rfl
@[simp] theorem policers_updChan : (s.updChan i f).policers = s.policers := rfl
@[simp] theorem rules_updChan : (s.updChan i f).rules = s.rules := rfl
@[simp] theorem counters_updChan : (s.updChan i f).counters = s.counters := rfl
@[simp] theorem slices_updChan : (s.updChan i f).slices = s.slices := rfl
@[simp] theorem bonds_updChan : (s.updChan i f).bonds = s.bonds := rfl
@[simp] theorem lags_updChan : (s.updChan i f).lags = s.lags := rfl
@[simp] theorem mem_updChan : (s.updChan i f).mem = s.mem := rfl
@[simp] theorem gorse_updChan : (s.updChan i f).gorse = s.gorse := rfl
@[simp] theorem time_updChan : (s.updChan i f).time = s.time := rfl
@[simp] theorem trib_updChan : (s.updChan i f).trib = s.trib := rfl
@[simp] theorem ports_updChan : (s.updChan i f).ports = s.ports := rfl
@[simp] theorem macs_updChan : (s.updChan i f).macs = s.macs := rfl
@[simp] theorem lanes_updChan : (s.updChan i f).lanes = s.lanes := rfl
@[simp] theorem pwr_updChan : (s.updChan i f).pwr = s.pwr := rfl
@[simp] theorem rst_updChan : (s.updChan i f).rst = s.rst := rfl
@[simp] theorem fw_updChan : (s.updChan i f).fw = s.fw := rfl
@[simp] theorem mgmt_updChan : (s.updChan i f).mgmt = s.mgmt := rfl
@[simp] theorem parts_updChan : (s.updChan i f).parts = s.parts := rfl
@[simp] theorem eps_updChan : (s.updChan i f).eps = s.eps := rfl
@[simp] theorem out_updChan : (s.updChan i f).out = s.out := rfl
@[simp] theorem now_updChan : (s.updChan i f).now = s.now := rfl
@[simp] theorem draws_updChan : (s.updChan i f).draws = s.draws := rfl
@[simp] theorem nextFrame_updChan : (s.updChan i f).nextFrame = s.nextFrame := rfl
@[simp] theorem pending_updChan : (s.updChan i f).pending = s.pending := rfl

end

section
variable (f : QueueSt → QueueSt)

@[simp] theorem queue_updQueue : (s.updQueue i f).queue j = if j = i then f (s.queue i) else s.queue j := Tab.get_upd _ _ _ _
theorem updQueue_updQueue (g : QueueSt → QueueSt) : (s.updQueue i f).updQueue i g = s.updQueue i fun x => g (f x) := by
  simp only [updQueue, Tab.upd_upd]
theorem updQueue_congr (g : QueueSt → QueueSt) (h : f (s.queue i) = g (s.queue i)) : s.updQueue i f = s.updQueue i g := by
  simp only [updQueue, Tab.upd_congr _ _ f g h]
theorem updQueue_emit (x : Out) : (s.emit x).updQueue i f = (s.updQueue i f).emit x := rfl
@[simp] theorem chan_updQueue : (s.updQueue i f).chan j = s.chan j := rfl
@[simp] theorem alloc_updQueue : (s.updQueue i f).alloc j = s.alloc j := rfl
@[simp] theorem peak_updQueue : (s.updQueue i f).peak j = s.peak j := rfl
@[simp] theorem policer_updQueue : (s.updQueue i f).policer j = s.policer j := rfl
@[simp] theorem slice_updQueue : (s.updQueue i f).slice j = s.slice j := rfl
@[simp] theorem bond_updQueue : (s.updQueue i f).bond j = s.bond j := rfl
@[simp] theorem lag_updQueue : (s.updQueue i f).lag j = s.lag j := rfl
@[simp] theorem port_updQueue : (s.updQueue i f).port j = s.port j := rfl
@[simp] theorem mac_updQueue : (s.updQueue i f).mac j = s.mac j := rfl
@[simp] theorem lane_updQueue : (s.updQueue i f).lane j = s.lane j := rfl
@[simp] theorem part_updQueue : (s.updQueue i f).part j = s.part j := rfl
@[simp] theorem ep_updQueue : (s.updQueue i f).ep j = s.ep j := rfl
@[simp] theorem pdom_updQueue : (s.updQueue i f).pdom j = s.pdom j := rfl
@[simp] theorem dom_updQueue : (s.updQueue i f).dom j = s.dom j := rfl
@[simp] theorem trig_updQueue : (s.updQueue i f).trig j = s.trig j := rfl
@[simp] theorem capt_updQueue : (s.updQueue i f).capt j = s.capt j := rfl
@[simp] theorem ptp_updQueue : (s.updQueue i f).ptp j = s.ptp j := rfl
@[simp] theorem stream_updQueue : (s.updQueue i f).stream j = s.stream j := rfl
@[simp] theorem bank_updQueue : (s.updQueue i f).bank j = s.bank j := rfl
@[simp] theorem stack_updQueue : (s.updQueue i f).stack j = s.stack j := rfl
@[simp] theorem pin_updQueue : (s.updQueue i f).pin j = s.pin j := rfl
@[simp] theorem chans_updQueue : (s.updQueue i f).chans = s.chans := rfl
@[simp] theorem allocs_updQueue : (s.updQueue i f).allocs = s.allocs := rfl
@[simp] theorem peaks_updQueue : (s.updQueue i f).peaks = s.peaks := rfl
@[simp] theorem policers_updQueue : (s.updQueue i f).policers = s.policers := rfl
@[simp] theorem rules_updQueue : (s.updQueue i f).rules = s.rules := rfl
@[simp] theorem counters_updQueue : (s.updQueue i f).counters = s.counters := rfl
@[simp] theorem slices_updQueue : (s.updQueue i f).slices = s.slices := rfl
@[simp] theorem bonds_updQueue : (s.updQueue i f).bonds = s.bonds := rfl
@[simp] theorem lags_updQueue : (s.updQueue i f).lags = s.lags := rfl
@[simp] theorem mem_updQueue : (s.updQueue i f).mem = s.mem := rfl
@[simp] theorem gorse_updQueue : (s.updQueue i f).gorse = s.gorse := rfl
@[simp] theorem time_updQueue : (s.updQueue i f).time = s.time := rfl
@[simp] theorem trib_updQueue : (s.updQueue i f).trib = s.trib := rfl
@[simp] theorem ports_updQueue : (s.updQueue i f).ports = s.ports := rfl
@[simp] theorem macs_updQueue : (s.updQueue i f).macs = s.macs := rfl
@[simp] theorem lanes_updQueue : (s.updQueue i f).lanes = s.lanes := rfl
@[simp] theorem pwr_updQueue : (s.updQueue i f).pwr = s.pwr := rfl
@[simp] theorem rst_updQueue : (s.updQueue i f).rst = s.rst := rfl
@[simp] theorem fw_updQueue : (s.updQueue i f).fw = s.fw := rfl
@[simp] theorem mgmt_updQueue : (s.updQueue i f).mgmt = s.mgmt := rfl
@[simp] theorem parts_updQueue : (s.updQueue i f).parts = s.parts := rfl
@[simp] theorem eps_updQueue : (s.updQueue i f).eps = s.eps := rfl
@[simp] theorem out_updQueue : (s.updQueue i f).out = s.out := rfl
@[simp] theorem now_updQueue : (s.updQueue i f).now = s.now := rfl
@[simp] theorem draws_updQueue : (s.updQueue i f).draws = s.draws := rfl
@[simp] theorem nextFrame_updQueue : (s.updQueue i f).nextFrame = s.nextFrame := rfl
@[simp] theorem pending_updQueue : (s.updQueue i f).pending = s.pending := rfl

end

section
variable (f : AllocSt → AllocSt)

@[simp] theorem alloc_updAlloc : (s.updAlloc i f).alloc j = if j = i then f (s.alloc i) else s.alloc j := Tab.get_upd _ _ _ _
theorem updAlloc_updAlloc (g : AllocSt → AllocSt) : (s.updAlloc i f).updAlloc i g = s.updAlloc i fun x => g (f x) := by
  simp only [updAlloc, Tab.upd_upd]
theorem updAlloc_congr (g : AllocSt → AllocSt) (h : f (s.alloc i) = g (s.alloc i)) : s.updAlloc i f = s.updAlloc i g := by
  simp only [updAlloc, Tab.upd_congr _ _ f g h]
theorem updAlloc_emit (x : Out) : (s.emit x).updAlloc i f = (s.updAlloc i f).emit x := rfl
@[simp] theorem chan_updAlloc : (s.updAlloc i f).chan j = s.chan j := rfl
@[simp] theorem queue_updAlloc : (s.updAlloc i f).queue j = s.queue j := rfl
@[simp] theorem peak_updAlloc : (s.updAlloc i f).peak j = s.peak j := rfl
@[simp] theorem policer_updAlloc : (s.updAlloc i f).policer j = s.policer j := rfl
@[simp] theorem slice_updAlloc : (s.updAlloc i f).slice j = s.slice j := rfl
@[simp] theorem bond_updAlloc : (s.updAlloc i f).bond j = s.bond j := rfl
@[simp] theorem lag_updAlloc : (s.updAlloc i f).lag j = s.lag j := rfl
@[simp] theorem port_updAlloc : (s.updAlloc i f).port j = s.port j := rfl
@[simp] theorem mac_updAlloc : (s.updAlloc i f).mac j = s.mac j := rfl
@[simp] theorem lane_updAlloc : (s.updAlloc i f).lane j = s.lane j := rfl
@[simp] theorem part_updAlloc : (s.updAlloc i f).part j = s.part j := rfl
@[simp] theorem ep_updAlloc : (s.updAlloc i f).ep j = s.ep j := rfl
@[simp] theorem pdom_updAlloc : (s.updAlloc i f).pdom j = s.pdom j := rfl
@[simp] theorem dom_updAlloc : (s.updAlloc i f).dom j = s.dom j := rfl
@[simp] theorem trig_updAlloc : (s.updAlloc i f).trig j = s.trig j := rfl
@[simp] theorem capt_updAlloc : (s.updAlloc i f).capt j = s.capt j := rfl
@[simp] theorem ptp_updAlloc : (s.updAlloc i f).ptp j = s.ptp j := rfl
@[simp] theorem stream_updAlloc : (s.updAlloc i f).stream j = s.stream j := rfl
@[simp] theorem bank_updAlloc : (s.updAlloc i f).bank j = s.bank j := rfl
@[simp] theorem stack_updAlloc : (s.updAlloc i f).stack j = s.stack j := rfl
@[simp] theorem pin_updAlloc : (s.updAlloc i f).pin j = s.pin j := rfl
@[simp] theorem chans_updAlloc : (s.updAlloc i f).chans = s.chans := rfl
@[simp] theorem queues_updAlloc : (s.updAlloc i f).queues = s.queues := rfl
@[simp] theorem peaks_updAlloc : (s.updAlloc i f).peaks = s.peaks := rfl
@[simp] theorem policers_updAlloc : (s.updAlloc i f).policers = s.policers := rfl
@[simp] theorem rules_updAlloc : (s.updAlloc i f).rules = s.rules := rfl
@[simp] theorem counters_updAlloc : (s.updAlloc i f).counters = s.counters := rfl
@[simp] theorem slices_updAlloc : (s.updAlloc i f).slices = s.slices := rfl
@[simp] theorem bonds_updAlloc : (s.updAlloc i f).bonds = s.bonds := rfl
@[simp] theorem lags_updAlloc : (s.updAlloc i f).lags = s.lags := rfl
@[simp] theorem mem_updAlloc : (s.updAlloc i f).mem = s.mem := rfl
@[simp] theorem gorse_updAlloc : (s.updAlloc i f).gorse = s.gorse := rfl
@[simp] theorem time_updAlloc : (s.updAlloc i f).time = s.time := rfl
@[simp] theorem trib_updAlloc : (s.updAlloc i f).trib = s.trib := rfl
@[simp] theorem ports_updAlloc : (s.updAlloc i f).ports = s.ports := rfl
@[simp] theorem macs_updAlloc : (s.updAlloc i f).macs = s.macs := rfl
@[simp] theorem lanes_updAlloc : (s.updAlloc i f).lanes = s.lanes := rfl
@[simp] theorem pwr_updAlloc : (s.updAlloc i f).pwr = s.pwr := rfl
@[simp] theorem rst_updAlloc : (s.updAlloc i f).rst = s.rst := rfl
@[simp] theorem fw_updAlloc : (s.updAlloc i f).fw = s.fw := rfl
@[simp] theorem mgmt_updAlloc : (s.updAlloc i f).mgmt = s.mgmt := rfl
@[simp] theorem parts_updAlloc : (s.updAlloc i f).parts = s.parts := rfl
@[simp] theorem eps_updAlloc : (s.updAlloc i f).eps = s.eps := rfl
@[simp] theorem out_updAlloc : (s.updAlloc i f).out = s.out := rfl
@[simp] theorem now_updAlloc : (s.updAlloc i f).now = s.now := rfl
@[simp] theorem draws_updAlloc : (s.updAlloc i f).draws = s.draws := rfl
@[simp] theorem nextFrame_updAlloc : (s.updAlloc i f).nextFrame = s.nextFrame := rfl
@[simp] theorem pending_updAlloc : (s.updAlloc i f).pending = s.pending := rfl

end

section
variable (f : Shaper → Shaper)

@[simp] theorem peak_updPeak : (s.updPeak i f).peak j = if j = i then f (s.peak i) else s.peak j := Tab.get_upd _ _ _ _
theorem updPeak_updPeak (g : Shaper → Shaper) : (s.updPeak i f).updPeak i g = s.updPeak i fun x => g (f x) := by
  simp only [updPeak, Tab.upd_upd]
theorem updPeak_congr (g : Shaper → Shaper) (h : f (s.peak i) = g (s.peak i)) : s.updPeak i f = s.updPeak i g := by
  simp only [updPeak, Tab.upd_congr _ _ f g h]
theorem updPeak_emit (x : Out) : (s.emit x).updPeak i f = (s.updPeak i f).emit x := rfl
@[simp] theorem chan_updPeak : (s.updPeak i f).chan j = s.chan j := rfl
@[simp] theorem queue_updPeak : (s.updPeak i f).queue j = s.queue j := rfl
@[simp] theorem alloc_updPeak : (s.updPeak i f).alloc j = s.alloc j := rfl
@[simp] theorem policer_updPeak : (s.updPeak i f).policer j = s.policer j := rfl
@[simp] theorem slice_updPeak : (s.updPeak i f).slice j = s.slice j := rfl
@[simp] theorem bond_updPeak : (s.updPeak i f).bond j = s.bond j := rfl
@[simp] theorem lag_updPeak : (s.updPeak i f).lag j = s.lag j := rfl
@[simp] theorem port_updPeak : (s.updPeak i f).port j = s.port j := rfl
@[simp] theorem mac_updPeak : (s.updPeak i f).mac j = s.mac j := rfl
@[simp] theorem lane_updPeak : (s.updPeak i f).lane j = s.lane j := rfl
@[simp] theorem part_updPeak : (s.updPeak i f).part j = s.part j := rfl
@[simp] theorem ep_updPeak : (s.updPeak i f).ep j = s.ep j := rfl
@[simp] theorem pdom_updPeak : (s.updPeak i f).pdom j = s.pdom j := rfl
@[simp] theorem dom_updPeak : (s.updPeak i f).dom j = s.dom j := rfl
@[simp] theorem trig_updPeak : (s.updPeak i f).trig j = s.trig j := rfl
@[simp] theorem capt_updPeak : (s.updPeak i f).capt j = s.capt j := rfl
@[simp] theorem ptp_updPeak : (s.updPeak i f).ptp j = s.ptp j := rfl
@[simp] theorem stream_updPeak : (s.updPeak i f).stream j = s.stream j := rfl
@[simp] theorem bank_updPeak : (s.updPeak i f).bank j = s.bank j := rfl
@[simp] theorem stack_updPeak : (s.updPeak i f).stack j = s.stack j := rfl
@[simp] theorem pin_updPeak : (s.updPeak i f).pin j = s.pin j := rfl
@[simp] theorem chans_updPeak : (s.updPeak i f).chans = s.chans := rfl
@[simp] theorem queues_updPeak : (s.updPeak i f).queues = s.queues := rfl
@[simp] theorem allocs_updPeak : (s.updPeak i f).allocs = s.allocs := rfl
@[simp] theorem policers_updPeak : (s.updPeak i f).policers = s.policers := rfl
@[simp] theorem rules_updPeak : (s.updPeak i f).rules = s.rules := rfl
@[simp] theorem counters_updPeak : (s.updPeak i f).counters = s.counters := rfl
@[simp] theorem slices_updPeak : (s.updPeak i f).slices = s.slices := rfl
@[simp] theorem bonds_updPeak : (s.updPeak i f).bonds = s.bonds := rfl
@[simp] theorem lags_updPeak : (s.updPeak i f).lags = s.lags := rfl
@[simp] theorem mem_updPeak : (s.updPeak i f).mem = s.mem := rfl
@[simp] theorem gorse_updPeak : (s.updPeak i f).gorse = s.gorse := rfl
@[simp] theorem time_updPeak : (s.updPeak i f).time = s.time := rfl
@[simp] theorem trib_updPeak : (s.updPeak i f).trib = s.trib := rfl
@[simp] theorem ports_updPeak : (s.updPeak i f).ports = s.ports := rfl
@[simp] theorem macs_updPeak : (s.updPeak i f).macs = s.macs := rfl
@[simp] theorem lanes_updPeak : (s.updPeak i f).lanes = s.lanes := rfl
@[simp] theorem pwr_updPeak : (s.updPeak i f).pwr = s.pwr := rfl
@[simp] theorem rst_updPeak : (s.updPeak i f).rst = s.rst := rfl
@[simp] theorem fw_updPeak : (s.updPeak i f).fw = s.fw := rfl
@[simp] theorem mgmt_updPeak : (s.updPeak i f).mgmt = s.mgmt := rfl
@[simp] theorem parts_updPeak : (s.updPeak i f).parts = s.parts := rfl
@[simp] theorem eps_updPeak : (s.updPeak i f).eps = s.eps := rfl
@[simp] theorem out_updPeak : (s.updPeak i f).out = s.out := rfl
@[simp] theorem now_updPeak : (s.updPeak i f).now = s.now := rfl
@[simp] theorem draws_updPeak : (s.updPeak i f).draws = s.draws := rfl
@[simp] theorem nextFrame_updPeak : (s.updPeak i f).nextFrame = s.nextFrame := rfl
@[simp] theorem pending_updPeak : (s.updPeak i f).pending = s.pending := rfl

end

section
variable (f : PolicerSt → PolicerSt)

@[simp] theorem policer_updPolicer : (s.updPolicer i f).policer j = if j = i then f (s.policer i) else s.policer j := Tab.get_upd _ _ _ _
theorem updPolicer_updPolicer (g : PolicerSt → PolicerSt) : (s.updPolicer i f).updPolicer i g = s.updPolicer i fun x => g (f x) := by
  simp only [updPolicer, Tab.upd_upd]
theorem updPolicer_congr (g : PolicerSt → PolicerSt) (h : f (s.policer i) = g (s.policer i)) : s.updPolicer i f = s.updPolicer i g := by
  simp only [updPolicer, Tab.upd_congr _ _ f g h]
theorem updPolicer_emit (x : Out) : (s.emit x).updPolicer i f = (s.updPolicer i f).emit x := rfl
@[simp] theorem chan_updPolicer : (s.updPolicer i f).chan j = s.chan j := rfl
@[simp] theorem queue_updPolicer : (s.updPolicer i f).queue j = s.queue j := rfl
@[simp] theorem alloc_updPolicer : (s.updPolicer i f).alloc j = s.alloc j := rfl
@[simp] theorem peak_updPolicer : (s.updPolicer i f).peak j = s.peak j := rfl
@[simp] theorem slice_updPolicer : (s.updPolicer i f).slice j = s.slice j := rfl
@[simp] theorem bond_updPolicer : (s.updPolicer i f).bond j = s.bond j := rfl
@[simp] theorem lag_updPolicer : (s.updPolicer i f).lag j = s.lag j := rfl
@[simp] theorem port_updPolicer : (s.updPolicer i f).port j = s.port j := rfl
@[simp] theorem mac_updPolicer : (s.updPolicer i f).mac j = s.mac j := rfl
@[simp] theorem lane_updPolicer : (s.updPolicer i f).lane j = s.lane j := rfl
@[simp] theorem part_updPolicer : (s.updPolicer i f).part j = s.part j := rfl
@[simp] theorem ep_updPolicer : (s.updPolicer i f).ep j = s.ep j := rfl
@[simp] theorem pdom_updPolicer : (s.updPolicer i f).pdom j = s.pdom j := rfl
@[simp] theorem dom_updPolicer : (s.updPolicer i f).dom j = s.dom j := rfl
@[simp] theorem trig_updPolicer : (s.updPolicer i f).trig j = s.trig j := rfl
@[simp] theorem capt_updPolicer : (s.updPolicer i f).capt j = s.capt j := rfl
@[simp] theorem ptp_updPolicer : (s.updPolicer i f).ptp j = s.ptp j := rfl
@[simp] theorem stream_updPolicer : (s.updPolicer i f).stream j = s.stream j := rfl
@[simp] theorem bank_updPolicer : (s.updPolicer i f).bank j = s.bank j := rfl
@[simp] theorem stack_updPolicer : (s.updPolicer i f).stack j = s.stack j := rfl
@[simp] theorem pin_updPolicer : (s.updPolicer i f).pin j = s.pin j := rfl
@[simp] theorem chans_updPolicer : (s.updPolicer i f).chans = s.chans := rfl
@[simp] theorem queues_updPolicer : (s.updPolicer i f).queues = s.queues := rfl
@[simp] theorem allocs_updPolicer : (s.updPolicer i f).allocs = s.allocs := rfl
@[simp] theorem peaks_updPolicer : (s.updPolicer i f).peaks = s.peaks := rfl
@[simp] theorem rules_updPolicer : (s.updPolicer i f).rules = s.rules := rfl
@[simp] theorem counters_updPolicer : (s.updPolicer i f).counters = s.counters := rfl
@[simp] theorem slices_updPolicer : (s.updPolicer i f).slices = s.slices := rfl
@[simp] theorem bonds_updPolicer : (s.updPolicer i f).bonds = s.bonds := rfl
@[simp] theorem lags_updPolicer : (s.updPolicer i f).lags = s.lags := rfl
@[simp] theorem mem_updPolicer : (s.updPolicer i f).mem = s.mem := rfl
@[simp] theorem gorse_updPolicer : (s.updPolicer i f).gorse = s.gorse := rfl
@[simp] theorem time_updPolicer : (s.updPolicer i f).time = s.time := rfl
@[simp] theorem trib_updPolicer : (s.updPolicer i f).trib = s.trib := rfl
@[simp] theorem ports_updPolicer : (s.updPolicer i f).ports = s.ports := rfl
@[simp] theorem macs_updPolicer : (s.updPolicer i f).macs = s.macs := rfl
@[simp] theorem lanes_updPolicer : (s.updPolicer i f).lanes = s.lanes := rfl
@[simp] theorem pwr_updPolicer : (s.updPolicer i f).pwr = s.pwr := rfl
@[simp] theorem rst_updPolicer : (s.updPolicer i f).rst = s.rst := rfl
@[simp] theorem fw_updPolicer : (s.updPolicer i f).fw = s.fw := rfl
@[simp] theorem mgmt_updPolicer : (s.updPolicer i f).mgmt = s.mgmt := rfl
@[simp] theorem parts_updPolicer : (s.updPolicer i f).parts = s.parts := rfl
@[simp] theorem eps_updPolicer : (s.updPolicer i f).eps = s.eps := rfl
@[simp] theorem out_updPolicer : (s.updPolicer i f).out = s.out := rfl
@[simp] theorem now_updPolicer : (s.updPolicer i f).now = s.now := rfl
@[simp] theorem draws_updPolicer : (s.updPolicer i f).draws = s.draws := rfl
@[simp] theorem nextFrame_updPolicer : (s.updPolicer i f).nextFrame = s.nextFrame := rfl
@[simp] theorem pending_updPolicer : (s.updPolicer i f).pending = s.pending := rfl

end

section
variable (f : SliceSt → SliceSt)

@[simp] theorem slice_updSlice : (s.updSlice i f).slice j = if j = i then f (s.slice i) else s.slice j := Tab.get_upd _ _ _ _
theorem updSlice_updSlice (g : SliceSt → SliceSt) : (s.updSlice i f).updSlice i g = s.updSlice i fun x => g (f x) := by
  simp only [updSlice, Tab.upd_upd]
theorem updSlice_congr (g : SliceSt → SliceSt) (h : f (s.slice i) = g (s.slice i)) : s.updSlice i f = s.updSlice i g := by
  simp only [updSlice, Tab.upd_congr _ _ f g h]
theorem updSlice_emit (x : Out) : (s.emit x).updSlice i f = (s.updSlice i f).emit x := rfl
@[simp] theorem chan_updSlice : (s.updSlice i f).chan j = s.chan j := rfl
@[simp] theorem queue_updSlice : (s.updSlice i f).queue j = s.queue j := rfl
@[simp] theorem alloc_updSlice : (s.updSlice i f).alloc j = s.alloc j := rfl
@[simp] theorem peak_updSlice : (s.updSlice i f).peak j = s.peak j := rfl
@[simp] theorem policer_updSlice : (s.updSlice i f).policer j = s.policer j := rfl
@[simp] theorem bond_updSlice : (s.updSlice i f).bond j = s.bond j := rfl
@[simp] theorem lag_updSlice : (s.updSlice i f).lag j = s.lag j := rfl
@[simp] theorem port_updSlice : (s.updSlice i f).port j = s.port j := rfl
@[simp] theorem mac_updSlice : (s.updSlice i f).mac j = s.mac j := rfl
@[simp] theorem lane_updSlice : (s.updSlice i f).lane j = s.lane j := rfl
@[simp] theorem part_updSlice : (s.updSlice i f).part j = s.part j := rfl
@[simp] theorem ep_updSlice : (s.updSlice i f).ep j = s.ep j := rfl
@[simp] theorem pdom_updSlice : (s.updSlice i f).pdom j = s.pdom j := rfl
@[simp] theorem dom_updSlice : (s.updSlice i f).dom j = s.dom j := rfl
@[simp] theorem trig_updSlice : (s.updSlice i f).trig j = s.trig j := rfl
@[simp] theorem capt_updSlice : (s.updSlice i f).capt j = s.capt j := rfl
@[simp] theorem ptp_updSlice : (s.updSlice i f).ptp j = s.ptp j := rfl
@[simp] theorem stream_updSlice : (s.updSlice i f).stream j = s.stream j := rfl
@[simp] theorem bank_updSlice : (s.updSlice i f).bank j = s.bank j := rfl
@[simp] theorem stack_updSlice : (s.updSlice i f).stack j = s.stack j := rfl
@[simp] theorem pin_updSlice : (s.updSlice i f).pin j = s.pin j := rfl
@[simp] theorem chans_updSlice : (s.updSlice i f).chans = s.chans := rfl
@[simp] theorem queues_updSlice : (s.updSlice i f).queues = s.queues := rfl
@[simp] theorem allocs_updSlice : (s.updSlice i f).allocs = s.allocs := rfl
@[simp] theorem peaks_updSlice : (s.updSlice i f).peaks = s.peaks := rfl
@[simp] theorem policers_updSlice : (s.updSlice i f).policers = s.policers := rfl
@[simp] theorem rules_updSlice : (s.updSlice i f).rules = s.rules := rfl
@[simp] theorem counters_updSlice : (s.updSlice i f).counters = s.counters := rfl
@[simp] theorem bonds_updSlice : (s.updSlice i f).bonds = s.bonds := rfl
@[simp] theorem lags_updSlice : (s.updSlice i f).lags = s.lags := rfl
@[simp] theorem mem_updSlice : (s.updSlice i f).mem = s.mem := rfl
@[simp] theorem gorse_updSlice : (s.updSlice i f).gorse = s.gorse := rfl
@[simp] theorem time_updSlice : (s.updSlice i f).time = s.time := rfl
@[simp] theorem trib_updSlice : (s.updSlice i f).trib = s.trib := rfl
@[simp] theorem ports_updSlice : (s.updSlice i f).ports = s.ports := rfl
@[simp] theorem macs_updSlice : (s.updSlice i f).macs = s.macs := rfl
@[simp] theorem lanes_updSlice : (s.updSlice i f).lanes = s.lanes := rfl
@[simp] theorem pwr_updSlice : (s.updSlice i f).pwr = s.pwr := rfl
@[simp] theorem rst_updSlice : (s.updSlice i f).rst = s.rst := rfl
@[simp] theorem fw_updSlice : (s.updSlice i f).fw = s.fw := rfl
@[simp] theorem mgmt_updSlice : (s.updSlice i f).mgmt = s.mgmt := rfl
@[simp] theorem parts_updSlice : (s.updSlice i f).parts = s.parts := rfl
@[simp] theorem eps_updSlice : (s.updSlice i f).eps = s.eps := rfl
@[simp] theorem out_updSlice : (s.updSlice i f).out = s.out := rfl
@[simp] theorem now_updSlice : (s.updSlice i f).now = s.now := rfl
@[simp] theorem draws_updSlice : (s.updSlice i f).draws = s.draws := rfl
@[simp] theorem nextFrame_updSlice : (s.updSlice i f).nextFrame = s.nextFrame := rfl
@[simp] theorem pending_updSlice : (s.updSlice i f).pending = s.pending := rfl

end

section
variable (f : BondSt → BondSt)

@[simp] theorem bond_updBond : (s.updBond i f).bond j = if j = i then f (s.bond i) else s.bond j := Tab.get_upd _ _ _ _
theorem updBond_updBond (g : BondSt → BondSt) : (s.updBond i f).updBond i g = s.updBond i fun x => g (f x) := by
  simp only [updBond, Tab.upd_upd]
theorem updBond_congr (g : BondSt → BondSt) (h : f (s.bond i) = g (s.bond i)) : s.updBond i f = s.updBond i g := by
  simp only [updBond, Tab.upd_congr _ _ f g h]
theorem updBond_emit (x : Out) : (s.emit x).updBond i f = (s.updBond i f).emit x := rfl
@[simp] theorem chan_updBond : (s.updBond i f).chan j = s.chan j := rfl
@[simp] theorem queue_updBond : (s.updBond i f).queue j = s.queue j := rfl
@[simp] theorem alloc_updBond : (s.updBond i f).alloc j = s.alloc j := rfl
@[simp] theorem peak_updBond : (s.updBond i f).peak j = s.peak j := rfl
@[simp] theorem policer_updBond : (s.updBond i f).policer j = s.policer j := rfl
@[simp] theorem slice_updBond : (s.updBond i f).slice j = s.slice j := rfl
@[simp] theorem lag_updBond : (s.updBond i f).lag j = s.lag j := rfl
@[simp] theorem port_updBond : (s.updBond i f).port j = s.port j := rfl
@[simp] theorem mac_updBond : (s.updBond i f).mac j = s.mac j := rfl
@[simp] theorem lane_updBond : (s.updBond i f).lane j = s.lane j := rfl
@[simp] theorem part_updBond : (s.updBond i f).part j = s.part j := rfl
@[simp] theorem ep_updBond : (s.updBond i f).ep j = s.ep j := rfl
@[simp] theorem pdom_updBond : (s.updBond i f).pdom j = s.pdom j := rfl
@[simp] theorem dom_updBond : (s.updBond i f).dom j = s.dom j := rfl
@[simp] theorem trig_updBond : (s.updBond i f).trig j = s.trig j := rfl
@[simp] theorem capt_updBond : (s.updBond i f).capt j = s.capt j := rfl
@[simp] theorem ptp_updBond : (s.updBond i f).ptp j = s.ptp j := rfl
@[simp] theorem stream_updBond : (s.updBond i f).stream j = s.stream j := rfl
@[simp] theorem bank_updBond : (s.updBond i f).bank j = s.bank j := rfl
@[simp] theorem stack_updBond : (s.updBond i f).stack j = s.stack j := rfl
@[simp] theorem pin_updBond : (s.updBond i f).pin j = s.pin j := rfl
@[simp] theorem chans_updBond : (s.updBond i f).chans = s.chans := rfl
@[simp] theorem queues_updBond : (s.updBond i f).queues = s.queues := rfl
@[simp] theorem allocs_updBond : (s.updBond i f).allocs = s.allocs := rfl
@[simp] theorem peaks_updBond : (s.updBond i f).peaks = s.peaks := rfl
@[simp] theorem policers_updBond : (s.updBond i f).policers = s.policers := rfl
@[simp] theorem rules_updBond : (s.updBond i f).rules = s.rules := rfl
@[simp] theorem counters_updBond : (s.updBond i f).counters = s.counters := rfl
@[simp] theorem slices_updBond : (s.updBond i f).slices = s.slices := rfl
@[simp] theorem lags_updBond : (s.updBond i f).lags = s.lags := rfl
@[simp] theorem mem_updBond : (s.updBond i f).mem = s.mem := rfl
@[simp] theorem gorse_updBond : (s.updBond i f).gorse = s.gorse := rfl
@[simp] theorem time_updBond : (s.updBond i f).time = s.time := rfl
@[simp] theorem trib_updBond : (s.updBond i f).trib = s.trib := rfl
@[simp] theorem ports_updBond : (s.updBond i f).ports = s.ports := rfl
@[simp] theorem macs_updBond : (s.updBond i f).macs = s.macs := rfl
@[simp] theorem lanes_updBond : (s.updBond i f).lanes = s.lanes := rfl
@[simp] theorem pwr_updBond : (s.updBond i f).pwr = s.pwr := rfl
@[simp] theorem rst_updBond : (s.updBond i f).rst = s.rst := rfl
@[simp] theorem fw_updBond : (s.updBond i f).fw = s.fw := rfl
@[simp] theorem mgmt_updBond : (s.updBond i f).mgmt = s.mgmt := rfl
@[simp] theorem parts_updBond : (s.updBond i f).parts = s.parts := rfl
@[simp] theorem eps_updBond : (s.updBond i f).eps = s.eps := rfl
@[simp] theorem out_updBond : (s.updBond i f).out = s.out := rfl
@[simp] theorem now_updBond : (s.updBond i f).now = s.now := rfl
@[simp] theorem draws_updBond : (s.updBond i f).draws = s.draws := rfl
@[simp] theorem nextFrame_updBond : (s.updBond i f).nextFrame = s.nextFrame := rfl
@[simp] theorem pending_updBond : (s.updBond i f).pending = s.pending := rfl

end

section
variable (f : LagSt → LagSt)

@[simp] theorem lag_updLag : (s.updLag i f).lag j = if j = i then f (s.lag i) else s.lag j := Tab.get_upd _ _ _ _
theorem updLag_updLag (g : LagSt → LagSt) : (s.updLag i f).updLag i g = s.updLag i fun x => g (f x) := by
  simp only [updLag, Tab.upd_upd]
theorem updLag_congr (g : LagSt → LagSt) (h : f (s.lag i) = g (s.lag i)) : s.updLag i f = s.updLag i g := by
  simp only [updLag, Tab.upd_congr _ _ f g h]
theorem updLag_emit (x : Out) : (s.emit x).updLag i f = (s.updLag i f).emit x := rfl
@[simp] theorem chan_updLag : (s.updLag i f).chan j = s.chan j := rfl
@[simp] theorem queue_updLag : (s.updLag i f).queue j = s.queue j := rfl
@[simp] theorem alloc_updLag : (s.updLag i f).alloc j = s.alloc j := rfl
@[simp] theorem peak_updLag : (s.updLag i f).peak j = s.peak j := rfl
@[simp] theorem policer_updLag : (s.updLag i f).policer j = s.policer j := rfl
@[simp] theorem slice_updLag : (s.updLag i f).slice j = s.slice j := rfl
@[simp] theorem bond_updLag : (s.updLag i f).bond j = s.bond j := rfl
@[simp] theorem port_updLag : (s.updLag i f).port j = s.port j := rfl
@[simp] theorem mac_updLag : (s.updLag i f).mac j = s.mac j := rfl
@[simp] theorem lane_updLag : (s.updLag i f).lane j = s.lane j := rfl
@[simp] theorem part_updLag : (s.updLag i f).part j = s.part j := rfl
@[simp] theorem ep_updLag : (s.updLag i f).ep j = s.ep j := rfl
@[simp] theorem pdom_updLag : (s.updLag i f).pdom j = s.pdom j := rfl
@[simp] theorem dom_updLag : (s.updLag i f).dom j = s.dom j := rfl
@[simp] theorem trig_updLag : (s.updLag i f).trig j = s.trig j := rfl
@[simp] theorem capt_updLag : (s.updLag i f).capt j = s.capt j := rfl
@[simp] theorem ptp_updLag : (s.updLag i f).ptp j = s.ptp j := rfl
@[simp] theorem stream_updLag : (s.updLag i f).stream j = s.stream j := rfl
@[simp] theorem bank_updLag : (s.updLag i f).bank j = s.bank j := rfl
@[simp] theorem stack_updLag : (s.updLag i f).stack j = s.stack j := rfl
@[simp] theorem pin_updLag : (s.updLag i f).pin j = s.pin j := rfl
@[simp] theorem chans_updLag : (s.updLag i f).chans = s.chans := rfl
@[simp] theorem queues_updLag : (s.updLag i f).queues = s.queues := rfl
@[simp] theorem allocs_updLag : (s.updLag i f).allocs = s.allocs := rfl
@[simp] theorem peaks_updLag : (s.updLag i f).peaks = s.peaks := rfl
@[simp] theorem policers_updLag : (s.updLag i f).policers = s.policers := rfl
@[simp] theorem rules_updLag : (s.updLag i f).rules = s.rules := rfl
@[simp] theorem counters_updLag : (s.updLag i f).counters = s.counters := rfl
@[simp] theorem slices_updLag : (s.updLag i f).slices = s.slices := rfl
@[simp] theorem bonds_updLag : (s.updLag i f).bonds = s.bonds := rfl
@[simp] theorem mem_updLag : (s.updLag i f).mem = s.mem := rfl
@[simp] theorem gorse_updLag : (s.updLag i f).gorse = s.gorse := rfl
@[simp] theorem time_updLag : (s.updLag i f).time = s.time := rfl
@[simp] theorem trib_updLag : (s.updLag i f).trib = s.trib := rfl
@[simp] theorem ports_updLag : (s.updLag i f).ports = s.ports := rfl
@[simp] theorem macs_updLag : (s.updLag i f).macs = s.macs := rfl
@[simp] theorem lanes_updLag : (s.updLag i f).lanes = s.lanes := rfl
@[simp] theorem pwr_updLag : (s.updLag i f).pwr = s.pwr := rfl
@[simp] theorem rst_updLag : (s.updLag i f).rst = s.rst := rfl
@[simp] theorem fw_updLag : (s.updLag i f).fw = s.fw := rfl
@[simp] theorem mgmt_updLag : (s.updLag i f).mgmt = s.mgmt := rfl
@[simp] theorem parts_updLag : (s.updLag i f).parts = s.parts := rfl
@[simp] theorem eps_updLag : (s.updLag i f).eps = s.eps := rfl
@[simp] theorem out_updLag : (s.updLag i f).out = s.out := rfl
@[simp] theorem now_updLag : (s.updLag i f).now = s.now := rfl
@[simp] theorem draws_updLag : (s.updLag i f).draws = s.draws := rfl
@[simp] theorem nextFrame_updLag : (s.updLag i f).nextFrame = s.nextFrame := rfl
@[simp] theorem pending_updLag : (s.updLag i f).pending = s.pending := rfl

end

section
variable (f : PortSt → PortSt)

@[simp] theorem port_updPort : (s.updPort i f).port j = if j = i then f (s.port i) else s.port j := Tab.get_upd _ _ _ _
theorem updPort_updPort (g : PortSt → PortSt) : (s.updPort i f).updPort i g = s.updPort i fun x => g (f x) := by
  simp only [updPort, Tab.upd_upd]
theorem updPort_congr (g : PortSt → PortSt) (h : f (s.port i) = g (s.port i)) : s.updPort i f = s.updPort i g := by
  simp only [updPort, Tab.upd_congr _ _ f g h]
theorem updPort_emit (x : Out) : (s.emit x).updPort i f = (s.updPort i f).emit x := rfl
@[simp] theorem chan_updPort : (s.updPort i f).chan j = s.chan j := rfl
@[simp] theorem queue_updPort : (s.updPort i f).queue j = s.queue j := rfl
@[simp] theorem alloc_updPort : (s.updPort i f).alloc j = s.alloc j := rfl
@[simp] theorem peak_updPort : (s.updPort i f).peak j = s.peak j := rfl
@[simp] theorem policer_updPort : (s.updPort i f).policer j = s.policer j := rfl
@[simp] theorem slice_updPort : (s.updPort i f).slice j = s.slice j := rfl
@[simp] theorem bond_updPort : (s.updPort i f).bond j = s.bond j := rfl
@[simp] theorem lag_updPort : (s.updPort i f).lag j = s.lag j := rfl
@[simp] theorem mac_updPort : (s.updPort i f).mac j = s.mac j := rfl
@[simp] theorem lane_updPort : (s.updPort i f).lane j = s.lane j := rfl
@[simp] theorem part_updPort : (s.updPort i f).part j = s.part j := rfl
@[simp] theorem ep_updPort : (s.updPort i f).ep j = s.ep j := rfl
@[simp] theorem pdom_updPort : (s.updPort i f).pdom j = s.pdom j := rfl
@[simp] theorem dom_updPort : (s.updPort i f).dom j = s.dom j := rfl
@[simp] theorem trig_updPort : (s.updPort i f).trig j = s.trig j := rfl
@[simp] theorem capt_updPort : (s.updPort i f).capt j = s.capt j := rfl
@[simp] theorem ptp_updPort : (s.updPort i f).ptp j = s.ptp j := rfl
@[simp] theorem stream_updPort : (s.updPort i f).stream j = s.stream j := rfl
@[simp] theorem bank_updPort : (s.updPort i f).bank j = s.bank j := rfl
@[simp] theorem stack_updPort : (s.updPort i f).stack j = s.stack j := rfl
@[simp] theorem pin_updPort : (s.updPort i f).pin j = s.pin j := rfl
@[simp] theorem chans_updPort : (s.updPort i f).chans = s.chans := rfl
@[simp] theorem queues_updPort : (s.updPort i f).queues = s.queues := rfl
@[simp] theorem allocs_updPort : (s.updPort i f).allocs = s.allocs := rfl
@[simp] theorem peaks_updPort : (s.updPort i f).peaks = s.peaks := rfl
@[simp] theorem policers_updPort : (s.updPort i f).policers = s.policers := rfl
@[simp] theorem rules_updPort : (s.updPort i f).rules = s.rules := rfl
@[simp] theorem counters_updPort : (s.updPort i f).counters = s.counters := rfl
@[simp] theorem slices_updPort : (s.updPort i f).slices = s.slices := rfl
@[simp] theorem bonds_updPort : (s.updPort i f).bonds = s.bonds := rfl
@[simp] theorem lags_updPort : (s.updPort i f).lags = s.lags := rfl
@[simp] theorem mem_updPort : (s.updPort i f).mem = s.mem := rfl
@[simp] theorem gorse_updPort : (s.updPort i f).gorse = s.gorse := rfl
@[simp] theorem time_updPort : (s.updPort i f).time = s.time := rfl
@[simp] theorem trib_updPort : (s.updPort i f).trib = s.trib := rfl
@[simp] theorem macs_updPort : (s.updPort i f).macs = s.macs := rfl
@[simp] theorem lanes_updPort : (s.updPort i f).lanes = s.lanes := rfl
@[simp] theorem pwr_updPort : (s.updPort i f).pwr = s.pwr := rfl
@[simp] theorem rst_updPort : (s.updPort i f).rst = s.rst := rfl
@[simp] theorem fw_updPort : (s.updPort i f).fw = s.fw := rfl
@[simp] theorem mgmt_updPort : (s.updPort i f).mgmt = s.mgmt := rfl
@[simp] theorem parts_updPort : (s.updPort i f).parts = s.parts := rfl
@[simp] theorem eps_updPort : (s.updPort i f).eps = s.eps := rfl
@[simp] theorem out_updPort : (s.updPort i f).out = s.out := rfl
@[simp] theorem now_updPort : (s.updPort i f).now = s.now := rfl
@[simp] theorem draws_updPort : (s.updPort i f).draws = s.draws := rfl
@[simp] theorem nextFrame_updPort : (s.updPort i f).nextFrame = s.nextFrame := rfl
@[simp] theorem pending_updPort : (s.updPort i f).pending = s.pending := rfl

end

section
variable (f : MacSt → MacSt)

@[simp] theorem mac_updMac : (s.updMac i f).mac j = if j = i then f (s.mac i) else s.mac j := Tab.get_upd _ _ _ _
theorem updMac_updMac (g : MacSt → MacSt) : (s.updMac i f).updMac i g = s.updMac i fun x => g (f x) := by
  simp only [updMac, Tab.upd_upd]
theorem updMac_congr (g : MacSt → MacSt) (h : f (s.mac i) = g (s.mac i)) : s.updMac i f = s.updMac i g := by
  simp only [updMac, Tab.upd_congr _ _ f g h]
theorem updMac_emit (x : Out) : (s.emit x).updMac i f = (s.updMac i f).emit x := rfl
@[simp] theorem chan_updMac : (s.updMac i f).chan j = s.chan j := rfl
@[simp] theorem queue_updMac : (s.updMac i f).queue j = s.queue j := rfl
@[simp] theorem alloc_updMac : (s.updMac i f).alloc j = s.alloc j := rfl
@[simp] theorem peak_updMac : (s.updMac i f).peak j = s.peak j := rfl
@[simp] theorem policer_updMac : (s.updMac i f).policer j = s.policer j := rfl
@[simp] theorem slice_updMac : (s.updMac i f).slice j = s.slice j := rfl
@[simp] theorem bond_updMac : (s.updMac i f).bond j = s.bond j := rfl
@[simp] theorem lag_updMac : (s.updMac i f).lag j = s.lag j := rfl
@[simp] theorem port_updMac : (s.updMac i f).port j = s.port j := rfl
@[simp] theorem lane_updMac : (s.updMac i f).lane j = s.lane j := rfl
@[simp] theorem part_updMac : (s.updMac i f).part j = s.part j := rfl
@[simp] theorem ep_updMac : (s.updMac i f).ep j = s.ep j := rfl
@[simp] theorem pdom_updMac : (s.updMac i f).pdom j = s.pdom j := rfl
@[simp] theorem dom_updMac : (s.updMac i f).dom j = s.dom j := rfl
@[simp] theorem trig_updMac : (s.updMac i f).trig j = s.trig j := rfl
@[simp] theorem capt_updMac : (s.updMac i f).capt j = s.capt j := rfl
@[simp] theorem ptp_updMac : (s.updMac i f).ptp j = s.ptp j := rfl
@[simp] theorem stream_updMac : (s.updMac i f).stream j = s.stream j := rfl
@[simp] theorem bank_updMac : (s.updMac i f).bank j = s.bank j := rfl
@[simp] theorem stack_updMac : (s.updMac i f).stack j = s.stack j := rfl
@[simp] theorem pin_updMac : (s.updMac i f).pin j = s.pin j := rfl
@[simp] theorem chans_updMac : (s.updMac i f).chans = s.chans := rfl
@[simp] theorem queues_updMac : (s.updMac i f).queues = s.queues := rfl
@[simp] theorem allocs_updMac : (s.updMac i f).allocs = s.allocs := rfl
@[simp] theorem peaks_updMac : (s.updMac i f).peaks = s.peaks := rfl
@[simp] theorem policers_updMac : (s.updMac i f).policers = s.policers := rfl
@[simp] theorem rules_updMac : (s.updMac i f).rules = s.rules := rfl
@[simp] theorem counters_updMac : (s.updMac i f).counters = s.counters := rfl
@[simp] theorem slices_updMac : (s.updMac i f).slices = s.slices := rfl
@[simp] theorem bonds_updMac : (s.updMac i f).bonds = s.bonds := rfl
@[simp] theorem lags_updMac : (s.updMac i f).lags = s.lags := rfl
@[simp] theorem mem_updMac : (s.updMac i f).mem = s.mem := rfl
@[simp] theorem gorse_updMac : (s.updMac i f).gorse = s.gorse := rfl
@[simp] theorem time_updMac : (s.updMac i f).time = s.time := rfl
@[simp] theorem trib_updMac : (s.updMac i f).trib = s.trib := rfl
@[simp] theorem ports_updMac : (s.updMac i f).ports = s.ports := rfl
@[simp] theorem lanes_updMac : (s.updMac i f).lanes = s.lanes := rfl
@[simp] theorem pwr_updMac : (s.updMac i f).pwr = s.pwr := rfl
@[simp] theorem rst_updMac : (s.updMac i f).rst = s.rst := rfl
@[simp] theorem fw_updMac : (s.updMac i f).fw = s.fw := rfl
@[simp] theorem mgmt_updMac : (s.updMac i f).mgmt = s.mgmt := rfl
@[simp] theorem parts_updMac : (s.updMac i f).parts = s.parts := rfl
@[simp] theorem eps_updMac : (s.updMac i f).eps = s.eps := rfl
@[simp] theorem out_updMac : (s.updMac i f).out = s.out := rfl
@[simp] theorem now_updMac : (s.updMac i f).now = s.now := rfl
@[simp] theorem draws_updMac : (s.updMac i f).draws = s.draws := rfl
@[simp] theorem nextFrame_updMac : (s.updMac i f).nextFrame = s.nextFrame := rfl
@[simp] theorem pending_updMac : (s.updMac i f).pending = s.pending := rfl

end

section
variable (f : LaneSt → LaneSt)

@[simp] theorem lane_updLane : (s.updLane i f).lane j = if j = i then f (s.lane i) else s.lane j := Tab.get_upd _ _ _ _
theorem updLane_updLane (g : LaneSt → LaneSt) : (s.updLane i f).updLane i g = s.updLane i fun x => g (f x) := by
  simp only [updLane, Tab.upd_upd]
theorem updLane_congr (g : LaneSt → LaneSt) (h : f (s.lane i) = g (s.lane i)) : s.updLane i f = s.updLane i g := by
  simp only [updLane, Tab.upd_congr _ _ f g h]
theorem updLane_emit (x : Out) : (s.emit x).updLane i f = (s.updLane i f).emit x := rfl
@[simp] theorem chan_updLane : (s.updLane i f).chan j = s.chan j := rfl
@[simp] theorem queue_updLane : (s.updLane i f).queue j = s.queue j := rfl
@[simp] theorem alloc_updLane : (s.updLane i f).alloc j = s.alloc j := rfl
@[simp] theorem peak_updLane : (s.updLane i f).peak j = s.peak j := rfl
@[simp] theorem policer_updLane : (s.updLane i f).policer j = s.policer j := rfl
@[simp] theorem slice_updLane : (s.updLane i f).slice j = s.slice j := rfl
@[simp] theorem bond_updLane : (s.updLane i f).bond j = s.bond j := rfl
@[simp] theorem lag_updLane : (s.updLane i f).lag j = s.lag j := rfl
@[simp] theorem port_updLane : (s.updLane i f).port j = s.port j := rfl
@[simp] theorem mac_updLane : (s.updLane i f).mac j = s.mac j := rfl
@[simp] theorem part_updLane : (s.updLane i f).part j = s.part j := rfl
@[simp] theorem ep_updLane : (s.updLane i f).ep j = s.ep j := rfl
@[simp] theorem pdom_updLane : (s.updLane i f).pdom j = s.pdom j := rfl
@[simp] theorem dom_updLane : (s.updLane i f).dom j = s.dom j := rfl
@[simp] theorem trig_updLane : (s.updLane i f).trig j = s.trig j := rfl
@[simp] theorem capt_updLane : (s.updLane i f).capt j = s.capt j := rfl
@[simp] theorem ptp_updLane : (s.updLane i f).ptp j = s.ptp j := rfl
@[simp] theorem stream_updLane : (s.updLane i f).stream j = s.stream j := rfl
@[simp] theorem bank_updLane : (s.updLane i f).bank j = s.bank j := rfl
@[simp] theorem stack_updLane : (s.updLane i f).stack j = s.stack j := rfl
@[simp] theorem pin_updLane : (s.updLane i f).pin j = s.pin j := rfl
@[simp] theorem chans_updLane : (s.updLane i f).chans = s.chans := rfl
@[simp] theorem queues_updLane : (s.updLane i f).queues = s.queues := rfl
@[simp] theorem allocs_updLane : (s.updLane i f).allocs = s.allocs := rfl
@[simp] theorem peaks_updLane : (s.updLane i f).peaks = s.peaks := rfl
@[simp] theorem policers_updLane : (s.updLane i f).policers = s.policers := rfl
@[simp] theorem rules_updLane : (s.updLane i f).rules = s.rules := rfl
@[simp] theorem counters_updLane : (s.updLane i f).counters = s.counters := rfl
@[simp] theorem slices_updLane : (s.updLane i f).slices = s.slices := rfl
@[simp] theorem bonds_updLane : (s.updLane i f).bonds = s.bonds := rfl
@[simp] theorem lags_updLane : (s.updLane i f).lags = s.lags := rfl
@[simp] theorem mem_updLane : (s.updLane i f).mem = s.mem := rfl
@[simp] theorem gorse_updLane : (s.updLane i f).gorse = s.gorse := rfl
@[simp] theorem time_updLane : (s.updLane i f).time = s.time := rfl
@[simp] theorem trib_updLane : (s.updLane i f).trib = s.trib := rfl
@[simp] theorem ports_updLane : (s.updLane i f).ports = s.ports := rfl
@[simp] theorem macs_updLane : (s.updLane i f).macs = s.macs := rfl
@[simp] theorem pwr_updLane : (s.updLane i f).pwr = s.pwr := rfl
@[simp] theorem rst_updLane : (s.updLane i f).rst = s.rst := rfl
@[simp] theorem fw_updLane : (s.updLane i f).fw = s.fw := rfl
@[simp] theorem mgmt_updLane : (s.updLane i f).mgmt = s.mgmt := rfl
@[simp] theorem parts_updLane : (s.updLane i f).parts = s.parts := rfl
@[simp] theorem eps_updLane : (s.updLane i f).eps = s.eps := rfl
@[simp] theorem out_updLane : (s.updLane i f).out = s.out := rfl
@[simp] theorem now_updLane : (s.updLane i f).now = s.now := rfl
@[simp] theorem draws_updLane : (s.updLane i f).draws = s.draws := rfl
@[simp] theorem nextFrame_updLane : (s.updLane i f).nextFrame = s.nextFrame := rfl
@[simp] theorem pending_updLane : (s.updLane i f).pending = s.pending := rfl

end

section
variable (f : PartSt → PartSt)

@[simp] theorem part_updPart : (s.updPart i f).part j = if j = i then f (s.part i) else s.part j := Tab.get_upd _ _ _ _
theorem updPart_updPart (g : PartSt → PartSt) : (s.updPart i f).updPart i g = s.updPart i fun x => g (f x) := by
  simp only [updPart, Tab.upd_upd]
theorem updPart_congr (g : PartSt → PartSt) (h : f (s.part i) = g (s.part i)) : s.updPart i f = s.updPart i g := by
  simp only [updPart, Tab.upd_congr _ _ f g h]
theorem updPart_emit (x : Out) : (s.emit x).updPart i f = (s.updPart i f).emit x := rfl
@[simp] theorem chan_updPart : (s.updPart i f).chan j = s.chan j := rfl
@[simp] theorem queue_updPart : (s.updPart i f).queue j = s.queue j := rfl
@[simp] theorem alloc_updPart : (s.updPart i f).alloc j = s.alloc j := rfl
@[simp] theorem peak_updPart : (s.updPart i f).peak j = s.peak j := rfl
@[simp] theorem policer_updPart : (s.updPart i f).policer j = s.policer j := rfl
@[simp] theorem slice_updPart : (s.updPart i f).slice j = s.slice j := rfl
@[simp] theorem bond_updPart : (s.updPart i f).bond j = s.bond j := rfl
@[simp] theorem lag_updPart : (s.updPart i f).lag j = s.lag j := rfl
@[simp] theorem port_updPart : (s.updPart i f).port j = s.port j := rfl
@[simp] theorem mac_updPart : (s.updPart i f).mac j = s.mac j := rfl
@[simp] theorem lane_updPart : (s.updPart i f).lane j = s.lane j := rfl
@[simp] theorem ep_updPart : (s.updPart i f).ep j = s.ep j := rfl
@[simp] theorem pdom_updPart : (s.updPart i f).pdom j = s.pdom j := rfl
@[simp] theorem dom_updPart : (s.updPart i f).dom j = s.dom j := rfl
@[simp] theorem trig_updPart : (s.updPart i f).trig j = s.trig j := rfl
@[simp] theorem capt_updPart : (s.updPart i f).capt j = s.capt j := rfl
@[simp] theorem ptp_updPart : (s.updPart i f).ptp j = s.ptp j := rfl
@[simp] theorem stream_updPart : (s.updPart i f).stream j = s.stream j := rfl
@[simp] theorem bank_updPart : (s.updPart i f).bank j = s.bank j := rfl
@[simp] theorem stack_updPart : (s.updPart i f).stack j = s.stack j := rfl
@[simp] theorem pin_updPart : (s.updPart i f).pin j = s.pin j := rfl
@[simp] theorem chans_updPart : (s.updPart i f).chans = s.chans := rfl
@[simp] theorem queues_updPart : (s.updPart i f).queues = s.queues := rfl
@[simp] theorem allocs_updPart : (s.updPart i f).allocs = s.allocs := rfl
@[simp] theorem peaks_updPart : (s.updPart i f).peaks = s.peaks := rfl
@[simp] theorem policers_updPart : (s.updPart i f).policers = s.policers := rfl
@[simp] theorem rules_updPart : (s.updPart i f).rules = s.rules := rfl
@[simp] theorem counters_updPart : (s.updPart i f).counters = s.counters := rfl
@[simp] theorem slices_updPart : (s.updPart i f).slices = s.slices := rfl
@[simp] theorem bonds_updPart : (s.updPart i f).bonds = s.bonds := rfl
@[simp] theorem lags_updPart : (s.updPart i f).lags = s.lags := rfl
@[simp] theorem mem_updPart : (s.updPart i f).mem = s.mem := rfl
@[simp] theorem gorse_updPart : (s.updPart i f).gorse = s.gorse := rfl
@[simp] theorem time_updPart : (s.updPart i f).time = s.time := rfl
@[simp] theorem trib_updPart : (s.updPart i f).trib = s.trib := rfl
@[simp] theorem ports_updPart : (s.updPart i f).ports = s.ports := rfl
@[simp] theorem macs_updPart : (s.updPart i f).macs = s.macs := rfl
@[simp] theorem lanes_updPart : (s.updPart i f).lanes = s.lanes := rfl
@[simp] theorem pwr_updPart : (s.updPart i f).pwr = s.pwr := rfl
@[simp] theorem rst_updPart : (s.updPart i f).rst = s.rst := rfl
@[simp] theorem fw_updPart : (s.updPart i f).fw = s.fw := rfl
@[simp] theorem mgmt_updPart : (s.updPart i f).mgmt = s.mgmt := rfl
@[simp] theorem eps_updPart : (s.updPart i f).eps = s.eps := rfl
@[simp] theorem out_updPart : (s.updPart i f).out = s.out := rfl
@[simp] theorem now_updPart : (s.updPart i f).now = s.now := rfl
@[simp] theorem draws_updPart : (s.updPart i f).draws = s.draws := rfl
@[simp] theorem nextFrame_updPart : (s.updPart i f).nextFrame = s.nextFrame := rfl
@[simp] theorem pending_updPart : (s.updPart i f).pending = s.pending := rfl

end

section
variable (f : EpSt → EpSt)

@[simp] theorem ep_updEp : (s.updEp i f).ep j = if j = i then f (s.ep i) else s.ep j := Tab.get_upd _ _ _ _
theorem updEp_updEp (g : EpSt → EpSt) : (s.updEp i f).updEp i g = s.updEp i fun x => g (f x) := by
  simp only [updEp, Tab.upd_upd]
theorem updEp_congr (g : EpSt → EpSt) (h : f (s.ep i) = g (s.ep i)) : s.updEp i f = s.updEp i g := by
  simp only [updEp, Tab.upd_congr _ _ f g h]
theorem updEp_emit (x : Out) : (s.emit x).updEp i f = (s.updEp i f).emit x := rfl
@[simp] theorem chan_updEp : (s.updEp i f).chan j = s.chan j := rfl
@[simp] theorem queue_updEp : (s.updEp i f).queue j = s.queue j := rfl
@[simp] theorem alloc_updEp : (s.updEp i f).alloc j = s.alloc j := rfl
@[simp] theorem peak_updEp : (s.updEp i f).peak j = s.peak j := rfl
@[simp] theorem policer_updEp : (s.updEp i f).policer j = s.policer j := rfl
@[simp] theorem slice_updEp : (s.updEp i f).slice j = s.slice j := rfl
@[simp] theorem bond_updEp : (s.updEp i f).bond j = s.bond j := rfl
@[simp] theorem lag_updEp : (s.updEp i f).lag j = s.lag j := rfl
@[simp] theorem port_updEp : (s.updEp i f).port j = s.port j := rfl
@[simp] theorem mac_updEp : (s.updEp i f).mac j = s.mac j := rfl
@[simp] theorem lane_updEp : (s.updEp i f).lane j = s.lane j := rfl
@[simp] theorem part_updEp : (s.updEp i f).part j = s.part j := rfl
@[simp] theorem pdom_updEp : (s.updEp i f).pdom j = s.pdom j := rfl
@[simp] theorem dom_updEp : (s.updEp i f).dom j = s.dom j := rfl
@[simp] theorem trig_updEp : (s.updEp i f).trig j = s.trig j := rfl
@[simp] theorem capt_updEp : (s.updEp i f).capt j = s.capt j := rfl
@[simp] theorem ptp_updEp : (s.updEp i f).ptp j = s.ptp j := rfl
@[simp] theorem stream_updEp : (s.updEp i f).stream j = s.stream j := rfl
@[simp] theorem bank_updEp : (s.updEp i f).bank j = s.bank j := rfl
@[simp] theorem stack_updEp : (s.updEp i f).stack j = s.stack j := rfl
@[simp] theorem pin_updEp : (s.updEp i f).pin j = s.pin j := rfl
@[simp] theorem chans_updEp : (s.updEp i f).chans = s.chans := rfl
@[simp] theorem queues_updEp : (s.updEp i f).queues = s.queues := rfl
@[simp] theorem allocs_updEp : (s.updEp i f).allocs = s.allocs := rfl
@[simp] theorem peaks_updEp : (s.updEp i f).peaks = s.peaks := rfl
@[simp] theorem policers_updEp : (s.updEp i f).policers = s.policers := rfl
@[simp] theorem rules_updEp : (s.updEp i f).rules = s.rules := rfl
@[simp] theorem counters_updEp : (s.updEp i f).counters = s.counters := rfl
@[simp] theorem slices_updEp : (s.updEp i f).slices = s.slices := rfl
@[simp] theorem bonds_updEp : (s.updEp i f).bonds = s.bonds := rfl
@[simp] theorem lags_updEp : (s.updEp i f).lags = s.lags := rfl
@[simp] theorem mem_updEp : (s.updEp i f).mem = s.mem := rfl
@[simp] theorem gorse_updEp : (s.updEp i f).gorse = s.gorse := rfl
@[simp] theorem time_updEp : (s.updEp i f).time = s.time := rfl
@[simp] theorem trib_updEp : (s.updEp i f).trib = s.trib := rfl
@[simp] theorem ports_updEp : (s.updEp i f).ports = s.ports := rfl
@[simp] theorem macs_updEp : (s.updEp i f).macs = s.macs := rfl
@[simp] theorem lanes_updEp : (s.updEp i f).lanes = s.lanes := rfl
@[simp] theorem pwr_updEp : (s.updEp i f).pwr = s.pwr := rfl
@[simp] theorem rst_updEp : (s.updEp i f).rst = s.rst := rfl
@[simp] theorem fw_updEp : (s.updEp i f).fw = s.fw := rfl
@[simp] theorem mgmt_updEp : (s.updEp i f).mgmt = s.mgmt := rfl
@[simp] theorem parts_updEp : (s.updEp i f).parts = s.parts := rfl
@[simp] theorem out_updEp : (s.updEp i f).out = s.out := rfl
@[simp] theorem now_updEp : (s.updEp i f).now = s.now := rfl
@[simp] theorem draws_updEp : (s.updEp i f).draws = s.draws := rfl
@[simp] theorem nextFrame_updEp : (s.updEp i f).nextFrame = s.nextFrame := rfl
@[simp] theorem pending_updEp : (s.updEp i f).pending = s.pending := rfl

end

section
variable (f : PwrDom → PwrDom)

@[simp] theorem pdom_updPdom : (s.updPdom i f).pdom j = if j = i then f (s.pdom i) else s.pdom j := Tab.get_upd _ _ _ _
theorem updPdom_updPdom (g : PwrDom → PwrDom) : (s.updPdom i f).updPdom i g = s.updPdom i fun x => g (f x) := by
  simp only [updPdom, Tab.upd_upd]
theorem updPdom_congr (g : PwrDom → PwrDom) (h : f (s.pdom i) = g (s.pdom i)) : s.updPdom i f = s.updPdom i g := by
  simp only [updPdom, Tab.upd_congr _ _ f g h]
theorem updPdom_emit (x : Out) : (s.emit x).updPdom i f = (s.updPdom i f).emit x := rfl
@[simp] theorem chan_updPdom : (s.updPdom i f).chan j = s.chan j := rfl
@[simp] theorem queue_updPdom : (s.updPdom i f).queue j = s.queue j := rfl
@[simp] theorem alloc_updPdom : (s.updPdom i f).alloc j = s.alloc j := rfl
@[simp] theorem peak_updPdom : (s.updPdom i f).peak j = s.peak j := rfl
@[simp] theorem policer_updPdom : (s.updPdom i f).policer j = s.policer j := rfl
@[simp] theorem slice_updPdom : (s.updPdom i f).slice j = s.slice j := rfl
@[simp] theorem bond_updPdom : (s.updPdom i f).bond j = s.bond j := rfl
@[simp] theorem lag_updPdom : (s.updPdom i f).lag j = s.lag j := rfl
@[simp] theorem port_updPdom : (s.updPdom i f).port j = s.port j := rfl
@[simp] theorem mac_updPdom : (s.updPdom i f).mac j = s.mac j := rfl
@[simp] theorem lane_updPdom : (s.updPdom i f).lane j = s.lane j := rfl
@[simp] theorem part_updPdom : (s.updPdom i f).part j = s.part j := rfl
@[simp] theorem ep_updPdom : (s.updPdom i f).ep j = s.ep j := rfl
@[simp] theorem dom_updPdom : (s.updPdom i f).dom j = s.dom j := rfl
@[simp] theorem trig_updPdom : (s.updPdom i f).trig j = s.trig j := rfl
@[simp] theorem capt_updPdom : (s.updPdom i f).capt j = s.capt j := rfl
@[simp] theorem ptp_updPdom : (s.updPdom i f).ptp j = s.ptp j := rfl
@[simp] theorem stream_updPdom : (s.updPdom i f).stream j = s.stream j := rfl
@[simp] theorem bank_updPdom : (s.updPdom i f).bank j = s.bank j := rfl
@[simp] theorem stack_updPdom : (s.updPdom i f).stack j = s.stack j := rfl
@[simp] theorem pin_updPdom : (s.updPdom i f).pin j = s.pin j := rfl
@[simp] theorem chans_updPdom : (s.updPdom i f).chans = s.chans := rfl
@[simp] theorem queues_updPdom : (s.updPdom i f).queues = s.queues := rfl
@[simp] theorem allocs_updPdom : (s.updPdom i f).allocs = s.allocs := rfl
@[simp] theorem peaks_updPdom : (s.updPdom i f).peaks = s.peaks := rfl
@[simp] theorem policers_updPdom : (s.updPdom i f).policers = s.policers := rfl
@[simp] theorem rules_updPdom : (s.updPdom i f).rules = s.rules := rfl
@[simp] theorem counters_updPdom : (s.updPdom i f).counters = s.counters := rfl
@[simp] theorem slices_updPdom : (s.updPdom i f).slices = s.slices := rfl
@[simp] theorem bonds_updPdom : (s.updPdom i f).bonds = s.bonds := rfl
@[simp] theorem lags_updPdom : (s.updPdom i f).lags = s.lags := rfl
@[simp] theorem mem_updPdom : (s.updPdom i f).mem = s.mem := rfl
@[simp] theorem gorse_updPdom : (s.updPdom i f).gorse = s.gorse := rfl
@[simp] theorem time_updPdom : (s.updPdom i f).time = s.time := rfl
@[simp] theorem trib_updPdom : (s.updPdom i f).trib = s.trib := rfl
@[simp] theorem ports_updPdom : (s.updPdom i f).ports = s.ports := rfl
@[simp] theorem macs_updPdom : (s.updPdom i f).macs = s.macs := rfl
@[simp] theorem lanes_updPdom : (s.updPdom i f).lanes = s.lanes := rfl
@[simp] theorem rst_updPdom : (s.updPdom i f).rst = s.rst := rfl
@[simp] theorem fw_updPdom : (s.updPdom i f).fw = s.fw := rfl
@[simp] theorem mgmt_updPdom : (s.updPdom i f).mgmt = s.mgmt := rfl
@[simp] theorem parts_updPdom : (s.updPdom i f).parts = s.parts := rfl
@[simp] theorem eps_updPdom : (s.updPdom i f).eps = s.eps := rfl
@[simp] theorem out_updPdom : (s.updPdom i f).out = s.out := rfl
@[simp] theorem now_updPdom : (s.updPdom i f).now = s.now := rfl
@[simp] theorem draws_updPdom : (s.updPdom i f).draws = s.draws := rfl
@[simp] theorem nextFrame_updPdom : (s.updPdom i f).nextFrame = s.nextFrame := rfl
@[simp] theorem pending_updPdom : (s.updPdom i f).pending = s.pending := rfl

end

section
variable (f : DomainSt → DomainSt)

@[simp] theorem dom_updDom : (s.updDom i f).dom j = if j = i then f (s.dom i) else s.dom j := Tab.get_upd _ _ _ _
theorem updDom_updDom (g : DomainSt → DomainSt) : (s.updDom i f).updDom i g = s.updDom i fun x => g (f x) := by
  simp only [updDom, Tab.upd_upd]
theorem updDom_congr (g : DomainSt → DomainSt) (h : f (s.dom i) = g (s.dom i)) : s.updDom i f = s.updDom i g := by
  simp only [updDom, Tab.upd_congr _ _ f g h]
theorem updDom_emit (x : Out) : (s.emit x).updDom i f = (s.updDom i f).emit x := rfl
@[simp] theorem chan_updDom : (s.updDom i f).chan j = s.chan j := rfl
@[simp] theorem queue_updDom : (s.updDom i f).queue j = s.queue j := rfl
@[simp] theorem alloc_updDom : (s.updDom i f).alloc j = s.alloc j := rfl
@[simp] theorem peak_updDom : (s.updDom i f).peak j = s.peak j := rfl
@[simp] theorem policer_updDom : (s.updDom i f).policer j = s.policer j := rfl
@[simp] theorem slice_updDom : (s.updDom i f).slice j = s.slice j := rfl
@[simp] theorem bond_updDom : (s.updDom i f).bond j = s.bond j := rfl
@[simp] theorem lag_updDom : (s.updDom i f).lag j = s.lag j := rfl
@[simp] theorem port_updDom : (s.updDom i f).port j = s.port j := rfl
@[simp] theorem mac_updDom : (s.updDom i f).mac j = s.mac j := rfl
@[simp] theorem lane_updDom : (s.updDom i f).lane j = s.lane j := rfl
@[simp] theorem part_updDom : (s.updDom i f).part j = s.part j := rfl
@[simp] theorem ep_updDom : (s.updDom i f).ep j = s.ep j := rfl
@[simp] theorem pdom_updDom : (s.updDom i f).pdom j = s.pdom j := rfl
@[simp] theorem trig_updDom : (s.updDom i f).trig j = s.trig j := rfl
@[simp] theorem capt_updDom : (s.updDom i f).capt j = s.capt j := rfl
@[simp] theorem ptp_updDom : (s.updDom i f).ptp j = s.ptp j := rfl
@[simp] theorem stream_updDom : (s.updDom i f).stream j = s.stream j := rfl
@[simp] theorem bank_updDom : (s.updDom i f).bank j = s.bank j := rfl
@[simp] theorem stack_updDom : (s.updDom i f).stack j = s.stack j := rfl
@[simp] theorem pin_updDom : (s.updDom i f).pin j = s.pin j := rfl
@[simp] theorem chans_updDom : (s.updDom i f).chans = s.chans := rfl
@[simp] theorem queues_updDom : (s.updDom i f).queues = s.queues := rfl
@[simp] theorem allocs_updDom : (s.updDom i f).allocs = s.allocs := rfl
@[simp] theorem peaks_updDom : (s.updDom i f).peaks = s.peaks := rfl
@[simp] theorem policers_updDom : (s.updDom i f).policers = s.policers := rfl
@[simp] theorem rules_updDom : (s.updDom i f).rules = s.rules := rfl
@[simp] theorem counters_updDom : (s.updDom i f).counters = s.counters := rfl
@[simp] theorem slices_updDom : (s.updDom i f).slices = s.slices := rfl
@[simp] theorem bonds_updDom : (s.updDom i f).bonds = s.bonds := rfl
@[simp] theorem lags_updDom : (s.updDom i f).lags = s.lags := rfl
@[simp] theorem mem_updDom : (s.updDom i f).mem = s.mem := rfl
@[simp] theorem gorse_updDom : (s.updDom i f).gorse = s.gorse := rfl
@[simp] theorem trib_updDom : (s.updDom i f).trib = s.trib := rfl
@[simp] theorem ports_updDom : (s.updDom i f).ports = s.ports := rfl
@[simp] theorem macs_updDom : (s.updDom i f).macs = s.macs := rfl
@[simp] theorem lanes_updDom : (s.updDom i f).lanes = s.lanes := rfl
@[simp] theorem pwr_updDom : (s.updDom i f).pwr = s.pwr := rfl
@[simp] theorem rst_updDom : (s.updDom i f).rst = s.rst := rfl
@[simp] theorem fw_updDom : (s.updDom i f).fw = s.fw := rfl
@[simp] theorem mgmt_updDom : (s.updDom i f).mgmt = s.mgmt := rfl
@[simp] theorem parts_updDom : (s.updDom i f).parts = s.parts := rfl
@[simp] theorem eps_updDom : (s.updDom i f).eps = s.eps := rfl
@[simp] theorem out_updDom : (s.updDom i f).out = s.out := rfl
@[simp] theorem now_updDom : (s.updDom i f).now = s.now := rfl
@[simp] theorem draws_updDom : (s.updDom i f).draws = s.draws := rfl
@[simp] theorem nextFrame_updDom : (s.updDom i f).nextFrame = s.nextFrame := rfl
@[simp] theorem pending_updDom : (s.updDom i f).pending = s.pending := rfl

end

section
variable (f : TrigSt → TrigSt)

@[simp] theorem trig_updTrig : (s.updTrig i f).trig j = if j = i then f (s.trig i) else s.trig j := Tab.get_upd _ _ _ _
theorem updTrig_updTrig (g : TrigSt → TrigSt) : (s.updTrig i f).updTrig i g = s.updTrig i fun x => g (f x) := by
  simp only [updTrig, Tab.upd_upd]
theorem updTrig_congr (g : TrigSt → TrigSt) (h : f (s.trig i) = g (s.trig i)) : s.updTrig i f = s.updTrig i g := by
  simp only [updTrig, Tab.upd_congr _ _ f g h]
theorem updTrig_emit (x : Out) : (s.emit x).updTrig i f = (s.updTrig i f).emit x := rfl
@[simp] theorem chan_updTrig : (s.updTrig i f).chan j = s.chan j := rfl
@[simp] theorem queue_updTrig : (s.updTrig i f).queue j = s.queue j := rfl
@[simp] theorem alloc_updTrig : (s.updTrig i f).alloc j = s.alloc j := rfl
@[simp] theorem peak_updTrig : (s.updTrig i f).peak j = s.peak j := rfl
@[simp] theorem policer_updTrig : (s.updTrig i f).policer j = s.policer j := rfl
@[simp] theorem slice_updTrig : (s.updTrig i f).slice j = s.slice j := rfl
@[simp] theorem bond_updTrig : (s.updTrig i f).bond j = s.bond j := rfl
@[simp] theorem lag_updTrig : (s.updTrig i f).lag j = s.lag j := rfl
@[simp] theorem port_updTrig : (s.updTrig i f).port j = s.port j := rfl
@[simp] theorem mac_updTrig : (s.updTrig i f).mac j = s.mac j := rfl
@[simp] theorem lane_updTrig : (s.updTrig i f).lane j = s.lane j := rfl
@[simp] theorem part_updTrig : (s.updTrig i f).part j = s.part j := rfl
@[simp] theorem ep_updTrig : (s.updTrig i f).ep j = s.ep j := rfl
@[simp] theorem pdom_updTrig : (s.updTrig i f).pdom j = s.pdom j := rfl
@[simp] theorem dom_updTrig : (s.updTrig i f).dom j = s.dom j := rfl
@[simp] theorem capt_updTrig : (s.updTrig i f).capt j = s.capt j := rfl
@[simp] theorem ptp_updTrig : (s.updTrig i f).ptp j = s.ptp j := rfl
@[simp] theorem stream_updTrig : (s.updTrig i f).stream j = s.stream j := rfl
@[simp] theorem bank_updTrig : (s.updTrig i f).bank j = s.bank j := rfl
@[simp] theorem stack_updTrig : (s.updTrig i f).stack j = s.stack j := rfl
@[simp] theorem pin_updTrig : (s.updTrig i f).pin j = s.pin j := rfl
@[simp] theorem chans_updTrig : (s.updTrig i f).chans = s.chans := rfl
@[simp] theorem queues_updTrig : (s.updTrig i f).queues = s.queues := rfl
@[simp] theorem allocs_updTrig : (s.updTrig i f).allocs = s.allocs := rfl
@[simp] theorem peaks_updTrig : (s.updTrig i f).peaks = s.peaks := rfl
@[simp] theorem policers_updTrig : (s.updTrig i f).policers = s.policers := rfl
@[simp] theorem rules_updTrig : (s.updTrig i f).rules = s.rules := rfl
@[simp] theorem counters_updTrig : (s.updTrig i f).counters = s.counters := rfl
@[simp] theorem slices_updTrig : (s.updTrig i f).slices = s.slices := rfl
@[simp] theorem bonds_updTrig : (s.updTrig i f).bonds = s.bonds := rfl
@[simp] theorem lags_updTrig : (s.updTrig i f).lags = s.lags := rfl
@[simp] theorem mem_updTrig : (s.updTrig i f).mem = s.mem := rfl
@[simp] theorem gorse_updTrig : (s.updTrig i f).gorse = s.gorse := rfl
@[simp] theorem trib_updTrig : (s.updTrig i f).trib = s.trib := rfl
@[simp] theorem ports_updTrig : (s.updTrig i f).ports = s.ports := rfl
@[simp] theorem macs_updTrig : (s.updTrig i f).macs = s.macs := rfl
@[simp] theorem lanes_updTrig : (s.updTrig i f).lanes = s.lanes := rfl
@[simp] theorem pwr_updTrig : (s.updTrig i f).pwr = s.pwr := rfl
@[simp] theorem rst_updTrig : (s.updTrig i f).rst = s.rst := rfl
@[simp] theorem fw_updTrig : (s.updTrig i f).fw = s.fw := rfl
@[simp] theorem mgmt_updTrig : (s.updTrig i f).mgmt = s.mgmt := rfl
@[simp] theorem parts_updTrig : (s.updTrig i f).parts = s.parts := rfl
@[simp] theorem eps_updTrig : (s.updTrig i f).eps = s.eps := rfl
@[simp] theorem out_updTrig : (s.updTrig i f).out = s.out := rfl
@[simp] theorem now_updTrig : (s.updTrig i f).now = s.now := rfl
@[simp] theorem draws_updTrig : (s.updTrig i f).draws = s.draws := rfl
@[simp] theorem nextFrame_updTrig : (s.updTrig i f).nextFrame = s.nextFrame := rfl
@[simp] theorem pending_updTrig : (s.updTrig i f).pending = s.pending := rfl

end

section
variable (f : CaptSt → CaptSt)

@[simp] theorem capt_updCapt : (s.updCapt i f).capt j = if j = i then f (s.capt i) else s.capt j := Tab.get_upd _ _ _ _
theorem updCapt_updCapt (g : CaptSt → CaptSt) : (s.updCapt i f).updCapt i g = s.updCapt i fun x => g (f x) := by
  simp only [updCapt, Tab.upd_upd]
theorem updCapt_congr (g : CaptSt → CaptSt) (h : f (s.capt i) = g (s.capt i)) : s.updCapt i f = s.updCapt i g := by
  simp only [updCapt, Tab.upd_congr _ _ f g h]
theorem updCapt_emit (x : Out) : (s.emit x).updCapt i f = (s.updCapt i f).emit x := rfl
@[simp] theorem chan_updCapt : (s.updCapt i f).chan j = s.chan j := rfl
@[simp] theorem queue_updCapt : (s.updCapt i f).queue j = s.queue j := rfl
@[simp] theorem alloc_updCapt : (s.updCapt i f).alloc j = s.alloc j := rfl
@[simp] theorem peak_updCapt : (s.updCapt i f).peak j = s.peak j := rfl
@[simp] theorem policer_updCapt : (s.updCapt i f).policer j = s.policer j := rfl
@[simp] theorem slice_updCapt : (s.updCapt i f).slice j = s.slice j := rfl
@[simp] theorem bond_updCapt : (s.updCapt i f).bond j = s.bond j := rfl
@[simp] theorem lag_updCapt : (s.updCapt i f).lag j = s.lag j := rfl
@[simp] theorem port_updCapt : (s.updCapt i f).port j = s.port j := rfl
@[simp] theorem mac_updCapt : (s.updCapt i f).mac j = s.mac j := rfl
@[simp] theorem lane_updCapt : (s.updCapt i f).lane j = s.lane j := rfl
@[simp] theorem part_updCapt : (s.updCapt i f).part j = s.part j := rfl
@[simp] theorem ep_updCapt : (s.updCapt i f).ep j = s.ep j := rfl
@[simp] theorem pdom_updCapt : (s.updCapt i f).pdom j = s.pdom j := rfl
@[simp] theorem dom_updCapt : (s.updCapt i f).dom j = s.dom j := rfl
@[simp] theorem trig_updCapt : (s.updCapt i f).trig j = s.trig j := rfl
@[simp] theorem ptp_updCapt : (s.updCapt i f).ptp j = s.ptp j := rfl
@[simp] theorem stream_updCapt : (s.updCapt i f).stream j = s.stream j := rfl
@[simp] theorem bank_updCapt : (s.updCapt i f).bank j = s.bank j := rfl
@[simp] theorem stack_updCapt : (s.updCapt i f).stack j = s.stack j := rfl
@[simp] theorem pin_updCapt : (s.updCapt i f).pin j = s.pin j := rfl
@[simp] theorem chans_updCapt : (s.updCapt i f).chans = s.chans := rfl
@[simp] theorem queues_updCapt : (s.updCapt i f).queues = s.queues := rfl
@[simp] theorem allocs_updCapt : (s.updCapt i f).allocs = s.allocs := rfl
@[simp] theorem peaks_updCapt : (s.updCapt i f).peaks = s.peaks := rfl
@[simp] theorem policers_updCapt : (s.updCapt i f).policers = s.policers := rfl
@[simp] theorem rules_updCapt : (s.updCapt i f).rules = s.rules := rfl
@[simp] theorem counters_updCapt : (s.updCapt i f).counters = s.counters := rfl
@[simp] theorem slices_updCapt : (s.updCapt i f).slices = s.slices := rfl
@[simp] theorem bonds_updCapt : (s.updCapt i f).bonds = s.bonds := rfl
@[simp] theorem lags_updCapt : (s.updCapt i f).lags = s.lags := rfl
@[simp] theorem mem_updCapt : (s.updCapt i f).mem = s.mem := rfl
@[simp] theorem gorse_updCapt : (s.updCapt i f).gorse = s.gorse := rfl
@[simp] theorem trib_updCapt : (s.updCapt i f).trib = s.trib := rfl
@[simp] theorem ports_updCapt : (s.updCapt i f).ports = s.ports := rfl
@[simp] theorem macs_updCapt : (s.updCapt i f).macs = s.macs := rfl
@[simp] theorem lanes_updCapt : (s.updCapt i f).lanes = s.lanes := rfl
@[simp] theorem pwr_updCapt : (s.updCapt i f).pwr = s.pwr := rfl
@[simp] theorem rst_updCapt : (s.updCapt i f).rst = s.rst := rfl
@[simp] theorem fw_updCapt : (s.updCapt i f).fw = s.fw := rfl
@[simp] theorem mgmt_updCapt : (s.updCapt i f).mgmt = s.mgmt := rfl
@[simp] theorem parts_updCapt : (s.updCapt i f).parts = s.parts := rfl
@[simp] theorem eps_updCapt : (s.updCapt i f).eps = s.eps := rfl
@[simp] theorem out_updCapt : (s.updCapt i f).out = s.out := rfl
@[simp] theorem now_updCapt : (s.updCapt i f).now = s.now := rfl
@[simp] theorem draws_updCapt : (s.updCapt i f).draws = s.draws := rfl
@[simp] theorem nextFrame_updCapt : (s.updCapt i f).nextFrame = s.nextFrame := rfl
@[simp] theorem pending_updCapt : (s.updCapt i f).pending = s.pending := rfl

end

section
variable (f : PtpSrc → PtpSrc)

@[simp] theorem ptp_updPtp : (s.updPtp i f).ptp j = if j = i then f (s.ptp i) else s.ptp j := Tab.get_upd _ _ _ _
theorem updPtp_updPtp (g : PtpSrc → PtpSrc) : (s.updPtp i f).updPtp i g = s.updPtp i fun x => g (f x) := by
  simp only [updPtp, Tab.upd_upd]
theorem updPtp_congr (g : PtpSrc → PtpSrc) (h : f (s.ptp i) = g (s.ptp i)) : s.updPtp i f = s.updPtp i g := by
  simp only [updPtp, Tab.upd_congr _ _ f g h]
theorem updPtp_emit (x : Out) : (s.emit x).updPtp i f = (s.updPtp i f).emit x := rfl
@[simp] theorem chan_updPtp : (s.updPtp i f).chan j = s.chan j := rfl
@[simp] theorem queue_updPtp : (s.updPtp i f).queue j = s.queue j := rfl
@[simp] theorem alloc_updPtp : (s.updPtp i f).alloc j = s.alloc j := rfl
@[simp] theorem peak_updPtp : (s.updPtp i f).peak j = s.peak j := rfl
@[simp] theorem policer_updPtp : (s.updPtp i f).policer j = s.policer j := rfl
@[simp] theorem slice_updPtp : (s.updPtp i f).slice j = s.slice j := rfl
@[simp] theorem bond_updPtp : (s.updPtp i f).bond j = s.bond j := rfl
@[simp] theorem lag_updPtp : (s.updPtp i f).lag j = s.lag j := rfl
@[simp] theorem port_updPtp : (s.updPtp i f).port j = s.port j := rfl
@[simp] theorem mac_updPtp : (s.updPtp i f).mac j = s.mac j := rfl
@[simp] theorem lane_updPtp : (s.updPtp i f).lane j = s.lane j := rfl
@[simp] theorem part_updPtp : (s.updPtp i f).part j = s.part j := rfl
@[simp] theorem ep_updPtp : (s.updPtp i f).ep j = s.ep j := rfl
@[simp] theorem pdom_updPtp : (s.updPtp i f).pdom j = s.pdom j := rfl
@[simp] theorem dom_updPtp : (s.updPtp i f).dom j = s.dom j := rfl
@[simp] theorem trig_updPtp : (s.updPtp i f).trig j = s.trig j := rfl
@[simp] theorem capt_updPtp : (s.updPtp i f).capt j = s.capt j := rfl
@[simp] theorem stream_updPtp : (s.updPtp i f).stream j = s.stream j := rfl
@[simp] theorem bank_updPtp : (s.updPtp i f).bank j = s.bank j := rfl
@[simp] theorem stack_updPtp : (s.updPtp i f).stack j = s.stack j := rfl
@[simp] theorem pin_updPtp : (s.updPtp i f).pin j = s.pin j := rfl
@[simp] theorem chans_updPtp : (s.updPtp i f).chans = s.chans := rfl
@[simp] theorem queues_updPtp : (s.updPtp i f).queues = s.queues := rfl
@[simp] theorem allocs_updPtp : (s.updPtp i f).allocs = s.allocs := rfl
@[simp] theorem peaks_updPtp : (s.updPtp i f).peaks = s.peaks := rfl
@[simp] theorem policers_updPtp : (s.updPtp i f).policers = s.policers := rfl
@[simp] theorem rules_updPtp : (s.updPtp i f).rules = s.rules := rfl
@[simp] theorem counters_updPtp : (s.updPtp i f).counters = s.counters := rfl
@[simp] theorem slices_updPtp : (s.updPtp i f).slices = s.slices := rfl
@[simp] theorem bonds_updPtp : (s.updPtp i f).bonds = s.bonds := rfl
@[simp] theorem lags_updPtp : (s.updPtp i f).lags = s.lags := rfl
@[simp] theorem mem_updPtp : (s.updPtp i f).mem = s.mem := rfl
@[simp] theorem gorse_updPtp : (s.updPtp i f).gorse = s.gorse := rfl
@[simp] theorem trib_updPtp : (s.updPtp i f).trib = s.trib := rfl
@[simp] theorem ports_updPtp : (s.updPtp i f).ports = s.ports := rfl
@[simp] theorem macs_updPtp : (s.updPtp i f).macs = s.macs := rfl
@[simp] theorem lanes_updPtp : (s.updPtp i f).lanes = s.lanes := rfl
@[simp] theorem pwr_updPtp : (s.updPtp i f).pwr = s.pwr := rfl
@[simp] theorem rst_updPtp : (s.updPtp i f).rst = s.rst := rfl
@[simp] theorem fw_updPtp : (s.updPtp i f).fw = s.fw := rfl
@[simp] theorem mgmt_updPtp : (s.updPtp i f).mgmt = s.mgmt := rfl
@[simp] theorem parts_updPtp : (s.updPtp i f).parts = s.parts := rfl
@[simp] theorem eps_updPtp : (s.updPtp i f).eps = s.eps := rfl
@[simp] theorem out_updPtp : (s.updPtp i f).out = s.out := rfl
@[simp] theorem now_updPtp : (s.updPtp i f).now = s.now := rfl
@[simp] theorem draws_updPtp : (s.updPtp i f).draws = s.draws := rfl
@[simp] theorem nextFrame_updPtp : (s.updPtp i f).nextFrame = s.nextFrame := rfl
@[simp] theorem pending_updPtp : (s.updPtp i f).pending = s.pending := rfl

end

section
variable (f : StreamSt → StreamSt)

@[simp] theorem stream_updStream : (s.updStream i f).stream j = if j = i then f (s.stream i) else s.stream j := Tab.get_upd _ _ _ _
theorem updStream_updStream (g : StreamSt → StreamSt) : (s.updStream i f).updStream i g = s.updStream i fun x => g (f x) := by
  simp only [updStream, Tab.upd_upd]
theorem updStream_congr (g : StreamSt → StreamSt) (h : f (s.stream i) = g (s.stream i)) : s.updStream i f = s.updStream i g := by
  simp only [updStream, Tab.upd_congr _ _ f g h]
theorem updStream_emit (x : Out) : (s.emit x).updStream i f = (s.updStream i f).emit x := rfl
@[simp] theorem chan_updStream : (s.updStream i f).chan j = s.chan j := rfl
@[simp] theorem queue_updStream : (s.updStream i f).queue j = s.queue j := rfl
@[simp] theorem alloc_updStream : (s.updStream i f).alloc j = s.alloc j := rfl
@[simp] theorem peak_updStream : (s.updStream i f).peak j = s.peak j := rfl
@[simp] theorem policer_updStream : (s.updStream i f).policer j = s.policer j := rfl
@[simp] theorem slice_updStream : (s.updStream i f).slice j = s.slice j := rfl
@[simp] theorem bond_updStream : (s.updStream i f).bond j = s.bond j := rfl
@[simp] theorem lag_updStream : (s.updStream i f).lag j = s.lag j := rfl
@[simp] theorem port_updStream : (s.updStream i f).port j = s.port j := rfl
@[simp] theorem mac_updStream : (s.updStream i f).mac j = s.mac j := rfl
@[simp] theorem lane_updStream : (s.updStream i f).lane j = s.lane j := rfl
@[simp] theorem part_updStream : (s.updStream i f).part j = s.part j := rfl
@[simp] theorem ep_updStream : (s.updStream i f).ep j = s.ep j := rfl
@[simp] theorem pdom_updStream : (s.updStream i f).pdom j = s.pdom j := rfl
@[simp] theorem dom_updStream : (s.updStream i f).dom j = s.dom j := rfl
@[simp] theorem trig_updStream : (s.updStream i f).trig j = s.trig j := rfl
@[simp] theorem capt_updStream : (s.updStream i f).capt j = s.capt j := rfl
@[simp] theorem ptp_updStream : (s.updStream i f).ptp j = s.ptp j := rfl
@[simp] theorem bank_updStream : (s.updStream i f).bank j = s.bank j := rfl
@[simp] theorem stack_updStream : (s.updStream i f).stack j = s.stack j := rfl
@[simp] theorem pin_updStream : (s.updStream i f).pin j = s.pin j := rfl
@[simp] theorem chans_updStream : (s.updStream i f).chans = s.chans := rfl
@[simp] theorem queues_updStream : (s.updStream i f).queues = s.queues := rfl
@[simp] theorem allocs_updStream : (s.updStream i f).allocs = s.allocs := rfl
@[simp] theorem peaks_updStream : (s.updStream i f).peaks = s.peaks := rfl
@[simp] theorem policers_updStream : (s.updStream i f).policers = s.policers := rfl
@[simp] theorem rules_updStream : (s.updStream i f).rules = s.rules := rfl
@[simp] theorem counters_updStream : (s.updStream i f).counters = s.counters := rfl
@[simp] theorem slices_updStream : (s.updStream i f).slices = s.slices := rfl
@[simp] theorem bonds_updStream : (s.updStream i f).bonds = s.bonds := rfl
@[simp] theorem lags_updStream : (s.updStream i f).lags = s.lags := rfl
@[simp] theorem mem_updStream : (s.updStream i f).mem = s.mem := rfl
@[simp] theorem gorse_updStream : (s.updStream i f).gorse = s.gorse := rfl
@[simp] theorem time_updStream : (s.updStream i f).time = s.time := rfl
@[simp] theorem ports_updStream : (s.updStream i f).ports = s.ports := rfl
@[simp] theorem macs_updStream : (s.updStream i f).macs = s.macs := rfl
@[simp] theorem lanes_updStream : (s.updStream i f).lanes = s.lanes := rfl
@[simp] theorem pwr_updStream : (s.updStream i f).pwr = s.pwr := rfl
@[simp] theorem rst_updStream : (s.updStream i f).rst = s.rst := rfl
@[simp] theorem fw_updStream : (s.updStream i f).fw = s.fw := rfl
@[simp] theorem mgmt_updStream : (s.updStream i f).mgmt = s.mgmt := rfl
@[simp] theorem parts_updStream : (s.updStream i f).parts = s.parts := rfl
@[simp] theorem eps_updStream : (s.updStream i f).eps = s.eps := rfl
@[simp] theorem out_updStream : (s.updStream i f).out = s.out := rfl
@[simp] theorem now_updStream : (s.updStream i f).now = s.now := rfl
@[simp] theorem draws_updStream : (s.updStream i f).draws = s.draws := rfl
@[simp] theorem nextFrame_updStream : (s.updStream i f).nextFrame = s.nextFrame := rfl
@[simp] theorem pending_updStream : (s.updStream i f).pending = s.pending := rfl

end

section
variable (f : BankSt → BankSt)

@[simp] theorem bank_updBank : (s.updBank i f).bank j = if j = i then f (s.bank i) else s.bank j := Tab.get_upd _ _ _ _
theorem updBank_updBank (g : BankSt → BankSt) : (s.updBank i f).updBank i g = s.updBank i fun x => g (f x) := by
  simp only [updBank, Tab.upd_upd]
theorem updBank_congr (g : BankSt → BankSt) (h : f (s.bank i) = g (s.bank i)) : s.updBank i f = s.updBank i g := by
  simp only [updBank, Tab.upd_congr _ _ f g h]
theorem updBank_emit (x : Out) : (s.emit x).updBank i f = (s.updBank i f).emit x := rfl
@[simp] theorem chan_updBank : (s.updBank i f).chan j = s.chan j := rfl
@[simp] theorem queue_updBank : (s.updBank i f).queue j = s.queue j := rfl
@[simp] theorem alloc_updBank : (s.updBank i f).alloc j = s.alloc j := rfl
@[simp] theorem peak_updBank : (s.updBank i f).peak j = s.peak j := rfl
@[simp] theorem policer_updBank : (s.updBank i f).policer j = s.policer j := rfl
@[simp] theorem slice_updBank : (s.updBank i f).slice j = s.slice j := rfl
@[simp] theorem bond_updBank : (s.updBank i f).bond j = s.bond j := rfl
@[simp] theorem lag_updBank : (s.updBank i f).lag j = s.lag j := rfl
@[simp] theorem port_updBank : (s.updBank i f).port j = s.port j := rfl
@[simp] theorem mac_updBank : (s.updBank i f).mac j = s.mac j := rfl
@[simp] theorem lane_updBank : (s.updBank i f).lane j = s.lane j := rfl
@[simp] theorem part_updBank : (s.updBank i f).part j = s.part j := rfl
@[simp] theorem ep_updBank : (s.updBank i f).ep j = s.ep j := rfl
@[simp] theorem pdom_updBank : (s.updBank i f).pdom j = s.pdom j := rfl
@[simp] theorem dom_updBank : (s.updBank i f).dom j = s.dom j := rfl
@[simp] theorem trig_updBank : (s.updBank i f).trig j = s.trig j := rfl
@[simp] theorem capt_updBank : (s.updBank i f).capt j = s.capt j := rfl
@[simp] theorem ptp_updBank : (s.updBank i f).ptp j = s.ptp j := rfl
@[simp] theorem stream_updBank : (s.updBank i f).stream j = s.stream j := rfl
@[simp] theorem stack_updBank : (s.updBank i f).stack j = s.stack j := rfl
@[simp] theorem pin_updBank : (s.updBank i f).pin j = s.pin j := rfl
@[simp] theorem chans_updBank : (s.updBank i f).chans = s.chans := rfl
@[simp] theorem queues_updBank : (s.updBank i f).queues = s.queues := rfl
@[simp] theorem allocs_updBank : (s.updBank i f).allocs = s.allocs := rfl
@[simp] theorem peaks_updBank : (s.updBank i f).peaks = s.peaks := rfl
@[simp] theorem policers_updBank : (s.updBank i f).policers = s.policers := rfl
@[simp] theorem rules_updBank : (s.updBank i f).rules = s.rules := rfl
@[simp] theorem counters_updBank : (s.updBank i f).counters = s.counters := rfl
@[simp] theorem slices_updBank : (s.updBank i f).slices = s.slices := rfl
@[simp] theorem bonds_updBank : (s.updBank i f).bonds = s.bonds := rfl
@[simp] theorem lags_updBank : (s.updBank i f).lags = s.lags := rfl
@[simp] theorem gorse_updBank : (s.updBank i f).gorse = s.gorse := rfl
@[simp] theorem time_updBank : (s.updBank i f).time = s.time := rfl
@[simp] theorem trib_updBank : (s.updBank i f).trib = s.trib := rfl
@[simp] theorem ports_updBank : (s.updBank i f).ports = s.ports := rfl
@[simp] theorem macs_updBank : (s.updBank i f).macs = s.macs := rfl
@[simp] theorem lanes_updBank : (s.updBank i f).lanes = s.lanes := rfl
@[simp] theorem pwr_updBank : (s.updBank i f).pwr = s.pwr := rfl
@[simp] theorem rst_updBank : (s.updBank i f).rst = s.rst := rfl
@[simp] theorem fw_updBank : (s.updBank i f).fw = s.fw := rfl
@[simp] theorem mgmt_updBank : (s.updBank i f).mgmt = s.mgmt := rfl
@[simp] theorem parts_updBank : (s.updBank i f).parts = s.parts := rfl
@[simp] theorem eps_updBank : (s.updBank i f).eps = s.eps := rfl
@[simp] theorem out_updBank : (s.updBank i f).out = s.out := rfl
@[simp] theorem now_updBank : (s.updBank i f).now = s.now := rfl
@[simp] theorem draws_updBank : (s.updBank i f).draws = s.draws := rfl
@[simp] theorem nextFrame_updBank : (s.updBank i f).nextFrame = s.nextFrame := rfl
@[simp] theorem pending_updBank : (s.updBank i f).pending = s.pending := rfl

end

section
variable (f : StackSt → StackSt)

@[simp] theorem stack_updStack : (s.updStack i f).stack j = if j = i then f (s.stack i) else s.stack j := Tab.get_upd _ _ _ _
theorem updStack_updStack (g : StackSt → StackSt) : (s.updStack i f).updStack i g = s.updStack i fun x => g (f x) := by
  simp only [updStack, Tab.upd_upd]
theorem updStack_congr (g : StackSt → StackSt) (h : f (s.stack i) = g (s.stack i)) : s.updStack i f = s.updStack i g := by
  simp only [updStack, Tab.upd_congr _ _ f g h]
theorem updStack_emit (x : Out) : (s.emit x).updStack i f = (s.updStack i f).emit x := rfl
@[simp] theorem chan_updStack : (s.updStack i f).chan j = s.chan j := rfl
@[simp] theorem queue_updStack : (s.updStack i f).queue j = s.queue j := rfl
@[simp] theorem alloc_updStack : (s.updStack i f).alloc j = s.alloc j := rfl
@[simp] theorem peak_updStack : (s.updStack i f).peak j = s.peak j := rfl
@[simp] theorem policer_updStack : (s.updStack i f).policer j = s.policer j := rfl
@[simp] theorem slice_updStack : (s.updStack i f).slice j = s.slice j := rfl
@[simp] theorem bond_updStack : (s.updStack i f).bond j = s.bond j := rfl
@[simp] theorem lag_updStack : (s.updStack i f).lag j = s.lag j := rfl
@[simp] theorem port_updStack : (s.updStack i f).port j = s.port j := rfl
@[simp] theorem mac_updStack : (s.updStack i f).mac j = s.mac j := rfl
@[simp] theorem lane_updStack : (s.updStack i f).lane j = s.lane j := rfl
@[simp] theorem part_updStack : (s.updStack i f).part j = s.part j := rfl
@[simp] theorem ep_updStack : (s.updStack i f).ep j = s.ep j := rfl
@[simp] theorem pdom_updStack : (s.updStack i f).pdom j = s.pdom j := rfl
@[simp] theorem dom_updStack : (s.updStack i f).dom j = s.dom j := rfl
@[simp] theorem trig_updStack : (s.updStack i f).trig j = s.trig j := rfl
@[simp] theorem capt_updStack : (s.updStack i f).capt j = s.capt j := rfl
@[simp] theorem ptp_updStack : (s.updStack i f).ptp j = s.ptp j := rfl
@[simp] theorem stream_updStack : (s.updStack i f).stream j = s.stream j := rfl
@[simp] theorem bank_updStack : (s.updStack i f).bank j = s.bank j := rfl
@[simp] theorem pin_updStack : (s.updStack i f).pin j = s.pin j := rfl
@[simp] theorem chans_updStack : (s.updStack i f).chans = s.chans := rfl
@[simp] theorem queues_updStack : (s.updStack i f).queues = s.queues := rfl
@[simp] theorem allocs_updStack : (s.updStack i f).allocs = s.allocs := rfl
@[simp] theorem peaks_updStack : (s.updStack i f).peaks = s.peaks := rfl
@[simp] theorem policers_updStack : (s.updStack i f).policers = s.policers := rfl
@[simp] theorem rules_updStack : (s.updStack i f).rules = s.rules := rfl
@[simp] theorem counters_updStack : (s.updStack i f).counters = s.counters := rfl
@[simp] theorem slices_updStack : (s.updStack i f).slices = s.slices := rfl
@[simp] theorem bonds_updStack : (s.updStack i f).bonds = s.bonds := rfl
@[simp] theorem lags_updStack : (s.updStack i f).lags = s.lags := rfl
@[simp] theorem gorse_updStack : (s.updStack i f).gorse = s.gorse := rfl
@[simp] theorem time_updStack : (s.updStack i f).time = s.time := rfl
@[simp] theorem trib_updStack : (s.updStack i f).trib = s.trib := rfl
@[simp] theorem ports_updStack : (s.updStack i f).ports = s.ports := rfl
@[simp] theorem macs_updStack : (s.updStack i f).macs = s.macs := rfl
@[simp] theorem lanes_updStack : (s.updStack i f).lanes = s.lanes := rfl
@[simp] theorem pwr_updStack : (s.updStack i f).pwr = s.pwr := rfl
@[simp] theorem rst_updStack : (s.updStack i f).rst = s.rst := rfl
@[simp] theorem fw_updStack : (s.updStack i f).fw = s.fw := rfl
@[simp] theorem mgmt_updStack : (s.updStack i f).mgmt = s.mgmt := rfl
@[simp] theorem parts_updStack : (s.updStack i f).parts = s.parts := rfl
@[simp] theorem eps_updStack : (s.updStack i f).eps = s.eps := rfl
@[simp] theorem out_updStack : (s.updStack i f).out = s.out := rfl
@[simp] theorem now_updStack : (s.updStack i f).now = s.now := rfl
@[simp] theorem draws_updStack : (s.updStack i f).draws = s.draws := rfl
@[simp] theorem nextFrame_updStack : (s.updStack i f).nextFrame = s.nextFrame := rfl
@[simp] theorem pending_updStack : (s.updStack i f).pending = s.pending := rfl

end

section
variable (f : PinSt → PinSt)

@[simp] theorem pin_updPin : (s.updPin i f).pin j = if j = i then f (s.pin i) else s.pin j := Tab.get_upd _ _ _ _
theorem updPin_updPin (g : PinSt → PinSt) : (s.updPin i f).updPin i g = s.updPin i fun x => g (f x) := by
  simp only [updPin, Tab.upd_upd]
theorem updPin_congr (g : PinSt → PinSt) (h : f (s.pin i) = g (s.pin i)) : s.updPin i f = s.updPin i g := by
  simp only [updPin, Tab.upd_congr _ _ f g h]
theorem updPin_emit (x : Out) : (s.emit x).updPin i f = (s.updPin i f).emit x := rfl
@[simp] theorem chan_updPin : (s.updPin i f).chan j = s.chan j := rfl
@[simp] theorem queue_updPin : (s.updPin i f).queue j = s.queue j := rfl
@[simp] theorem alloc_updPin : (s.updPin i f).alloc j = s.alloc j := rfl
@[simp] theorem peak_updPin : (s.updPin i f).peak j = s.peak j := rfl
@[simp] theorem policer_updPin : (s.updPin i f).policer j = s.policer j := rfl
@[simp] theorem slice_updPin : (s.updPin i f).slice j = s.slice j := rfl
@[simp] theorem bond_updPin : (s.updPin i f).bond j = s.bond j := rfl
@[simp] theorem lag_updPin : (s.updPin i f).lag j = s.lag j := rfl
@[simp] theorem port_updPin : (s.updPin i f).port j = s.port j := rfl
@[simp] theorem mac_updPin : (s.updPin i f).mac j = s.mac j := rfl
@[simp] theorem lane_updPin : (s.updPin i f).lane j = s.lane j := rfl
@[simp] theorem part_updPin : (s.updPin i f).part j = s.part j := rfl
@[simp] theorem ep_updPin : (s.updPin i f).ep j = s.ep j := rfl
@[simp] theorem pdom_updPin : (s.updPin i f).pdom j = s.pdom j := rfl
@[simp] theorem dom_updPin : (s.updPin i f).dom j = s.dom j := rfl
@[simp] theorem trig_updPin : (s.updPin i f).trig j = s.trig j := rfl
@[simp] theorem capt_updPin : (s.updPin i f).capt j = s.capt j := rfl
@[simp] theorem ptp_updPin : (s.updPin i f).ptp j = s.ptp j := rfl
@[simp] theorem stream_updPin : (s.updPin i f).stream j = s.stream j := rfl
@[simp] theorem bank_updPin : (s.updPin i f).bank j = s.bank j := rfl
@[simp] theorem stack_updPin : (s.updPin i f).stack j = s.stack j := rfl
@[simp] theorem chans_updPin : (s.updPin i f).chans = s.chans := rfl
@[simp] theorem queues_updPin : (s.updPin i f).queues = s.queues := rfl
@[simp] theorem allocs_updPin : (s.updPin i f).allocs = s.allocs := rfl
@[simp] theorem peaks_updPin : (s.updPin i f).peaks = s.peaks := rfl
@[simp] theorem policers_updPin : (s.updPin i f).policers = s.policers := rfl
@[simp] theorem rules_updPin : (s.updPin i f).rules = s.rules := rfl
@[simp] theorem counters_updPin : (s.updPin i f).counters = s.counters := rfl
@[simp] theorem slices_updPin : (s.updPin i f).slices = s.slices := rfl
@[simp] theorem bonds_updPin : (s.updPin i f).bonds = s.bonds := rfl
@[simp] theorem lags_updPin : (s.updPin i f).lags = s.lags := rfl
@[simp] theorem mem_updPin : (s.updPin i f).mem = s.mem := rfl
@[simp] theorem gorse_updPin : (s.updPin i f).gorse = s.gorse := rfl
@[simp] theorem time_updPin : (s.updPin i f).time = s.time := rfl
@[simp] theorem trib_updPin : (s.updPin i f).trib = s.trib := rfl
@[simp] theorem ports_updPin : (s.updPin i f).ports = s.ports := rfl
@[simp] theorem macs_updPin : (s.updPin i f).macs = s.macs := rfl
@[simp] theorem lanes_updPin : (s.updPin i f).lanes = s.lanes := rfl
@[simp] theorem pwr_updPin : (s.updPin i f).pwr = s.pwr := rfl
@[simp] theorem fw_updPin : (s.updPin i f).fw = s.fw := rfl
@[simp] theorem mgmt_updPin : (s.updPin i f).mgmt = s.mgmt := rfl
@[simp] theorem parts_updPin : (s.updPin i f).parts = s.parts := rfl
@[simp] theorem eps_updPin : (s.updPin i f).eps = s.eps := rfl
@[simp] theorem out_updPin : (s.updPin i f).out = s.out := rfl
@[simp] theorem now_updPin : (s.updPin i f).now = s.now := rfl
@[simp] theorem draws_updPin : (s.updPin i f).draws = s.draws := rfl
@[simp] theorem nextFrame_updPin : (s.updPin i f).nextFrame = s.nextFrame := rfl
@[simp] theorem pending_updPin : (s.updPin i f).pending = s.pending := rfl

end

section
variable (f : MgmtSt → MgmtSt)

@[simp] theorem mgmt_updMgmt : (s.updMgmt f).mgmt = f s.mgmt := rfl
@[simp] theorem chan_updMgmt : (s.updMgmt f).chan j = s.chan j := rfl
@[simp] theorem queue_updMgmt : (s.updMgmt f).queue j = s.queue j := rfl
@[simp] theorem alloc_updMgmt : (s.updMgmt f).alloc j = s.alloc j := rfl
@[simp] theorem peak_updMgmt : (s.updMgmt f).peak j = s.peak j := rfl
@[simp] theorem policer_updMgmt : (s.updMgmt f).policer j = s.policer j := rfl
@[simp] theorem slice_updMgmt : (s.updMgmt f).slice j = s.slice j := rfl
@[simp] theorem bond_updMgmt : (s.updMgmt f).bond j = s.bond j := rfl
@[simp] theorem lag_updMgmt : (s.updMgmt f).lag j = s.lag j := rfl
@[simp] theorem port_updMgmt : (s.updMgmt f).port j = s.port j := rfl
@[simp] theorem mac_updMgmt : (s.updMgmt f).mac j = s.mac j := rfl
@[simp] theorem lane_updMgmt : (s.updMgmt f).lane j = s.lane j := rfl
@[simp] theorem part_updMgmt : (s.updMgmt f).part j = s.part j := rfl
@[simp] theorem ep_updMgmt : (s.updMgmt f).ep j = s.ep j := rfl
@[simp] theorem pdom_updMgmt : (s.updMgmt f).pdom j = s.pdom j := rfl
@[simp] theorem dom_updMgmt : (s.updMgmt f).dom j = s.dom j := rfl
@[simp] theorem trig_updMgmt : (s.updMgmt f).trig j = s.trig j := rfl
@[simp] theorem capt_updMgmt : (s.updMgmt f).capt j = s.capt j := rfl
@[simp] theorem ptp_updMgmt : (s.updMgmt f).ptp j = s.ptp j := rfl
@[simp] theorem stream_updMgmt : (s.updMgmt f).stream j = s.stream j := rfl
@[simp] theorem bank_updMgmt : (s.updMgmt f).bank j = s.bank j := rfl
@[simp] theorem stack_updMgmt : (s.updMgmt f).stack j = s.stack j := rfl
@[simp] theorem pin_updMgmt : (s.updMgmt f).pin j = s.pin j := rfl
@[simp] theorem chans_updMgmt : (s.updMgmt f).chans = s.chans := rfl
@[simp] theorem queues_updMgmt : (s.updMgmt f).queues = s.queues := rfl
@[simp] theorem allocs_updMgmt : (s.updMgmt f).allocs = s.allocs := rfl
@[simp] theorem peaks_updMgmt : (s.updMgmt f).peaks = s.peaks := rfl
@[simp] theorem policers_updMgmt : (s.updMgmt f).policers = s.policers := rfl
@[simp] theorem rules_updMgmt : (s.updMgmt f).rules = s.rules := rfl
@[simp] theorem counters_updMgmt : (s.updMgmt f).counters = s.counters := rfl
@[simp] theorem slices_updMgmt : (s.updMgmt f).slices = s.slices := rfl
@[simp] theorem bonds_updMgmt : (s.updMgmt f).bonds = s.bonds := rfl
@[simp] theorem lags_updMgmt : (s.updMgmt f).lags = s.lags := rfl
@[simp] theorem mem_updMgmt : (s.updMgmt f).mem = s.mem := rfl
@[simp] theorem gorse_updMgmt : (s.updMgmt f).gorse = s.gorse := rfl
@[simp] theorem time_updMgmt : (s.updMgmt f).time = s.time := rfl
@[simp] theorem trib_updMgmt : (s.updMgmt f).trib = s.trib := rfl
@[simp] theorem ports_updMgmt : (s.updMgmt f).ports = s.ports := rfl
@[simp] theorem macs_updMgmt : (s.updMgmt f).macs = s.macs := rfl
@[simp] theorem lanes_updMgmt : (s.updMgmt f).lanes = s.lanes := rfl
@[simp] theorem pwr_updMgmt : (s.updMgmt f).pwr = s.pwr := rfl
@[simp] theorem rst_updMgmt : (s.updMgmt f).rst = s.rst := rfl
@[simp] theorem fw_updMgmt : (s.updMgmt f).fw = s.fw := rfl
@[simp] theorem parts_updMgmt : (s.updMgmt f).parts = s.parts := rfl
@[simp] theorem eps_updMgmt : (s.updMgmt f).eps = s.eps := rfl
@[simp] theorem out_updMgmt : (s.updMgmt f).out = s.out := rfl
@[simp] theorem now_updMgmt : (s.updMgmt f).now = s.now := rfl
@[simp] theorem draws_updMgmt : (s.updMgmt f).draws = s.draws := rfl
@[simp] theorem nextFrame_updMgmt : (s.updMgmt f).nextFrame = s.nextFrame := rfl
@[simp] theorem pending_updMgmt : (s.updMgmt f).pending = s.pending := rfl

end

section
variable (f : FwSt → FwSt)

@[simp] theorem fw_updFw : (s.updFw f).fw = f s.fw := rfl
@[simp] theorem chan_updFw : (s.updFw f).chan j = s.chan j := rfl
@[simp] theorem queue_updFw : (s.updFw f).queue j = s.queue j := rfl
@[simp] theorem alloc_updFw : (s.updFw f).alloc j = s.alloc j := rfl
@[simp] theorem peak_updFw : (s.updFw f).peak j = s.peak j := rfl
@[simp] theorem policer_updFw : (s.updFw f).policer j = s.policer j := rfl
@[simp] theorem slice_updFw : (s.updFw f).slice j = s.slice j := rfl
@[simp] theorem bond_updFw : (s.updFw f).bond j = s.bond j := rfl
@[simp] theorem lag_updFw : (s.updFw f).lag j = s.lag j := rfl
@[simp] theorem port_updFw : (s.updFw f).port j = s.port j := rfl
@[simp] theorem mac_updFw : (s.updFw f).mac j = s.mac j := rfl
@[simp] theorem lane_updFw : (s.updFw f).lane j = s.lane j := rfl
@[simp] theorem part_updFw : (s.updFw f).part j = s.part j := rfl
@[simp] theorem ep_updFw : (s.updFw f).ep j = s.ep j := rfl
@[simp] theorem pdom_updFw : (s.updFw f).pdom j = s.pdom j := rfl
@[simp] theorem dom_updFw : (s.updFw f).dom j = s.dom j := rfl
@[simp] theorem trig_updFw : (s.updFw f).trig j = s.trig j := rfl
@[simp] theorem capt_updFw : (s.updFw f).capt j = s.capt j := rfl
@[simp] theorem ptp_updFw : (s.updFw f).ptp j = s.ptp j := rfl
@[simp] theorem stream_updFw : (s.updFw f).stream j = s.stream j := rfl
@[simp] theorem bank_updFw : (s.updFw f).bank j = s.bank j := rfl
@[simp] theorem stack_updFw : (s.updFw f).stack j = s.stack j := rfl
@[simp] theorem pin_updFw : (s.updFw f).pin j = s.pin j := rfl
@[simp] theorem chans_updFw : (s.updFw f).chans = s.chans := rfl
@[simp] theorem queues_updFw : (s.updFw f).queues = s.queues := rfl
@[simp] theorem allocs_updFw : (s.updFw f).allocs = s.allocs := rfl
@[simp] theorem peaks_updFw : (s.updFw f).peaks = s.peaks := rfl
@[simp] theorem policers_updFw : (s.updFw f).policers = s.policers := rfl
@[simp] theorem rules_updFw : (s.updFw f).rules = s.rules := rfl
@[simp] theorem counters_updFw : (s.updFw f).counters = s.counters := rfl
@[simp] theorem slices_updFw : (s.updFw f).slices = s.slices := rfl
@[simp] theorem bonds_updFw : (s.updFw f).bonds = s.bonds := rfl
@[simp] theorem lags_updFw : (s.updFw f).lags = s.lags := rfl
@[simp] theorem mem_updFw : (s.updFw f).mem = s.mem := rfl
@[simp] theorem gorse_updFw : (s.updFw f).gorse = s.gorse := rfl
@[simp] theorem time_updFw : (s.updFw f).time = s.time := rfl
@[simp] theorem trib_updFw : (s.updFw f).trib = s.trib := rfl
@[simp] theorem ports_updFw : (s.updFw f).ports = s.ports := rfl
@[simp] theorem macs_updFw : (s.updFw f).macs = s.macs := rfl
@[simp] theorem lanes_updFw : (s.updFw f).lanes = s.lanes := rfl
@[simp] theorem pwr_updFw : (s.updFw f).pwr = s.pwr := rfl
@[simp] theorem rst_updFw : (s.updFw f).rst = s.rst := rfl
@[simp] theorem mgmt_updFw : (s.updFw f).mgmt = s.mgmt := rfl
@[simp] theorem parts_updFw : (s.updFw f).parts = s.parts := rfl
@[simp] theorem eps_updFw : (s.updFw f).eps = s.eps := rfl
@[simp] theorem out_updFw : (s.updFw f).out = s.out := rfl
@[simp] theorem now_updFw : (s.updFw f).now = s.now := rfl
@[simp] theorem draws_updFw : (s.updFw f).draws = s.draws := rfl
@[simp] theorem nextFrame_updFw : (s.updFw f).nextFrame = s.nextFrame := rfl
@[simp] theorem pending_updFw : (s.updFw f).pending = s.pending := rfl

end

section
variable (f : PwrSt → PwrSt)

@[simp] theorem pwr_updPwr : (s.updPwr f).pwr = f s.pwr := rfl
@[simp] theorem chan_updPwr : (s.updPwr f).chan j = s.chan j := rfl
@[simp] theorem queue_updPwr : (s.updPwr f).queue j = s.queue j := rfl
@[simp] theorem alloc_updPwr : (s.updPwr f).alloc j = s.alloc j := rfl
@[simp] theorem peak_updPwr : (s.updPwr f).peak j = s.peak j := rfl
@[simp] theorem policer_updPwr : (s.updPwr f).policer j = s.policer j := rfl
@[simp] theorem slice_updPwr : (s.updPwr f).slice j = s.slice j := rfl
@[simp] theorem bond_updPwr : (s.updPwr f).bond j = s.bond j := rfl
@[simp] theorem lag_updPwr : (s.updPwr f).lag j = s.lag j := rfl
@[simp] theorem port_updPwr : (s.updPwr f).port j = s.port j := rfl
@[simp] theorem mac_updPwr : (s.updPwr f).mac j = s.mac j := rfl
@[simp] theorem lane_updPwr : (s.updPwr f).lane j = s.lane j := rfl
@[simp] theorem part_updPwr : (s.updPwr f).part j = s.part j := rfl
@[simp] theorem ep_updPwr : (s.updPwr f).ep j = s.ep j := rfl
@[simp] theorem dom_updPwr : (s.updPwr f).dom j = s.dom j := rfl
@[simp] theorem trig_updPwr : (s.updPwr f).trig j = s.trig j := rfl
@[simp] theorem capt_updPwr : (s.updPwr f).capt j = s.capt j := rfl
@[simp] theorem ptp_updPwr : (s.updPwr f).ptp j = s.ptp j := rfl
@[simp] theorem stream_updPwr : (s.updPwr f).stream j = s.stream j := rfl
@[simp] theorem bank_updPwr : (s.updPwr f).bank j = s.bank j := rfl
@[simp] theorem stack_updPwr : (s.updPwr f).stack j = s.stack j := rfl
@[simp] theorem pin_updPwr : (s.updPwr f).pin j = s.pin j := rfl
@[simp] theorem chans_updPwr : (s.updPwr f).chans = s.chans := rfl
@[simp] theorem queues_updPwr : (s.updPwr f).queues = s.queues := rfl
@[simp] theorem allocs_updPwr : (s.updPwr f).allocs = s.allocs := rfl
@[simp] theorem peaks_updPwr : (s.updPwr f).peaks = s.peaks := rfl
@[simp] theorem policers_updPwr : (s.updPwr f).policers = s.policers := rfl
@[simp] theorem rules_updPwr : (s.updPwr f).rules = s.rules := rfl
@[simp] theorem counters_updPwr : (s.updPwr f).counters = s.counters := rfl
@[simp] theorem slices_updPwr : (s.updPwr f).slices = s.slices := rfl
@[simp] theorem bonds_updPwr : (s.updPwr f).bonds = s.bonds := rfl
@[simp] theorem lags_updPwr : (s.updPwr f).lags = s.lags := rfl
@[simp] theorem mem_updPwr : (s.updPwr f).mem = s.mem := rfl
@[simp] theorem gorse_updPwr : (s.updPwr f).gorse = s.gorse := rfl
@[simp] theorem time_updPwr : (s.updPwr f).time = s.time := rfl
@[simp] theorem trib_updPwr : (s.updPwr f).trib = s.trib := rfl
@[simp] theorem ports_updPwr : (s.updPwr f).ports = s.ports := rfl
@[simp] theorem macs_updPwr : (s.updPwr f).macs = s.macs := rfl
@[simp] theorem lanes_updPwr : (s.updPwr f).lanes = s.lanes := rfl
@[simp] theorem rst_updPwr : (s.updPwr f).rst = s.rst := rfl
@[simp] theorem fw_updPwr : (s.updPwr f).fw = s.fw := rfl
@[simp] theorem mgmt_updPwr : (s.updPwr f).mgmt = s.mgmt := rfl
@[simp] theorem parts_updPwr : (s.updPwr f).parts = s.parts := rfl
@[simp] theorem eps_updPwr : (s.updPwr f).eps = s.eps := rfl
@[simp] theorem out_updPwr : (s.updPwr f).out = s.out := rfl
@[simp] theorem now_updPwr : (s.updPwr f).now = s.now := rfl
@[simp] theorem draws_updPwr : (s.updPwr f).draws = s.draws := rfl
@[simp] theorem nextFrame_updPwr : (s.updPwr f).nextFrame = s.nextFrame := rfl
@[simp] theorem pending_updPwr : (s.updPwr f).pending = s.pending := rfl

end

section
variable (f : RstSt → RstSt)

@[simp] theorem rst_updRst : (s.updRst f).rst = f s.rst := rfl
@[simp] theorem chan_updRst : (s.updRst f).chan j = s.chan j := rfl
@[simp] theorem queue_updRst : (s.updRst f).queue j = s.queue j := rfl
@[simp] theorem alloc_updRst : (s.updRst f).alloc j = s.alloc j := rfl
@[simp] theorem peak_updRst : (s.updRst f).peak j = s.peak j := rfl
@[simp] theorem policer_updRst : (s.updRst f).policer j = s.policer j := rfl
@[simp] theorem slice_updRst : (s.updRst f).slice j = s.slice j := rfl
@[simp] theorem bond_updRst : (s.updRst f).bond j = s.bond j := rfl
@[simp] theorem lag_updRst : (s.updRst f).lag j = s.lag j := rfl
@[simp] theorem port_updRst : (s.updRst f).port j = s.port j := rfl
@[simp] theorem mac_updRst : (s.updRst f).mac j = s.mac j := rfl
@[simp] theorem lane_updRst : (s.updRst f).lane j = s.lane j := rfl
@[simp] theorem part_updRst : (s.updRst f).part j = s.part j := rfl
@[simp] theorem ep_updRst : (s.updRst f).ep j = s.ep j := rfl
@[simp] theorem pdom_updRst : (s.updRst f).pdom j = s.pdom j := rfl
@[simp] theorem dom_updRst : (s.updRst f).dom j = s.dom j := rfl
@[simp] theorem trig_updRst : (s.updRst f).trig j = s.trig j := rfl
@[simp] theorem capt_updRst : (s.updRst f).capt j = s.capt j := rfl
@[simp] theorem ptp_updRst : (s.updRst f).ptp j = s.ptp j := rfl
@[simp] theorem stream_updRst : (s.updRst f).stream j = s.stream j := rfl
@[simp] theorem bank_updRst : (s.updRst f).bank j = s.bank j := rfl
@[simp] theorem stack_updRst : (s.updRst f).stack j = s.stack j := rfl
@[simp] theorem chans_updRst : (s.updRst f).chans = s.chans := rfl
@[simp] theorem queues_updRst : (s.updRst f).queues = s.queues := rfl
@[simp] theorem allocs_updRst : (s.updRst f).allocs = s.allocs := rfl
@[simp] theorem peaks_updRst : (s.updRst f).peaks = s.peaks := rfl
@[simp] theorem policers_updRst : (s.updRst f).policers = s.policers := rfl
@[simp] theorem rules_updRst : (s.updRst f).rules = s.rules := rfl
@[simp] theorem counters_updRst : (s.updRst f).counters = s.counters := rfl
@[simp] theorem slices_updRst : (s.updRst f).slices = s.slices := rfl
@[simp] theorem bonds_updRst : (s.updRst f).bonds = s.bonds := rfl
@[simp] theorem lags_updRst : (s.updRst f).lags = s.lags := rfl
@[simp] theorem mem_updRst : (s.updRst f).mem = s.mem := rfl
@[simp] theorem gorse_updRst : (s.updRst f).gorse = s.gorse := rfl
@[simp] theorem time_updRst : (s.updRst f).time = s.time := rfl
@[simp] theorem trib_updRst : (s.updRst f).trib = s.trib := rfl
@[simp] theorem ports_updRst : (s.updRst f).ports = s.ports := rfl
@[simp] theorem macs_updRst : (s.updRst f).macs = s.macs := rfl
@[simp] theorem lanes_updRst : (s.updRst f).lanes = s.lanes := rfl
@[simp] theorem pwr_updRst : (s.updRst f).pwr = s.pwr := rfl
@[simp] theorem fw_updRst : (s.updRst f).fw = s.fw := rfl
@[simp] theorem mgmt_updRst : (s.updRst f).mgmt = s.mgmt := rfl
@[simp] theorem parts_updRst : (s.updRst f).parts = s.parts := rfl
@[simp] theorem eps_updRst : (s.updRst f).eps = s.eps := rfl
@[simp] theorem out_updRst : (s.updRst f).out = s.out := rfl
@[simp] theorem now_updRst : (s.updRst f).now = s.now := rfl
@[simp] theorem draws_updRst : (s.updRst f).draws = s.draws := rfl
@[simp] theorem nextFrame_updRst : (s.updRst f).nextFrame = s.nextFrame := rfl
@[simp] theorem pending_updRst : (s.updRst f).pending = s.pending := rfl

end

section
variable (f : MemSt → MemSt)

@[simp] theorem mem_updMem : (s.updMem f).mem = f s.mem := rfl
@[simp] theorem chan_updMem : (s.updMem f).chan j = s.chan j := rfl
@[simp] theorem queue_updMem : (s.updMem f).queue j = s.queue j := rfl
@[simp] theorem alloc_updMem : (s.updMem f).alloc j = s.alloc j := rfl
@[simp] theorem peak_updMem : (s.updMem f).peak j = s.peak j := rfl
@[simp] theorem policer_updMem : (s.updMem f).policer j = s.policer j := rfl
@[simp] theorem slice_updMem : (s.updMem f).slice j = s.slice j := rfl
@[simp] theorem bond_updMem : (s.updMem f).bond j = s.bond j := rfl
@[simp] theorem lag_updMem : (s.updMem f).lag j = s.lag j := rfl
@[simp] theorem port_updMem : (s.updMem f).port j = s.port j := rfl
@[simp] theorem mac_updMem : (s.updMem f).mac j = s.mac j := rfl
@[simp] theorem lane_updMem : (s.updMem f).lane j = s.lane j := rfl
@[simp] theorem part_updMem : (s.updMem f).part j = s.part j := rfl
@[simp] theorem ep_updMem : (s.updMem f).ep j = s.ep j := rfl
@[simp] theorem pdom_updMem : (s.updMem f).pdom j = s.pdom j := rfl
@[simp] theorem dom_updMem : (s.updMem f).dom j = s.dom j := rfl
@[simp] theorem trig_updMem : (s.updMem f).trig j = s.trig j := rfl
@[simp] theorem capt_updMem : (s.updMem f).capt j = s.capt j := rfl
@[simp] theorem ptp_updMem : (s.updMem f).ptp j = s.ptp j := rfl
@[simp] theorem stream_updMem : (s.updMem f).stream j = s.stream j := rfl
@[simp] theorem pin_updMem : (s.updMem f).pin j = s.pin j := rfl
@[simp] theorem chans_updMem : (s.updMem f).chans = s.chans := rfl
@[simp] theorem queues_updMem : (s.updMem f).queues = s.queues := rfl
@[simp] theorem allocs_updMem : (s.updMem f).allocs = s.allocs := rfl
@[simp] theorem peaks_updMem : (s.updMem f).peaks = s.peaks := rfl
@[simp] theorem policers_updMem : (s.updMem f).policers = s.policers := rfl
@[simp] theorem rules_updMem : (s.updMem f).rules = s.rules := rfl
@[simp] theorem counters_updMem : (s.updMem f).counters = s.counters := rfl
@[simp] theorem slices_updMem : (s.updMem f).slices = s.slices := rfl
@[simp] theorem bonds_updMem : (s.updMem f).bonds = s.bonds := rfl
@[simp] theorem lags_updMem : (s.updMem f).lags = s.lags := rfl
@[simp] theorem gorse_updMem : (s.updMem f).gorse = s.gorse := rfl
@[simp] theorem time_updMem : (s.updMem f).time = s.time := rfl
@[simp] theorem trib_updMem : (s.updMem f).trib = s.trib := rfl
@[simp] theorem ports_updMem : (s.updMem f).ports = s.ports := rfl
@[simp] theorem macs_updMem : (s.updMem f).macs = s.macs := rfl
@[simp] theorem lanes_updMem : (s.updMem f).lanes = s.lanes := rfl
@[simp] theorem pwr_updMem : (s.updMem f).pwr = s.pwr := rfl
@[simp] theorem rst_updMem : (s.updMem f).rst = s.rst := rfl
@[simp] theorem fw_updMem : (s.updMem f).fw = s.fw := rfl
@[simp] theorem mgmt_updMem : (s.updMem f).mgmt = s.mgmt := rfl
@[simp] theorem parts_updMem : (s.updMem f).parts = s.parts := rfl
@[simp] theorem eps_updMem : (s.updMem f).eps = s.eps := rfl
@[simp] theorem out_updMem : (s.updMem f).out = s.out := rfl
@[simp] theorem now_updMem : (s.updMem f).now = s.now := rfl
@[simp] theorem draws_updMem : (s.updMem f).draws = s.draws := rfl
@[simp] theorem nextFrame_updMem : (s.updMem f).nextFrame = s.nextFrame := rfl
@[simp] theorem pending_updMem : (s.updMem f).pending = s.pending := rfl

end

section
variable (f : GorseSt → GorseSt)

@[simp] theorem gorse_updGorse : (s.updGorse f).gorse = f s.gorse := rfl
@[simp] theorem chan_updGorse : (s.updGorse f).chan j = s.chan j := rfl
@[simp] theorem queue_updGorse : (s.updGorse f).queue j = s.queue j := rfl
@[simp] theorem alloc_updGorse : (s.updGorse f).alloc j = s.alloc j := rfl
@[simp] theorem peak_updGorse : (s.updGorse f).peak j = s.peak j := rfl
@[simp] theorem policer_updGorse : (s.updGorse f).policer j = s.policer j := rfl
@[simp] theorem slice_updGorse : (s.updGorse f).slice j = s.slice j := rfl
@[simp] theorem bond_updGorse : (s.updGorse f).bond j = s.bond j := rfl
@[simp] theorem lag_updGorse : (s.updGorse f).lag j = s.lag j := rfl
@[simp] theorem port_updGorse : (s.updGorse f).port j = s.port j := rfl
@[simp] theorem mac_updGorse : (s.updGorse f).mac j = s.mac j := rfl
@[simp] theorem lane_updGorse : (s.updGorse f).lane j = s.lane j := rfl
@[simp] theorem part_updGorse : (s.updGorse f).part j = s.part j := rfl
@[simp] theorem ep_updGorse : (s.updGorse f).ep j = s.ep j := rfl
@[simp] theorem pdom_updGorse : (s.updGorse f).pdom j = s.pdom j := rfl
@[simp] theorem dom_updGorse : (s.updGorse f).dom j = s.dom j := rfl
@[simp] theorem trig_updGorse : (s.updGorse f).trig j = s.trig j := rfl
@[simp] theorem capt_updGorse : (s.updGorse f).capt j = s.capt j := rfl
@[simp] theorem ptp_updGorse : (s.updGorse f).ptp j = s.ptp j := rfl
@[simp] theorem stream_updGorse : (s.updGorse f).stream j = s.stream j := rfl
@[simp] theorem bank_updGorse : (s.updGorse f).bank j = s.bank j := rfl
@[simp] theorem stack_updGorse : (s.updGorse f).stack j = s.stack j := rfl
@[simp] theorem pin_updGorse : (s.updGorse f).pin j = s.pin j := rfl
@[simp] theorem chans_updGorse : (s.updGorse f).chans = s.chans := rfl
@[simp] theorem queues_updGorse : (s.updGorse f).queues = s.queues := rfl
@[simp] theorem allocs_updGorse : (s.updGorse f).allocs = s.allocs := rfl
@[simp] theorem peaks_updGorse : (s.updGorse f).peaks = s.peaks := rfl
@[simp] theorem policers_updGorse : (s.updGorse f).policers = s.policers := rfl
@[simp] theorem rules_updGorse : (s.updGorse f).rules = s.rules := rfl
@[simp] theorem counters_updGorse : (s.updGorse f).counters = s.counters := rfl
@[simp] theorem slices_updGorse : (s.updGorse f).slices = s.slices := rfl
@[simp] theorem bonds_updGorse : (s.updGorse f).bonds = s.bonds := rfl
@[simp] theorem lags_updGorse : (s.updGorse f).lags = s.lags := rfl
@[simp] theorem mem_updGorse : (s.updGorse f).mem = s.mem := rfl
@[simp] theorem time_updGorse : (s.updGorse f).time = s.time := rfl
@[simp] theorem trib_updGorse : (s.updGorse f).trib = s.trib := rfl
@[simp] theorem ports_updGorse : (s.updGorse f).ports = s.ports := rfl
@[simp] theorem macs_updGorse : (s.updGorse f).macs = s.macs := rfl
@[simp] theorem lanes_updGorse : (s.updGorse f).lanes = s.lanes := rfl
@[simp] theorem pwr_updGorse : (s.updGorse f).pwr = s.pwr := rfl
@[simp] theorem rst_updGorse : (s.updGorse f).rst = s.rst := rfl
@[simp] theorem fw_updGorse : (s.updGorse f).fw = s.fw := rfl
@[simp] theorem mgmt_updGorse : (s.updGorse f).mgmt = s.mgmt := rfl
@[simp] theorem parts_updGorse : (s.updGorse f).parts = s.parts := rfl
@[simp] theorem eps_updGorse : (s.updGorse f).eps = s.eps := rfl
@[simp] theorem out_updGorse : (s.updGorse f).out = s.out := rfl
@[simp] theorem now_updGorse : (s.updGorse f).now = s.now := rfl
@[simp] theorem draws_updGorse : (s.updGorse f).draws = s.draws := rfl
@[simp] theorem nextFrame_updGorse : (s.updGorse f).nextFrame = s.nextFrame := rfl
@[simp] theorem pending_updGorse : (s.updGorse f).pending = s.pending := rfl

end

section
variable (f : TimeSt → TimeSt)

@[simp] theorem time_updTime : (s.updTime f).time = f s.time := rfl
@[simp] theorem chan_updTime : (s.updTime f).chan j = s.chan j := rfl
@[simp] theorem queue_updTime : (s.updTime f).queue j = s.queue j := rfl
@[simp] theorem alloc_updTime : (s.updTime f).alloc j = s.alloc j := rfl
@[simp] theorem peak_updTime : (s.updTime f).peak j = s.peak j := rfl
@[simp] theorem policer_updTime : (s.updTime f).policer j = s.policer j := rfl
@[simp] theorem slice_updTime : (s.updTime f).slice j = s.slice j := rfl
@[simp] theorem bond_updTime : (s.updTime f).bond j = s.bond j := rfl
@[simp] theorem lag_updTime : (s.updTime f).lag j = s.lag j := rfl
@[simp] theorem port_updTime : (s.updTime f).port j = s.port j := rfl
@[simp] theorem mac_updTime : (s.updTime f).mac j = s.mac j := rfl
@[simp] theorem lane_updTime : (s.updTime f).lane j = s.lane j := rfl
@[simp] theorem part_updTime : (s.updTime f).part j = s.part j := rfl
@[simp] theorem ep_updTime : (s.updTime f).ep j = s.ep j := rfl
@[simp] theorem pdom_updTime : (s.updTime f).pdom j = s.pdom j := rfl
@[simp] theorem stream_updTime : (s.updTime f).stream j = s.stream j := rfl
@[simp] theorem bank_updTime : (s.updTime f).bank j = s.bank j := rfl
@[simp] theorem stack_updTime : (s.updTime f).stack j = s.stack j := rfl
@[simp] theorem pin_updTime : (s.updTime f).pin j = s.pin j := rfl
@[simp] theorem chans_updTime : (s.updTime f).chans = s.chans := rfl
@[simp] theorem queues_updTime : (s.updTime f).queues = s.queues := rfl
@[simp] theorem allocs_updTime : (s.updTime f).allocs = s.allocs := rfl
@[simp] theorem peaks_updTime : (s.updTime f).peaks = s.peaks := rfl
@[simp] theorem policers_updTime : (s.updTime f).policers = s.policers := rfl
@[simp] theorem rules_updTime : (s.updTime f).rules = s.rules := rfl
@[simp] theorem counters_updTime : (s.updTime f).counters = s.counters := rfl
@[simp] theorem slices_updTime : (s.updTime f).slices = s.slices := rfl
@[simp] theorem bonds_updTime : (s.updTime f).bonds = s.bonds := rfl
@[simp] theorem lags_updTime : (s.updTime f).lags = s.lags := rfl
@[simp] theorem mem_updTime : (s.updTime f).mem = s.mem := rfl
@[simp] theorem gorse_updTime : (s.updTime f).gorse = s.gorse := rfl
@[simp] theorem trib_updTime : (s.updTime f).trib = s.trib := rfl
@[simp] theorem ports_updTime : (s.updTime f).ports = s.ports := rfl
@[simp] theorem macs_updTime : (s.updTime f).macs = s.macs := rfl
@[simp] theorem lanes_updTime : (s.updTime f).lanes = s.lanes := rfl
@[simp] theorem pwr_updTime : (s.updTime f).pwr = s.pwr := rfl
@[simp] theorem rst_updTime : (s.updTime f).rst = s.rst := rfl
@[simp] theorem fw_updTime : (s.updTime f).fw = s.fw := rfl
@[simp] theorem mgmt_updTime : (s.updTime f).mgmt = s.mgmt := rfl
@[simp] theorem parts_updTime : (s.updTime f).parts = s.parts := rfl
@[simp] theorem eps_updTime : (s.updTime f).eps = s.eps := rfl
@[simp] theorem out_updTime : (s.updTime f).out = s.out := rfl
@[simp] theorem now_updTime : (s.updTime f).now = s.now := rfl
@[simp] theorem draws_updTime : (s.updTime f).draws = s.draws := rfl
@[simp] theorem nextFrame_updTime : (s.updTime f).nextFrame = s.nextFrame := rfl
@[simp] theorem pending_updTime : (s.updTime f).pending = s.pending := rfl

end

section
variable (f : KweSt → KweSt)

@[simp] theorem gorse_updKwe : (s.updKwe f).gorse = { s.gorse with kwe := f s.gorse.kwe } := rfl
@[simp] theorem chan_updKwe : (s.updKwe f).chan j = s.chan j := rfl
@[simp] theorem queue_updKwe : (s.updKwe f).queue j = s.queue j := rfl
@[simp] theorem alloc_updKwe : (s.updKwe f).alloc j = s.alloc j := rfl
@[simp] theorem peak_updKwe : (s.updKwe f).peak j = s.peak j := rfl
@[simp] theorem policer_updKwe : (s.updKwe f).policer j = s.policer j := rfl
@[simp] theorem slice_updKwe : (s.updKwe f).slice j = s.slice j := rfl
@[simp] theorem bond_updKwe : (s.updKwe f).bond j = s.bond j := rfl
@[simp] theorem lag_updKwe : (s.updKwe f).lag j = s.lag j := rfl
@[simp] theorem port_updKwe : (s.updKwe f).port j = s.port j := rfl
@[simp] theorem mac_updKwe : (s.updKwe f).mac j = s.mac j := rfl
@[simp] theorem lane_updKwe : (s.updKwe f).lane j = s.lane j := rfl
@[simp] theorem part_updKwe : (s.updKwe f).part j = s.part j := rfl
@[simp] theorem ep_updKwe : (s.updKwe f).ep j = s.ep j := rfl
@[simp] theorem pdom_updKwe : (s.updKwe f).pdom j = s.pdom j := rfl
@[simp] theorem dom_updKwe : (s.updKwe f).dom j = s.dom j := rfl
@[simp] theorem trig_updKwe : (s.updKwe f).trig j = s.trig j := rfl
@[simp] theorem capt_updKwe : (s.updKwe f).capt j = s.capt j := rfl
@[simp] theorem ptp_updKwe : (s.updKwe f).ptp j = s.ptp j := rfl
@[simp] theorem stream_updKwe : (s.updKwe f).stream j = s.stream j := rfl
@[simp] theorem bank_updKwe : (s.updKwe f).bank j = s.bank j := rfl
@[simp] theorem stack_updKwe : (s.updKwe f).stack j = s.stack j := rfl
@[simp] theorem pin_updKwe : (s.updKwe f).pin j = s.pin j := rfl
@[simp] theorem chans_updKwe : (s.updKwe f).chans = s.chans := rfl
@[simp] theorem queues_updKwe : (s.updKwe f).queues = s.queues := rfl
@[simp] theorem allocs_updKwe : (s.updKwe f).allocs = s.allocs := rfl
@[simp] theorem peaks_updKwe : (s.updKwe f).peaks = s.peaks := rfl
@[simp] theorem policers_updKwe : (s.updKwe f).policers = s.policers := rfl
@[simp] theorem rules_updKwe : (s.updKwe f).rules = s.rules := rfl
@[simp] theorem counters_updKwe : (s.updKwe f).counters = s.counters := rfl
@[simp] theorem slices_updKwe : (s.updKwe f).slices = s.slices := rfl
@[simp] theorem bonds_updKwe : (s.updKwe f).bonds = s.bonds := rfl
@[simp] theorem lags_updKwe : (s.updKwe f).lags = s.lags := rfl
@[simp] theorem mem_updKwe : (s.updKwe f).mem = s.mem := rfl
@[simp] theorem time_updKwe : (s.updKwe f).time = s.time := rfl
@[simp] theorem trib_updKwe : (s.updKwe f).trib = s.trib := rfl
@[simp] theorem ports_updKwe : (s.updKwe f).ports = s.ports := rfl
@[simp] theorem macs_updKwe : (s.updKwe f).macs = s.macs := rfl
@[simp] theorem lanes_updKwe : (s.updKwe f).lanes = s.lanes := rfl
@[simp] theorem pwr_updKwe : (s.updKwe f).pwr = s.pwr := rfl
@[simp] theorem rst_updKwe : (s.updKwe f).rst = s.rst := rfl
@[simp] theorem fw_updKwe : (s.updKwe f).fw = s.fw := rfl
@[simp] theorem mgmt_updKwe : (s.updKwe f).mgmt = s.mgmt := rfl
@[simp] theorem parts_updKwe : (s.updKwe f).parts = s.parts := rfl
@[simp] theorem eps_updKwe : (s.updKwe f).eps = s.eps := rfl
@[simp] theorem out_updKwe : (s.updKwe f).out = s.out := rfl
@[simp] theorem now_updKwe : (s.updKwe f).now = s.now := rfl
@[simp] theorem draws_updKwe : (s.updKwe f).draws = s.draws := rfl
@[simp] theorem nextFrame_updKwe : (s.updKwe f).nextFrame = s.nextFrame := rfl
@[simp] theorem pending_updKwe : (s.updKwe f).pending = s.pending := rfl

end

section
variable (x : Out)

@[simp] theorem out_emit : (s.emit x).out = s.out ++ [x] := rfl
@[simp] theorem chan_emit : (s.emit x).chan j = s.chan j := rfl
@[simp] theorem queue_emit : (s.emit x).queue j = s.queue j := rfl
@[simp] theorem alloc_emit : (s.emit x).alloc j = s.alloc j := rfl
@[simp] theorem peak_emit : (s.emit x).peak j = s.peak j := rfl
@[simp] theorem policer_emit : (s.emit x).policer j = s.policer j := rfl
@[simp] theorem slice_emit : (s.emit x).slice j = s.slice j := rfl
@[simp] theorem bond_emit : (s.emit x).bond j = s.bond j := rfl
@[simp] theorem lag_emit : (s.emit x).lag j = s.lag j := rfl
@[simp] theorem port_emit : (s.emit x).port j = s.port j := rfl
@[simp] theorem mac_emit : (s.emit x).mac j = s.mac j := rfl
@[simp] theorem lane_emit : (s.emit x).lane j = s.lane j := rfl
@[simp] theorem part_emit : (s.emit x).part j = s.part j := rfl
@[simp] theorem ep_emit : (s.emit x).ep j = s.ep j := rfl
@[simp] theorem pdom_emit : (s.emit x).pdom j = s.pdom j := rfl
@[simp] theorem dom_emit : (s.emit x).dom j = s.dom j := rfl
@[simp] theorem trig_emit : (s.emit x).trig j = s.trig j := rfl
@[simp] theorem capt_emit : (s.emit x).capt j = s.capt j := rfl
@[simp] theorem ptp_emit : (s.emit x).ptp j = s.ptp j := rfl
@[simp] theorem stream_emit : (s.emit x).stream j = s.stream j := rfl
@[simp] theorem bank_emit : (s.emit x).bank j = s.bank j := rfl
@[simp] theorem stack_emit : (s.emit x).stack j = s.stack j := rfl
@[simp] theorem pin_emit : (s.emit x).pin j = s.pin j := rfl
@[simp] theorem chans_emit : (s.emit x).chans = s.chans := rfl
@[simp] theorem queues_emit : (s.emit x).queues = s.queues := rfl
@[simp] theorem allocs_emit : (s.emit x).allocs = s.allocs := rfl
@[simp] theorem peaks_emit : (s.emit x).peaks = s.peaks := rfl
@[simp] theorem policers_emit : (s.emit x).policers = s.policers := rfl
@[simp] theorem rules_emit : (s.emit x).rules = s.rules := rfl
@[simp] theorem counters_emit : (s.emit x).counters = s.counters := rfl
@[simp] theorem slices_emit : (s.emit x).slices = s.slices := rfl
@[simp] theorem bonds_emit : (s.emit x).bonds = s.bonds := rfl
@[simp] theorem lags_emit : (s.emit x).lags = s.lags := rfl
@[simp] theorem mem_emit : (s.emit x).mem = s.mem := rfl
@[simp] theorem gorse_emit : (s.emit x).gorse = s.gorse := rfl
@[simp] theorem time_emit : (s.emit x).time = s.time := rfl
@[simp] theorem trib_emit : (s.emit x).trib = s.trib := rfl
@[simp] theorem ports_emit : (s.emit x).ports = s.ports := rfl
@[simp] theorem macs_emit : (s.emit x).macs = s.macs := rfl
@[simp] theorem lanes_emit : (s.emit x).lanes = s.lanes := rfl
@[simp] theorem pwr_emit : (s.emit x).pwr = s.pwr := rfl
@[simp] theorem rst_emit : (s.emit x).rst = s.rst := rfl
@[simp] theorem fw_emit : (s.emit x).fw = s.fw := rfl
@[simp] theorem mgmt_emit : (s.emit x).mgmt = s.mgmt := rfl
@[simp] theorem parts_emit : (s.emit x).parts = s.parts := rfl
@[simp] theorem eps_emit : (s.emit x).eps = s.eps := rfl
@[simp] theorem now_emit : (s.emit x).now = s.now := rfl
@[simp] theorem draws_emit : (s.emit x).draws = s.draws := rfl
@[simp] theorem nextFrame_emit : (s.emit x).nextFrame = s.nextFrame := rfl
@[simp] theorem pending_emit : (s.emit x).pending = s.pending := rfl

end

/-! ### Counting raises one counter and saturates (R20) -/

theorem ctr_add (t : Ctrs) (k n m : Nat) :
    Ctrs.get (Ctrs.add t k n) m = if m = k then min (Ctrs.get t k + n) ctrMax else Ctrs.get t m := Tab.get_set _ _ _ _

/-- A counter never passes all ones once it is at most that. -/
theorem ctr_add_le (t : Ctrs) (k n m : Nat) (h : Ctrs.get t m ≤ ctrMax) : Ctrs.get (Ctrs.add t k n) m ≤ ctrMax := by
  rw [ctr_add]; split
  · exact Nat.min_le_right _ _
  · exact h

end Sys2Proof.Machine.State
end

