-- ==== Sys2Proof/Laws/Rings.lean ====
section
/-! SUPPORT. What a command interface with nothing waiting does: a round over it changes nothing, and a posted command that the ring
takes completes with the result of applying it. -/

namespace Sys2Proof.Machine.State

/-! ### An idle endpoint -/

theorem fetch_idle {s : State} {k : Nat} (h : s.EpIdle k) : s.fetch k = s := by
  obtain ⟨hw, -, -, -, -, -⟩ := h
  simp [fetch, hw]

theorem fetchIf_idle {s : State} {k : Nat} (h : s.EpIdle k) : s.fetchIf k = s := by
  unfold fetchIf; split
  · exact fetch_idle h
  · rfl

theorem ringStep_idle {s : State} {k : Nat} (h : s.EpIdle k) : s.ringStep k = none := by
  unfold ringStep
  split
  · rfl
  · obtain ⟨hw, hf, -, -, -, -⟩ := id h
    simp [fetch_idle h, resyncAt, hw, hf]

theorem drain_idle {s : State} {k : Nat} (h : s.EpIdle k) (n : Nat) : drain k n s = s := by
  cases n with
  | zero => exact fetchIf_idle h
  | succ n => simp [drain, ringStep_idle h, fetchIf_idle h]

theorem endApplying_idle {s : State} {k : Nat} (h : s.EpIdle k) : s.endApplying k = s := by
  obtain ⟨-, -, -, ha, hm, hx⟩ := h
  simp [endApplying, ha, hm, hx]

theorem round_idle {s : State} (h : s.Still) : s.settleRound = s := by
  unfold settleRound
  have : ∀ l : List Nat, (∀ k ∈ l, s.EpIdle k) → (l.foldl (fun s k =>
      let s := s.endApplying k
      drain k ((s.ep k).waiting.length + (s.ep k).kept.length + 2) s) s) = s := by
    intro l
    induction l with
    | nil => simp
    | cons k l ih =>
      intro hl
      have hk := hl k (by simp)
      simp only [List.foldl_cons, endApplying_idle hk, drain_idle hk]
      exact ih fun j hj => hl j (by simp [hj])
  exact this _ h

/-- A command interface with nothing waiting is settled. -/
theorem settle_still {s : State} (h : s.Still) : s.settle = s := by
  unfold settle; rw [round_idle h, round_idle h, round_idle h]

/-! ### Stillness across updates -/

theorem still_of_eps {s t : State} (h : s.Still) (he : t.eps = s.eps) : t.Still := by
  intro k hk
  have := h k hk
  simpa [EpIdle, ep, he] using this

/-- An update of endpoint i that touches none of the waiting commands keeps every endpoint as idle as it was. -/
theorem still_updEp {s : State} (h : s.Still) (i : Nat) (f : EpSt → EpSt)
    (hf : ∀ e, (f e).waiting = e.waiting ∧ (f e).fetched = e.fetched ∧ (f e).kept = e.kept ∧ (f e).applying = e.applying
      ∧ (f e).mboxApplying = e.mboxApplying ∧ (f e).mboxWait = e.mboxWait) : (s.updEp i f).Still := by
  intro k hk
  have hk' := h k hk
  unfold EpIdle at *
  rw [ep_updEp]
  split
  · rename_i e; subst e
    obtain ⟨h1, h2, h3, h4, h5, h6⟩ := hf (s.ep k)
    rw [h1, h2, h3, h4, h5, h6]; exact hk'
  · exact hk'

theorem still_updChan {s : State} (h : s.Still) (i : Nat) (f : ChanSt → ChanSt) : (s.updChan i f).Still := still_of_eps h (eps_updChan s i f)
theorem still_updQueue {s : State} (h : s.Still) (i : Nat) (f : QueueSt → QueueSt) : (s.updQueue i f).Still := still_of_eps h (eps_updQueue s i f)
theorem still_updAlloc {s : State} (h : s.Still) (i : Nat) (f : AllocSt → AllocSt) : (s.updAlloc i f).Still := still_of_eps h (eps_updAlloc s i f)
theorem still_updPeak {s : State} (h : s.Still) (i : Nat) (f : Shaper → Shaper) : (s.updPeak i f).Still := still_of_eps h (eps_updPeak s i f)
theorem still_updPolicer {s : State} (h : s.Still) (i : Nat) (f : PolicerSt → PolicerSt) : (s.updPolicer i f).Still := still_of_eps h (eps_updPolicer s i f)
theorem still_updSlice {s : State} (h : s.Still) (i : Nat) (f : SliceSt → SliceSt) : (s.updSlice i f).Still := still_of_eps h (eps_updSlice s i f)
theorem still_updBond {s : State} (h : s.Still) (i : Nat) (f : BondSt → BondSt) : (s.updBond i f).Still := still_of_eps h (eps_updBond s i f)
theorem still_updLag {s : State} (h : s.Still) (i : Nat) (f : LagSt → LagSt) : (s.updLag i f).Still := still_of_eps h (eps_updLag s i f)
theorem still_updPort {s : State} (h : s.Still) (i : Nat) (f : PortSt → PortSt) : (s.updPort i f).Still := still_of_eps h (eps_updPort s i f)
theorem still_updMac {s : State} (h : s.Still) (i : Nat) (f : MacSt → MacSt) : (s.updMac i f).Still := still_of_eps h (eps_updMac s i f)
theorem still_updLane {s : State} (h : s.Still) (i : Nat) (f : LaneSt → LaneSt) : (s.updLane i f).Still := still_of_eps h (eps_updLane s i f)
theorem still_updPart {s : State} (h : s.Still) (i : Nat) (f : PartSt → PartSt) : (s.updPart i f).Still := still_of_eps h (eps_updPart s i f)
theorem still_updPdom {s : State} (h : s.Still) (i : Nat) (f : PwrDom → PwrDom) : (s.updPdom i f).Still := still_of_eps h (eps_updPdom s i f)
theorem still_updDom {s : State} (h : s.Still) (i : Nat) (f : DomainSt → DomainSt) : (s.updDom i f).Still := still_of_eps h (eps_updDom s i f)
theorem still_updTrig {s : State} (h : s.Still) (i : Nat) (f : TrigSt → TrigSt) : (s.updTrig i f).Still := still_of_eps h (eps_updTrig s i f)
theorem still_updCapt {s : State} (h : s.Still) (i : Nat) (f : CaptSt → CaptSt) : (s.updCapt i f).Still := still_of_eps h (eps_updCapt s i f)
theorem still_updPtp {s : State} (h : s.Still) (i : Nat) (f : PtpSrc → PtpSrc) : (s.updPtp i f).Still := still_of_eps h (eps_updPtp s i f)
theorem still_updStream {s : State} (h : s.Still) (i : Nat) (f : StreamSt → StreamSt) : (s.updStream i f).Still := still_of_eps h (eps_updStream s i f)
theorem still_updBank {s : State} (h : s.Still) (i : Nat) (f : BankSt → BankSt) : (s.updBank i f).Still := still_of_eps h (eps_updBank s i f)
theorem still_updStack {s : State} (h : s.Still) (i : Nat) (f : StackSt → StackSt) : (s.updStack i f).Still := still_of_eps h (eps_updStack s i f)
theorem still_updPin {s : State} (h : s.Still) (i : Nat) (f : PinSt → PinSt) : (s.updPin i f).Still := still_of_eps h (eps_updPin s i f)
theorem still_updMgmt {s : State} (h : s.Still) (f : MgmtSt → MgmtSt) : (s.updMgmt f).Still := still_of_eps h (eps_updMgmt s f)
theorem still_updFw {s : State} (h : s.Still) (f : FwSt → FwSt) : (s.updFw f).Still := still_of_eps h (eps_updFw s f)
theorem still_updPwr {s : State} (h : s.Still) (f : PwrSt → PwrSt) : (s.updPwr f).Still := still_of_eps h (eps_updPwr s f)
theorem still_updRst {s : State} (h : s.Still) (f : RstSt → RstSt) : (s.updRst f).Still := still_of_eps h (eps_updRst s f)
theorem still_updMem {s : State} (h : s.Still) (f : MemSt → MemSt) : (s.updMem f).Still := still_of_eps h (eps_updMem s f)
theorem still_updGorse {s : State} (h : s.Still) (f : GorseSt → GorseSt) : (s.updGorse f).Still := still_of_eps h (eps_updGorse s f)
theorem still_updTime {s : State} (h : s.Still) (f : TimeSt → TimeSt) : (s.updTime f).Still := still_of_eps h (eps_updTime s f)
theorem still_updKwe {s : State} (h : s.Still) (f : KweSt → KweSt) : (s.updKwe f).Still := still_of_eps h (eps_updKwe s f)
theorem still_updRx {s : State} (h : s.Still) (i : Nat) (f : ChanRx → ChanRx) : (s.updRx i f).Still := still_updChan h i _
theorem still_updTc {s : State} (h : s.Still) (i : Nat) (f : ChanTc → ChanTc) : (s.updTc i f).Still := still_updChan h i _
theorem still_updHeath {s : State} (h : s.Still) (i : Nat) (f : ChanHeath → ChanHeath) : (s.updHeath i f).Still := still_updChan h i _
theorem still_updKeys {s : State} (h : s.Still) (i : Nat) (f : ChanKeys → ChanKeys) : (s.updKeys i f).Still := still_updChan h i _
theorem still_updUs {s : State} (h : s.Still) (i : Nat) (f : ChanUs → ChanUs) : (s.updUs i f).Still := still_updChan h i _
theorem still_updTrib {s : State} (h : s.Still) (i : Nat) (f : ChanTrib → ChanTrib) : (s.updTrib i f).Still := still_updChan h i _

theorem still_emit {s : State} (h : s.Still) (o : Out) : (s.emit o).Still := still_of_eps h rfl

theorem still_writeIndex {s : State} (h : s.Still) (k : Nat) : (s.writeIndex k).Still := still_emit h _

theorem still_signalCmp {s : State} (h : s.Still) (k : Nat) : (s.signalCmp k).Still := by
  unfold signalCmp
  simp only
  split
  · exact still_emit (still_updEp h _ _ fun _ => by simp) _
  · exact still_updEp h _ _ fun _ => by simp

theorem still_signalEvt {s : State} (h : s.Still) (k : Nat) : (s.signalEvt k).Still := by
  unfold signalEvt
  simp only
  split
  · exact still_emit (still_updEp h _ _ fun _ => by simp) _
  · exact still_updEp h _ _ fun _ => by simp

theorem still_publishCmp {s : State} (h : s.Still) (k : Nat) (c : Completion) : (s.publishCmp k c).Still := by
  unfold publishCmp
  have h1 := still_writeIndex (still_updEp (still_emit h (.completion k c)) k
    (fun e => { e with cmpPi := e.cmpPi + BitVec.ofNat 32 (recUnits c.reply.length) }) fun _ => by simp) k
  simp only
  split
  · exact h1
  · exact still_signalCmp h1 k

theorem still_complete {s : State} (h : s.Still) (k : Nat) (c : Completion) : (s.complete k c).Still := by
  unfold complete; split
  · exact still_publishCmp h k c
  · exact still_updEp h _ _ fun _ => by simp

theorem still_finish {s : State} (h : s.Still) (k : Nat) (c : RawCmd) (st d : Nat) (r : List Byte) :
    (s.finish k c st d r).Still := still_complete h k _

theorem still_publishEvt {s : State} (h : s.Still) (k : Nat) (p : EvPost) : (s.publishEvt k p).Still := by
  unfold publishEvt
  simp only
  split
  · exact still_signalEvt (still_writeIndex (still_updEp (still_emit h _) _ _ fun _ => by simp) _) _
  · exact still_updEp h _ _ fun _ => by simp

theorem still_foldl {α : Type} {f : State → α → State} (hf : ∀ s a, s.Still → (f s a).Still) :
    ∀ (l : List α) (s : State), s.Still → (l.foldl f s).Still
  | [], _, h => h
  | a :: l, s, h => still_foldl hf l (f s a) (hf s a h)

theorem still_postNow {s : State} (h : s.Still) (p : EvPost) : (s.postNow p).Still := by
  unfold postNow
  simp only
  refine still_foldl (fun s a hs => still_publishEvt hs a _) _ _ ?_
  split <;> exact still_of_eps h rfl

theorem still_post {s : State} (h : s.Still) (p : EvPost) : (s.post p).Still := by
  unfold post; split
  · exact still_postNow h p
  · split
    · exact still_of_eps h rfl
    · exact still_foldl (fun s a hs => still_updEp hs _ _ fun _ => by simp) _ _ h

theorem still_event {s : State} (h : s.Still) (code sev kind idx : Nat) (d : List Byte) (ps : List Nat) (r : Bool) :
    (s.event code sev kind idx d ps r).Still := still_post h _

theorem still_raiseAlarm {s : State} (h : s.Still) (code sev kind idx : Nat) (d : List Byte) (ps : List Nat) :
    (s.raiseAlarm code sev kind idx d ps).Still := by
  unfold raiseAlarm; split
  · exact still_of_eps h rfl
  · refine still_event ?_ _ _ _ _ _ _ _
    exact still_of_eps h rfl

theorem still_clearAlarm {s : State} (h : s.Still) (code kind idx : Nat) : (s.clearAlarm code kind idx).Still := by
  unfold clearAlarm; split
  · exact h
  · refine still_event ?_ _ _ _ _ _ _ _
    exact still_of_eps h rfl

theorem still_bump {s : State} (h : s.Still) (c : Nat) (k : ChanCtr) (n : Nat) : (s.bump c k n).Still := still_updChan h _ _
theorem still_bumpQ {s : State} (h : s.Still) (q : Nat) (k : QCtr) (n : Nat) : (s.bumpQ q k n).Still := still_updQueue h _ _
theorem still_updateHalt {s : State} (h : s.Still) (q : Nat) : (s.updateHalt q).Still := by
  unfold updateHalt; simp only; split
  · exact still_bumpQ (still_updQueue h _ _) _ _ _
  · split
    · exact still_updQueue h _ _
    · exact h
theorem still_updateHalts {s : State} (h : s.Still) (c : Nat) : (s.updateHalts c).Still :=
  still_foldl (fun _ _ hs => still_updateHalt hs _) _ _ h
theorem still_pressureTest {s : State} (h : s.Still) (q : Nat) : (s.pressureTest q).Still := by
  unfold pressureTest; simp only; split
  · exact still_bumpQ (still_updQueue h _ _) _ _ _
  · exact h

/-! ### A posted command (R519 to R528) -/

theorem units_lt {c : RawCmd} (h : headerBad c = false) : unitsOf c ≤ 1025 := by
  simp only [headerBad, Bool.or_eq_false_iff, decide_eq_false_iff_not] at h
  unfold unitsOf recUnits ceilDiv
  omega

/-- The state once command c has been written behind the ring's and the doorbell rung. -/
def postedSt (s : State) (c : RawCmd) : State := s.updEp c.hdr.ep fun e => { e with
  waiting := e.waiting ++ [c], cmdPi := (s.ep c.hdr.ep).cmdPi + BitVec.ofNat 32 (unitsOf c) }

/-- The state once it has been fetched. -/
def fetchedSt (s : State) (c : RawCmd) : State := (s.updEp c.hdr.ep fun e => { e with
  waiting := [c], fetched := 1, cmdPi := e.cmdPi + BitVec.ofNat 32 (unitsOf c)
  cmdCi := e.cmdPi + BitVec.ofNat 32 (unitsOf c) }).writeIndex c.hdr.ep

theorem ep_fetchedSt (s : State) (c : RawCmd) : (s.fetchedSt c).ep c.hdr.ep = { s.ep c.hdr.ep with
    waiting := [c], fetched := 1, cmdPi := (s.ep c.hdr.ep).cmdPi + BitVec.ofNat 32 (unitsOf c)
    cmdCi := (s.ep c.hdr.ep).cmdPi + BitVec.ofNat 32 (unitsOf c) } := by
  simp [fetchedSt, writeIndex]

theorem fetch_postedSt {s : State} {c : RawCmd} (h : s.EpIdle c.hdr.ep) (he : (s.ep c.hdr.ep).cmdCi = (s.ep c.hdr.ep).cmdPi) :
    (s.postedSt c).fetch c.hdr.ep = s.fetchedSt c := by
  obtain ⟨hw, hf, -, -, -, -⟩ := h
  unfold fetch postedSt fetchedSt
  simp only [ep_updEp, if_true, hw, hf, List.nil_append, List.drop_zero, Nat.sub_zero, List.take_succ_cons, List.take_nil,
    List.isEmpty_cons, Bool.false_eq_true, if_false, updEp_updEp]
  congr 1
  refine updEp_congr _ _ _ _ ?_
  simp [hw, hf, he]

theorem taken_fetchedSt {s : State} {c : RawCmd} (h : s.EpIdle c.hdr.ep) (f : EpSt → EpSt)
    (hf : ∀ e : EpSt, e.epoch = (s.ep c.hdr.ep).epoch → e.expSeq = (s.ep c.hdr.ep).expSeq → e.fetched = 1 →
      f e = { e with waiting := [], fetched := 0, expSeq := some (c.hdr.seq + 1) }) :
    (s.fetchedSt c).updEp c.hdr.ep f = s.taken c := by
  obtain ⟨hw, hf', -, -, -, -⟩ := h
  unfold taken fetchedSt writeIndex
  simp only [updEp_emit, updEp_updEp, ep_updEp, if_true]
  congr 1
  refine updEp_congr _ _ _ _ ?_
  refine (hf _ ?_ ?_ ?_).trans ?_ <;> simp [hw, hf']

theorem seqAfter_due {e : EpSt} {c : RawCmd} (he : c.hdr.epoch = e.epoch) : seqAfter e c = some (c.hdr.seq + 1) := by
  unfold seqAfter
  cases e.expSeq <;> simp [he]

theorem unitsNeeded_mgmt {s t : State} (h : t.mgmt = s.mgmt) (c : RawCmd) (r : CmdResult) (k : Nat) :
    unitsNeeded c r t k = unitsNeeded c r s k := by
  unfold unitsNeeded alarmsOf; rw [h]

theorem processHead_fetched {s : State} {c : RawCmd} (h : s.EpIdle c.hdr.ep) (he : c.hdr.epoch = (s.ep c.hdr.ep).epoch) {r : CmdResult}
    (hr : (s.taken c).judge c (s.ep c.hdr.ep).expSeq = r) (hroom : unitsNeeded c r s c.hdr.ep ≤ s.cmpRoom c.hdr.ep) :
    (s.fetchedSt c).processHead c.hdr.ep = some (settleResult r c.hdr.ep c) := by
  have hep := ep_fetchedSt s c
  have hw : ((s.fetchedSt c).ep c.hdr.ep).waiting = [c] := by rw [hep]
  have hepo : ((s.fetchedSt c).ep c.hdr.ep).epoch = (s.ep c.hdr.ep).epoch := by rw [hep]
  have hexp : ((s.fetchedSt c).ep c.hdr.ep).expSeq = (s.ep c.hdr.ep).expSeq := by rw [hep]
  have hcmp : (s.fetchedSt c).cmpRoom c.hdr.ep = s.cmpRoom c.hdr.ep := by unfold cmpRoom; rw [hep]
  have hun : unitsNeeded c r (s.fetchedSt c) c.hdr.ep = unitsNeeded c r s c.hdr.ep :=
    unitsNeeded_mgmt (by simp [fetchedSt, writeIndex]) _ _ _
  have ht := taken_fetchedSt (c := c) h (fun e => { e with waiting := [], fetched := e.fetched - 1, expSeq := seqAfter e c })
    fun e h1 _ h3 => by simp [h3, seqAfter_due (e := e) (c := c) (by rw [h1]; exact he)]
  unfold processHead
  rw [hw]
  simp only [hepo, hexp, he, ne_eq, not_true_eq_false, if_false, hcmp]
  rw [ht, hr, hun, if_neg (by omega)]

/-- Where no command is applying, none stops a partition. -/
theorem not_barredPart {s : State} (k : Nat) (h : ∀ j ∈ allParts, (s.ep j).applying = none ∧ (s.ep j).mboxApplying = none) :
    s.barredPart k = false := by
  simp only [barredPart, List.any_eq_false]
  intro j hj
  simp [(h j hj).1, (h j hj).2]

/-- Fetching a command leaves no endpoint applying. -/
theorem fetchedSt_applying {s : State} {c : RawCmd} (h : s.Still) (j : Nat) (hj : j ∈ allParts) :
    ((s.fetchedSt c).ep j).applying = none ∧ ((s.fetchedSt c).ep j).mboxApplying = none := by
  obtain ⟨-, -, -, ha, hm, -⟩ := h j hj
  by_cases e : j = c.hdr.ep
  · subst e; rw [ep_fetchedSt]; exact ⟨ha, hm⟩
  · simp only [fetchedSt, writeIndex, ep_emit, ep_updEp, if_neg e]; exact ⟨ha, hm⟩

/-- A posted command that its ring takes is judged and settled at once. -/
theorem ringStep_posted {s : State} {c : RawCmd} {n : Nat} (h : s.Takes c n) (hop : c.opcode ≠ 1)
    {r : CmdResult} (hr : (s.taken c).judge c (s.ep c.hdr.ep).expSeq = r)
    (hroom : unitsNeeded c r s c.hdr.ep ≤ s.cmpRoom c.hdr.ep) :
    (s.postedSt c).ringStep c.hdr.ep = some (settleResult r c.hdr.ep c) := by
  have hi := h.still c.hdr.ep (by simp [allParts])
  obtain ⟨hw, hf, hk, ha, hm1, hm2⟩ := id hi
  have hserv : (s.postedSt c).serving c.hdr.ep = true := by
    have hup := h.up
    unfold epUp alive powered at hup
    simp only [serving, epUp, alive, powered, postedSt, ep_updEp, if_true, h.run, fw_updEp, h.ready, Bool.and_true, pdom_updEp]
    exact hup
  have hdev : (s.postedSt c).afterDevReset c.hdr.ep = false := by simp [afterDevReset, postedSt, h.noReset]
  have hep := ep_fetchedSt s c
  have hres : (s.fetchedSt c).resyncAt c.hdr.ep = none := by
    have : (c.opcode == 1#16) = false := by simpa using hop
    simp [resyncAt, hep, List.findIdx_cons, this]
  have h1 : ((s.fetchedSt c).ep c.hdr.ep).applying = none := by rw [hep]; exact ha
  have h2 : ((s.fetchedSt c).ep c.hdr.ep).fetched = 1 := by rw [hep]
  have h3 : ((s.fetchedSt c).ep c.hdr.ep).kept = [] := by rw [hep]; exact hk
  unfold ringStep
  simp only [hserv, hdev, Bool.not_true, Bool.false_eq_true, if_false, fetch_postedSt hi h.empty, hres, h1, h2, h3,
    Option.isSome_none, Nat.one_ne_zero, decide_false, List.isEmpty_nil, Bool.or_self,
    not_barredPart c.hdr.ep (fetchedSt_applying h.still)]
  exact processHead_fetched hi h.epoch hr hroom

theorem epIdle_postedSt {s : State} {c : RawCmd} (h : s.Still) {j : Nat} (hj : j ∈ allParts) (hne : j ≠ c.hdr.ep) :
    (s.postedSt c).EpIdle j := by
  have := h j hj
  unfold EpIdle postedSt at *
  rw [ep_updEp, if_neg hne]
  exact this

/-- One round over endpoints of which one holds a posted command that can be processed. -/
theorem foldl_posted {s t : State} {c : RawCmd} (h : s.Still) (hs : (s.postedSt c).ringStep c.hdr.ep = some t) (ht : t.Still) :
    ∀ l : List Nat, (∀ j ∈ l, j ∈ allParts) → (l.foldl (fun s k =>
      let s := s.endApplying k
      drain k ((s.ep k).waiting.length + (s.ep k).kept.length + 2) s) (s.postedSt c))
      = if (c.hdr.ep : Nat) ∈ l then t else s.postedSt c := by
  intro l
  induction l with
  | nil => simp
  | cons j l ih =>
    intro hl
    have hj := hl j (by simp)
    have hl' : ∀ i ∈ l, i ∈ allParts := fun i hi => hl i (by simp [hi])
    by_cases hne : j = c.hdr.ep
    · subst hne
      obtain ⟨-, -, -, ha, hm, hx⟩ := h c.hdr.ep hj
      have ha' : ((s.postedSt c).ep c.hdr.ep).applying = none := by simp [postedSt, ha]
      have hm' : ((s.postedSt c).ep c.hdr.ep).mboxApplying = none := by simp [postedSt, hm]
      have hx' : ((s.postedSt c).ep c.hdr.ep).mboxWait = none := by simp [postedSt, hx]
      have he : (s.postedSt c).endApplying c.hdr.ep = s.postedSt c := by simp [endApplying, ha', hm', hx']
      have hd : ∀ n, drain c.hdr.ep (n + 1) (s.postedSt c) = t := by
        intro n; simp only [drain, hs]; exact drain_idle (ht _ hj) n
      simp only [List.foldl_cons, he]
      rw [hd]
      rw [if_pos (by simp)]
      have : ∀ l : List Nat, (∀ k ∈ l, k ∈ allParts) → (l.foldl (fun s k =>
          let s := s.endApplying k
          drain k ((s.ep k).waiting.length + (s.ep k).kept.length + 2) s) t) = t := by
        intro l
        induction l with
        | nil => simp
        | cons k l ih =>
          intro hl
          have hk := ht k (hl k (by simp))
          simp only [List.foldl_cons, endApplying_idle hk, drain_idle hk]
          exact ih fun j hj => hl j (by simp [hj])
      exact this l hl'
    · have hi := epIdle_postedSt (c := c) h hj hne
      simp only [List.foldl_cons, endApplying_idle hi, drain_idle hi]
      rw [ih hl']
      simp [Ne.symm hne]

theorem settle_posted {s t : State} {c : RawCmd} (h : s.Still) (hs : (s.postedSt c).ringStep c.hdr.ep = some t) (ht : t.Still) :
    (s.postedSt c).settle = t := by
  have : (s.postedSt c).settleRound = t := by
    unfold settleRound
    rw [foldl_posted h hs ht allParts (fun _ h => h), if_pos (by simp [allParts])]
  unfold settle; rw [this, round_idle ht, round_idle ht]

theorem doorbell_posted {s : State} {c : RawCmd} {n : Nat} (h : s.Takes c n) : s.hostPost c = (s.postedSt c).settle := by
  have hu := units_lt h.header
  have hf := h.fits
  have hlt : unitsOf c < 2 ^ 32 := by omega
  have hto : (BitVec.ofNat 32 (unitsOf c)).toNat = unitsOf c := by
    rw [BitVec.toNat_ofNat, Nat.mod_eq_of_lt hlt]
  have hsub : ∀ x : BitVec 32, (x + BitVec.ofNat 32 (unitsOf c) - x).toNat = unitsOf c := by
    intro x
    rw [show x + BitVec.ofNat 32 (unitsOf c) - x = BitVec.ofNat 32 (unitsOf c) by
      rw [BitVec.add_comm, BitVec.add_sub_cancel], hto]
  unfold hostPost doDoorbell
  have h1 : ¬ (((s.ep c.hdr.ep).cmdPi + BitVec.ofNat 32 (unitsOf c) - (s.ep c.hdr.ep).cmdCi).toNat
      < ((s.ep c.hdr.ep).cmdPi - (s.ep c.hdr.ep).cmdCi).toNat
      ∨ 2 ^ (s.ep c.hdr.ep).cmdSize < ((s.ep c.hdr.ep).cmdPi + BitVec.ofNat 32 (unitsOf c) - (s.ep c.hdr.ep).cmdCi).toNat) := by
    rw [h.empty, hsub]
    simp only [BitVec.sub_self, BitVec.toNat_zero]
    omega
  simp only [h.up, h.run, Bool.not_true, Bool.or_self, Bool.false_eq_true, if_false, if_neg h1, hsub, wholeIn, Nat.le_refl, if_true,
    List.map_cons, List.map_nil, List.sum_cons, List.sum_nil, Nat.add_zero]
  rfl

/-- A posted command that its ring takes completes with the result of applying it (R519 to R528). -/
theorem hostPost_done {s : State} {c : RawCmd} {n : Nat} (h : s.Takes c n) (hop : c.opcode ≠ 1) (hop2 : c.opcode ≠ 2) {r : CmdResult}
    (hr : (s.taken c).applyCmd c = r) (hk : (hostApply c.opcode.toNat c.hdr c.payload (s.taken c)).isSome = true)
    (hst : r.status ≠ stApplying) (hlen : r.reply.length ≤ n) (hstill : r.state.Still) :
    s.hostPost c = r.state.finish c.hdr.ep c r.status r.detail r.reply := by
  have hj : (s.taken c).judge c (s.ep c.hdr.ep).expSeq = r := by
    unfold judge
    rw [if_neg (by simpa [Option.isSome_iff_ne_none] using hk)]
    have : (s.ep c.hdr.ep).expSeq.filter (fun n => n != c.hdr.seq) = none := by
      rcases h.seq with hs | hs <;> simp [hs]
    rw [this]
    simp only [h.header, Bool.false_eq_true, if_false]
    exact hr
  have hroom : unitsNeeded c r s c.hdr.ep ≤ s.cmpRoom c.hdr.ep := by
    have hop2' : ¬ (c.opcode = 2) := hop2
    unfold unitsNeeded
    rw [if_neg hop2']
    refine Nat.le_trans ?_ h.room
    unfold recUnits ceilDiv
    refine Nat.div_le_div_right ?_
    generalize min 65536 ((replyLen c.opcode.toNat c.payload).getD 0) = x
    omega
  have hs := ringStep_posted h hop hj hroom
  have hset : settleResult r c.hdr.ep c = r.state.finish c.hdr.ep c r.status r.detail r.reply := by
    unfold settleResult; rw [if_neg hst]
  rw [hset] at hs
  rw [doorbell_posted h, settle_posted h.still hs (still_finish hstill _ _ _ _ _)]

theorem still_taken {s : State} (h : s.Still) (c : RawCmd) : (s.taken c).Still := by
  unfold taken
  exact still_updEp (still_writeIndex (still_updEp h _ _ fun _ => by simp) _) _ _ fun _ => by simp

/-- The checks of R528 pass: PLEN, the right, every field and every reserved byte. -/
theorem checked_ok (s : State) {right bad : Option Nat} {plen : Bool} (k : CmdResult) (h1 : plen = true) (h2 : right = none)
    (h3 : bad = none) : checked s plen right bad k = k := by
  subst h1 h2 h3; rfl

theorem firstBad_none {p : List Byte} {fs : List (Bool × Nat)} {rsv : List (Nat × Nat)} (hf : ∀ f ∈ fs, f.1 = false)
    (hr : ∀ r ∈ rsv, ∀ j < r.2, p.getD (r.1 + j) 0 = 0) : firstBad p fs rsv = none := by
  have h1 : (fs.filterMap fun f => if f.1 then some f.2 else none) = [] := by
    rw [List.filterMap_eq_nil_iff]
    intro f hm
    simp [hf f hm]
  have h2 : rsvBad p rsv = [] := by
    unfold rsvBad
    rw [List.flatMap_eq_nil_iff]
    intro r hm
    rw [List.filterMap_eq_nil_iff]
    intro j hj
    simp only [hr r hm j (List.mem_range.1 hj), ne_eq, not_true_eq_false, if_false]
  simp [firstBad, h1, h2]

/-- A command whose application is done at once completes with OK. -/
theorem hostPost_ok {s t : State} {c : RawCmd} {n : Nat} {reply : List Byte} (h : s.Takes c n) (hop : c.opcode ≠ 1) (hop2 : c.opcode ≠ 2)
    (hk : hostApply c.opcode.toNat c.hdr c.payload (s.taken c) = some (done t reply))
    (hd : (s.taken c).lacksDomain c.opcode.toNat c.payload = false) (hlen : reply.length ≤ n) (hstill : t.Still) :
    s.hostPost c = t.okOf c reply := by
  have hr : (s.taken c).applyCmd c = done t reply := by
    unfold applyCmd; rw [hk]; simp [hd]
  exact hostPost_done h hop hop2 hr (by rw [hk]; rfl) (by simp [done, stOk, stApplying]) hlen hstill

/-- A command that is refused completes with its code and leaves the state as it was (R527). -/
theorem hostPost_fail {s : State} {c : RawCmd} {code detail : Nat} (h : s.Takes c 0) (hop : c.opcode ≠ 1) (hop2 : c.opcode ≠ 2)
    (hk : hostApply c.opcode.toNat c.hdr c.payload (s.taken c) = some (fail (s.taken c) code detail)) (hc : code ≠ stApplying)
    (hd : (s.taken c).lacksDomain c.opcode.toNat c.payload = false ∨ code = stBadParam ∨ code = stNoRight) :
    s.hostPost c = (s.taken c).failOf c code detail := by
  have hr : (s.taken c).applyCmd c = fail (s.taken c) code detail := by
    unfold applyCmd; rw [hk]
    rcases hd with hd | hd | hd <;> simp [hd, CmdResult.pastChecks, fail]
  exact hostPost_done h hop hop2 hr (by rw [hk]; rfl) hc (by simp [fail]) (still_taken h.still c)

/-! ### What fetching leaves of the state -/

section
variable (s : State) (c : RawCmd) (j : Nat)

@[simp] theorem chans_taken : (s.taken c).chans = s.chans := by simp only [taken, writeIndex, chans_updEp, chans_emit]
@[simp] theorem queues_taken : (s.taken c).queues = s.queues := by simp only [taken, writeIndex, queues_updEp, queues_emit]
@[simp] theorem allocs_taken : (s.taken c).allocs = s.allocs := by simp only [taken, writeIndex, allocs_updEp, allocs_emit]
@[simp] theorem peaks_taken : (s.taken c).peaks = s.peaks := by simp only [taken, writeIndex, peaks_updEp, peaks_emit]
@[simp] theorem policers_taken : (s.taken c).policers = s.policers := by simp only [taken, writeIndex, policers_updEp, policers_emit]
@[simp] theorem rules_taken : (s.taken c).rules = s.rules := by simp only [taken, writeIndex, rules_updEp, rules_emit]
@[simp] theorem counters_taken : (s.taken c).counters = s.counters := by simp only [taken, writeIndex, counters_updEp, counters_emit]
@[simp] theorem slices_taken : (s.taken c).slices = s.slices := by simp only [taken, writeIndex, slices_updEp, slices_emit]
@[simp] theorem bonds_taken : (s.taken c).bonds = s.bonds := by simp only [taken, writeIndex, bonds_updEp, bonds_emit]
@[simp] theorem lags_taken : (s.taken c).lags = s.lags := by simp only [taken, writeIndex, lags_updEp, lags_emit]
@[simp] theorem mem_taken : (s.taken c).mem = s.mem := by simp only [taken, writeIndex, mem_updEp, mem_emit]
@[simp] theorem gorse_taken : (s.taken c).gorse = s.gorse := by simp only [taken, writeIndex, gorse_updEp, gorse_emit]
@[simp] theorem time_taken : (s.taken c).time = s.time := by simp only [taken, writeIndex, time_updEp, time_emit]
@[simp] theorem trib_taken : (s.taken c).trib = s.trib := by simp only [taken, writeIndex, trib_updEp, trib_emit]
@[simp] theorem ports_taken : (s.taken c).ports = s.ports := by simp only [taken, writeIndex, ports_updEp, ports_emit]
@[simp] theorem macs_taken : (s.taken c).macs = s.macs := by simp only [taken, writeIndex, macs_updEp, macs_emit]
@[simp] theorem lanes_taken : (s.taken c).lanes = s.lanes := by simp only [taken, writeIndex, lanes_updEp, lanes_emit]
@[simp] theorem pwr_taken : (s.taken c).pwr = s.pwr := by simp only [taken, writeIndex, pwr_updEp, pwr_emit]
@[simp] theorem rst_taken : (s.taken c).rst = s.rst := by simp only [taken, writeIndex, rst_updEp, rst_emit]
@[simp] theorem fw_taken : (s.taken c).fw = s.fw := by simp only [taken, writeIndex, fw_updEp, fw_emit]
@[simp] theorem mgmt_taken : (s.taken c).mgmt = s.mgmt := by simp only [taken, writeIndex, mgmt_updEp, mgmt_emit]
@[simp] theorem parts_taken : (s.taken c).parts = s.parts := by simp only [taken, writeIndex, parts_updEp, parts_emit]
@[simp] theorem now_taken : (s.taken c).now = s.now := by simp only [taken, writeIndex, now_updEp, now_emit]
@[simp] theorem draws_taken : (s.taken c).draws = s.draws := by simp only [taken, writeIndex, draws_updEp, draws_emit]
@[simp] theorem nextFrame_taken : (s.taken c).nextFrame = s.nextFrame := by simp only [taken, writeIndex, nextFrame_updEp, nextFrame_emit]
@[simp] theorem pending_taken : (s.taken c).pending = s.pending := by simp only [taken, writeIndex, pending_updEp, pending_emit]
@[simp] theorem chan_taken : (s.taken c).chan j = s.chan j := by unfold chan; rw [chans_taken]
@[simp] theorem queue_taken : (s.taken c).queue j = s.queue j := by unfold queue; rw [queues_taken]
@[simp] theorem alloc_taken : (s.taken c).alloc j = s.alloc j := by unfold alloc; rw [allocs_taken]
@[simp] theorem peak_taken : (s.taken c).peak j = s.peak j := by unfold peak; rw [peaks_taken]
@[simp] theorem policer_taken : (s.taken c).policer j = s.policer j := by unfold policer; rw [policers_taken]
@[simp] theorem slice_taken : (s.taken c).slice j = s.slice j := by unfold slice; rw [slices_taken]
@[simp] theorem bond_taken : (s.taken c).bond j = s.bond j := by unfold bond; rw [bonds_taken]
@[simp] theorem lag_taken : (s.taken c).lag j = s.lag j := by unfold lag; rw [lags_taken]
@[simp] theorem port_taken : (s.taken c).port j = s.port j := by unfold port; rw [ports_taken]
@[simp] theorem mac_taken : (s.taken c).mac j = s.mac j := by unfold mac; rw [macs_taken]
@[simp] theorem lane_taken : (s.taken c).lane j = s.lane j := by unfold lane; rw [lanes_taken]
@[simp] theorem part_taken : (s.taken c).part j = s.part j := by unfold part; rw [parts_taken]
@[simp] theorem pdom_taken : (s.taken c).pdom j = s.pdom j := by unfold pdom; rw [pwr_taken]
@[simp] theorem dom_taken : (s.taken c).dom j = s.dom j := by unfold dom; rw [time_taken]
@[simp] theorem trig_taken : (s.taken c).trig j = s.trig j := by unfold trig; rw [time_taken]
@[simp] theorem capt_taken : (s.taken c).capt j = s.capt j := by unfold capt; rw [time_taken]
@[simp] theorem ptp_taken : (s.taken c).ptp j = s.ptp j := by unfold ptp; rw [time_taken]
@[simp] theorem stream_taken : (s.taken c).stream j = s.stream j := by unfold stream; rw [trib_taken]
@[simp] theorem bank_taken : (s.taken c).bank j = s.bank j := by unfold bank; rw [mem_taken]
@[simp] theorem stack_taken : (s.taken c).stack j = s.stack j := by unfold stack; rw [mem_taken]
@[simp] theorem pin_taken : (s.taken c).pin j = s.pin j := by unfold pin; rw [rst_taken]
@[simp] theorem alive_taken : (s.taken c).alive j = s.alive j := by unfold alive powered; rw [pdom_taken]
@[simp] theorem macOwner_taken : (s.taken c).macOwner j = s.macOwner j := by unfold macOwner; rw [port_taken]
@[simp] theorem queueOwner_taken : (s.taken c).queueOwner j = s.queueOwner j := by unfold queueOwner; rw [chan_taken, macOwner_taken]
@[simp] theorem laneOwner_taken : (s.taken c).laneOwner j = s.laneOwner j := by unfold laneOwner; rw [chan_taken, port_taken]
@[simp] theorem planning_taken : (s.taken c).planning j = s.planning j := by unfold planning; rw [chan_taken]
@[simp] theorem openHeld_taken : (s.taken c).openHeld j = s.openHeld j := by unfold openHeld; rw [chan_taken, pdom_taken, pdom_taken]
@[simp] theorem laneHeld_taken : (s.taken c).laneHeld j = s.laneHeld j := by unfold laneHeld; rw [openHeld_taken]

end

end Sys2Proof.Machine.State
end

