-- ==== Sys2Proof/Laws/Tcm.lean ====
section
/-! SUPPORT. A downstream TCM that a channel takes: what counting, recording, applying and answering it come to. -/

namespace Sys2Proof.Machine.State

/-- A message that passed the checks is recorded, applied and answered. -/
theorem tcmAccept_heard {s : State} {c : Nat} {h : TcmHdr} {m : DownTcm} {n : BitVec 48} (hf : h.tid = 0xFFFE ∨
    ∀ d ∈ (s.chan c).tc.dups, d.type ≠ m.type ∨ d.seq ≠ h.seq) :
    (s.bump c .tcRxOk).tcmAccept c h m n = match (s.heard c h m).tcmApply c h m n with
      | (some r, t) => t.answered c h m n r
      | (none, t) => t := by
  unfold tcmAccept
  by_cases hb : h.tid = 0xFFFE
  · simp only [hb, bne_self_eq_false, Bool.false_eq_true, if_false, heard, if_true, answered]
    all_goals (split <;> rename_i he <;> simp [he])
  · have hb' : (h.tid != 0xFFFE) = true := by simpa using hb
    have hd : ((s.bump c .tcRxOk).chan c).tc.dups.find? (fun d => d.type == m.type && d.seq == h.seq) = none := by
      rw [List.find?_eq_none]
      rintro d hm
      have hm' : d ∈ (s.chan c).tc.dups := by simpa [bump] using hm
      rcases (hf.resolve_left hb) d hm' with hx | hx <;> simp [hx]
    simp only [hb', if_true, hd, heard, if_neg hb, answered]
    all_goals (split <;> rename_i he <;> simp [he])

/-- A message that the channel takes is recorded, applied and answered; ASSIGN.ID is tested further. -/
theorem tcmRow_heard {s : State} {c : Nat} {h : TcmHdr} {m : DownTcm} {n : BitVec 48} (hh : s.Hears c h m n)
    (hm : ∀ b, m ≠ .assignId b) :
    s.tcmRow c h m = match (s.heard c h m).tcmApply c h m n with
      | (some r, t) => t.answered c h m n r
      | (none, t) => t := by
  unfold tcmRow
  simp only [hh.receiving, hh.accepted, if_true]
  unfold tcm
  have h1 : ¬ (h.tid ≠ h.flowTag ∨ (!(if h.tid = 0xFFFE then m.toAll else m.toTid)) = true) := by
    rintro (hx | hx)
    · exact hx hh.tid
    · rw [hh.address] at hx; simp at hx
  simp only [hh.length, Bool.not_true, Bool.false_eq_true, if_false, if_neg h1, hh.named, hh.permitted]
  rw [← tcmAccept_heard hh.fresh]

end Sys2Proof.Machine.State
end

