-- ==== Sys2Proof/WellFormed.lean ====
section
/-! DEFINITION. Which commands are well formed: operands whose lengths and ranges the record they stand for fixes. A command
that is not well formed spells no frame, message or record of the spec; every meaning is total all the same. -/

namespace Sys2Proof

/-- The header block of a frame has 64 bytes of overhead data and 23 reserved descriptor bytes (Table 2.2, Table 2.11). -/
def FrameHdr.wellFormed (h : FrameHdr) : Bool := h.odc.length == 64 && h.tribRsv.length == 23

/-- A frame names each of its 45,952 codewords at most once, each with its 272 bytes as received (R55), and begins within
6.4 ns of the last tick. -/
def DsFrame.wellFormed (f : DsFrame) : Bool :=
  f.hdr.wellFormed && decide (f.off20 < 320) && f.cws.all (fun e => decide (e.1 < 45952) && e.2.length == 272)
    && decide ((f.cws.map (·.1)).Nodup)

/-- A payload is at most 65,536 bytes (Table 17.8). -/
def payloadOk (p : List Byte) : Bool := decide (p.length ≤ 65536)

/-- Operand lengths and ranges of each command. -/
def Instr.wellFormed : Instr → Bool
  | .syncMatch _ pos _ => decide (pos < 781250)
  | .candidateCheck _ pos f => decide (pos < 781250) && f.wellFormed
  | .downstreamFrame _ f => f.wellFormed
  | .mapHandOff _ es _ => decide (es.length ≤ 8192)
  | .segment _ bs => decide (8 ≤ bs.length)
  | .allocMap _ _ _ es => decide (es.length ≤ 12)
  | .flowMap _ _ _ es => decide (es.length ≤ 9)
  | .keyReq _ _ b => decide (b.frag.length ≤ 35)
  | .grantRevoke _ _ _ ids => decide (ids.length ≤ 16)
  | .runAheadPrediction _ p => decide (p.allocs.length ≤ 64)
  | .hostFrameReceived _ f => decide (f.off100 < 64)
  | .captureEdge _ _ off => decide (off < 64)
  | .egressFrameTake _ x => decide (x.off100 < 64)
  | .pageReadDone _ _ (some d) => decide (d < 8192)
  | .tributaryFrameRx _ f => decide (f.payload.length ≤ 16384)
  | .odcPortFrame _ di => di.length == 512
  | .eyeScanDone _ counts => decide (counts.length ≤ 16320)
  | .laneMarker _ _ arrival => decide (arrival < 2 ^ 32)
  | .energyIntegration uj => uj.length == 8
  | .sensorSample ts => ts.length == 48
  | .railSample vs => vs.length == 8
  | .mbxDoorbell _ _ cmds => cmds.all fun c => payloadOk c.payload
  | .mbxCmd _ cmd => payloadOk cmd.payload
  | .mbxPushBegin _ r | .mbxPushData _ r | .mbxFlogGet _ r | .mbxPushEnd _ r _ => decide (r.length ≤ 256)
  | .sbPushBegin r | .sbPushData r | .sbFlogGet r | .sbAlarmGet r | .sbPushEnd r _ => decide (r.length ≤ 64)
  | .registerWrite _ off _ => decide (off < 65536)
  | .resync _ p | .summaryGet _ p | .devInfo _ p | .devReset _ p | .devCauseClear _ p | .rstPolicySet _ p
  | .partAssign _ p | .partQuotaSet _ p | .partReset _ p | .partGet _ p | .chanOpen _ p | .chanClose _ p
  | .chanFeSet _ p | .chanTimerSet _ p | .chanStatsGet _ p | .chanGuardClear _ p | .chanWake _ p | .chanPlanSet _ p
  | .chanDozeSet _ p | .chanReset _ p | .flowCtxSet _ p | .feMgmtSet _ p | .queueSet _ p | .queueShaperSet _ p
  | .queueDropSet _ p | .queueSampleSet _ p | .queueSpillSet _ p | .queueFcSet _ p | .queueFlush _ p | .queueGet _ p
  | .queueStatsGet _ p | .queueLatGet _ p | .allocSet _ p | .allocShaperSet _ p | .allocGet _ p | .chanPeakSet _ p
  | .policerSet _ p | .policerStatsGet _ p | .sampleRingSet _ p | .ruleAdd _ p | .ruleMod _ p | .ruleDel _ p
  | .ruleGet _ p | .ruleCommit _ p | .ruleAbort _ p | .clProfileSet _ p | .clSourceSet _ p | .counterGet _ p
  | .clStatsGet _ p | .bondSet _ p | .bondTableSet _ p | .bondStatsGet _ p | .lagSet _ p | .lagTableSet _ p
  | .keyChanSet _ p | .keyStateGet _ p | .timeDomainBind _ p | .timeDomainSet _ p | .timeSelectSet _ p
  | .timeResolve _ p | .timeSet _ p | .timeGet _ p | .timeStatsGet _ p | .ppsSet _ p | .todSet _ p | .trigSet _ p
  | .captSet _ p | .ptpPortSet _ p | .ptpSourceSet _ p | .tsRingSet _ p | .gateSet _ p | .gateGet _ p
  | .tribAllocSet _ p | .tribStreamSet _ p | .tribConnSet _ p | .tribConnGet _ p | .tribPageArm _ p
  | .tribPageDisarm _ p | .tribStatsGet _ p | .odcPortSet _ p | .odcStatsGet _ p | .hportModeSet _ p | .hportSet _ p
  | .hportSleepSet _ p | .hportSleep _ p | .hportWake _ p | .hportStatusGet _ p | .hportStatsGet _ p
  | .laneStatusGet _ p | .laneTxSet _ p | .laneRxSet _ p | .laneTestSet _ p | .laneInject _ p | .laneEyeGet _ p
  | .laneStatsGet _ p | .pwrBudgetSet _ p | .pwrRelease _ p | .pwrEnergyGet _ p | .pwrStateGet _ p | .domainReset _ p
  | .arbPrioSet _ p | .arbCommit _ p | .arbGet _ p | .memBankSet _ p | .memStatsGet _ p | .sensorGet _ p
  | .alarmThreshSet _ p | .alarmAck _ p | .logRead _ p | .flogRead _ p | .wdogSet _ p | .fwStage _ p | .fwVerify _ p
  | .fwActivate _ p | .fwStatusGet _ p | .fuseSvnAdvance _ p | .fusePinmapBurn _ p | .attestQuote _ p
  | .attestCertGet _ p => payloadOk p
  | .profile _ _ _ | .assignId _ _ _ | .assignEqd _ _ _ _ | .keySwitch _ _ _ | .timeAnnounce _ _ _
  | .sleepGrant _ _ _ _ | .wakeReq _ _ _ | .deactivate _ _ _ | .silence _ _ _ _ | .unsilence _ _ _ _ | .ack _ _ _ _ _
  | .lockTimeout _ | .announceTimeout _ | .rangeTimeout _ | .holdTimeout _ | .tcmResend _ | .guardTrip _ _
  | .dozeWake _ | .dozeIdle _ | .planStart _ _ | .enginePlanComplete _ _ | .committedWakeRequest _ _
  | .planDeadline _ _ | .fallbackPlanDelivery _ _ | .assemblyPoint _ _ _ | .burstEnd _ _ | .pauseTimeExpiry _ _
  | .pauseRefresh _ _ | .shaperTick | .queueSample _ | .reorderTimeout _ | .pageWriteDone _ _
  | .pageReadIssue _ | .stackFailed _ | .stackSelfRefresh _ | .spillPortRetry _ _ | .patrolScrub _ _
  | .fragCollectionExpiry _ | .erasureAlarm _ | .kweClaim _ _ | .kweRelease _ | .kweLockCut | .kweLoadk _ | .kweWrap _
  | .kweUnwrap _ | .kweWrapp _ | .kweUnwrapp _ | .kweSeal _ | .kweLoadPs _ | .kweLoadKek _ _ | .kweClear _
  | .kweLineWrap _ _ _ _ | .kweBcastUnwrap _ _ _ | .kweOpDone | .annTimeout _ | .revertExpiry | .ppsEdge | .todMessage
  | .triggerPulse _ | .ptpSyncSend _ | .ptpAnnounceSend _ | .gateSwitch _ | .tribPartsEnqueue _ | .quietNoticeEnd _
  | .wakeDetected _ | .linkChange _ _ | .blockLock _ _ | .blockLockLoss _ | .losDetect _ _ | .lolDetect _ _
  | .felosDetect _ _ | .prbsLock _ | .prbsLockLoss _ | .feLanePoll _ _ _ _ | .feBusStretchTimeout _ | .brackenGrant _
  | .rampEnd _ | .serviceWaitLimit _ | .powerOverBudget _ | .cardSeated | .cardWithdrawal | .railPowerGoodLoss _
  | .railPowerGood _ | .railOvercurrent _ | .thermalTrip _ | .emergencyStep | .thermalRestart | .tempAlarmClear _
  | .railAlarmClear _ _ | .powerOn | .resetNLow | .resetNHigh | .resetNHeld | .resetNDriveEnd | .blankingEnd _
  | .watchdogExpiry | .stretchEnd _ _ | .candidateVerified _ _ | .ready | .mgmtRestartTimeout | .clusterReady _ _
  | .drbgHealthFailure _ | .drbgRestart | .drbgReseed | .flashLogWrite _ | .asyncOperationDone _ _ _ _ | .ringRun _
  | .ringStop _ | .functionLevelReset _ | .pcieLinkDown _ | .moderationHoldExpiry _ _
  | .mbxBootrecGet _ | .sbRelease | .sbResetWarm | .sbResetCold | .sbBootrecGet | .versionDrained _
  | .xaonRunning | .pcieLinkUp _ | .stackLinkRetrained _ | .devResetSourceAssert | .wakePatternEnd _
  | .gateEntryStart _ | .engineClusterFault _ | .backgroundScrub _ | .pageReadDone _ _ none => true

end Sys2Proof
end

