-- ==== Sys2Proof/Tests/Slice0.lean ====
section
/-! SUPPORT. Tests of the model: ill-formed commands that WellFormed refuses, worked examples of the spec, and for every statement a
state and operands that meet the premises of each of its clauses. -/

namespace Sys2Proof.Tests

open Sys2Proof Sys2Proof.Machine

set_option maxRecDepth 20000

/-! ### States and commands -/

/-- n zero bytes with some bytes replaced. -/
def pay (n : Nat) (l : List (Nat × Nat)) : List Byte :=
  l.foldl (fun p x => p.set x.1 (BitVec.ofNat 8 x.2)) (zeros n)

/-- A command header of endpoint 0. -/
def hdr : CmdHdr := { ep := 0, flags := 0, tag := 7, seq := 0, epoch := 0, rsv := 0 }

/-- A powered domain out of reset. -/
def on : PwrDom := { ph := .on, inReset := false, fenced := false }

/-- A package. -/
def pkg0 : PackageInfo := { svn := 0, imgVer := 1, digest := 2, engDigest := 3, cifv := 4, recovery := false }

/-- The first bytes of a package without components. -/
def img0 : PkgImage := { head := zeros 64, comps := [], sigOk := true }

/-- A device that runs: the domains of the first resource of each kind powered, endpoint 0 with its rings running, the management firmware
READY. -/
def rdy : State := { State.reset with
  rst := { State.reset.rst with asserted := [], fuseLoaded := true, pinMapOn := true }
  parts := [(0, { quotas := [64, 64, 64, 64, 64, 64, 64, 64] })]
  eps := [(0, { link := true, run := true, cmdSize := 14, cmpSize := 14, evtSize := 14 })]
  fw := { ready := true, mgmtFree := true, pkg := some pkg0, absent := [] }
  pwr := { doms := [0, 1, 2, 3, 4, 68, 132, 164, 180, 196, 212, 216, 217].map fun d => (d, on), seated := true, railGood := List.range 8 } }

/-- A frame header with a good SYNC and a good HCRC. -/
def goodHdr : FrameHdr :=
  { sync := syncPattern, sfc := 9, hflags := 0, hcrc := crc16 (beBytes 6 9 ++ beBytes 2 0), mapLen := 0, mapStart := 0, profEpoch := 0
    lcrc := 0, odc := [], tribStart := 0, tribSlots := 0, tribPage := 0, tribRsv := [], tribCrc := 0 }

/-- A frame under a header. -/
def frameOf (h : FrameHdr) : DsFrame := { hdr := h, off20 := 0, cws := [] }

/-- A frame in progress. -/
def cur0 : CurFrame :=
  { sfc := 8, tds := 0, payload := true, phase := .awaited, usable := true, map := { len := 0, start := 5, epoch := 0 }
    trib := { start := 0, slots := 0, nextPage := false, activePage := false }, cwErrs := [], pos := 1052, searching := false }

/-- The running device with channel 0 open in a state, in lock and aligned, a frame in progress. -/
def chanIn (st : TState) (f : ChanSt → ChanSt := id) : State := rdy.updChan 0 fun x =>
  f { x with rx := { x.rx with lock := true, aligned := true, lanesUp := true, cur := some cur0 }, tc := { x.tc with opened := true, st, tid := 7 } }

/-- A profile and a grant of one. -/
def prof0 : Profile := { guard := 16, preLen := 8, prePat := 0, delim := 0, fec := true }
def grant0 : Grant :=
  { alloc := 1, ctx := 0, start := 100, len := 100, rpt := false, ctrl := false, range := false, cut := false, prof := 0, body := 50 }

/-- A burst in a phase. -/
def burst0 (k : BurstKind) (ph : BurstPhase) : Burst :=
  { id := 5, frame := 9, kind := k, start := 100, words := 100, grants := [grant0], prof := prof0, profIdx := 0, epoch := 0, tLane := 0
    eqd := 0, feUs := 0, rand := 0, phase := ph, plan := none, planReady := false, engines := true, hol := [false], fallback := false
    seen := [], woken := false, segs := [[]], reports := [], tcm := none, keySlot := 0, trib := [] }

/-- Channel 0 in WATCH with bursts. -/
def withBursts (bs : List Burst) : State := chanIn .watch fun x => { x with us := { x.us with bursts := bs } }

/-- A marker with a good MSYNC and MCRC. -/
def goodMarker : BitVec 64 :=
  BitVec.ofNat 64 (markerSync * 2 ^ 48 + (crc8 (markerBody (BitVec.ofNat 64 (markerSync * 2 ^ 48)))).toNat)

/-- A frame of a queue. -/
def qframe : Frame :=
  { id := 0, bytes := zeros 60, flow := none, colour := .green, enq := 0, bond := none, cells := [], fromReserve := false, place := .head
    claimed := false, reserved := false, stream := none }

/-- The running device with MAC 0 enabled and its link up. -/
def macUp : State := rdy.updMac 0 fun x => { x with en := true, link := true }

/-- A frame received without error. -/
def hostFrame0 (t : Nat) : HostFrame := { bytes := zeros 12 ++ beBytes 2 t ++ zeros 50, fcsGood := true, pcsErr := false, off100 := 0 }

/-- A tributary frame of stream 0. -/
def tribFrame0 : TribFrame :=
  { vlan := none, etype := 0x88B5, ver := 1, stream := 0, dirUp := true, tseq := 2, part := 0, parts := 1, firstSslot := 0, nslot := 1
    missing := 0, payload := zeros 2048 }

/-- A record of the on-chip log. -/
def rec0 : EvRec :=
  { code := 0x1010, sev := 2, raised := false, kind := 0, idx := 0, detail := [], time := 0, pstate := 0, parts := [0], seq := 0, flash := false }

/-- A command of endpoint 0 without a payload. -/
def cmd0 (op : Nat) : RawCmd := { opcode := BitVec.ofNat 16 op, hdr, payload := [] }

/-- The conditions under which a ring takes a command at once, as a test. -/
def takesB (s : State) (c : RawCmd) (n : Nat) : Bool :=
  let e := s.ep c.hdr.ep
  allParts.all (fun k => let e := s.ep k
    e.waiting.isEmpty && e.fetched == 0 && e.kept.isEmpty && e.applying.isNone && e.mboxApplying.isNone && e.mboxWait.isNone)
  && s.epUp c.hdr.ep && e.run && s.fw.ready && s.rst.devReset.isNone && e.cmdCi == e.cmdPi && decide (State.unitsOf c ≤ 2 ^ e.cmdSize)
  && c.hdr.epoch == e.epoch && (e.expSeq.isNone || e.expSeq == some c.hdr.seq) && !State.headerBad c
  && decide (recUnits (max n (min 65536 ((replyLen c.opcode.toNat c.payload).getD 0))) ≤ s.cmpRoom c.hdr.ep)

theorem takes_of {s : State} {c : RawCmd} {n : Nat} (h : takesB s c n = true) : s.Takes c n := by
  simp only [takesB, Bool.and_eq_true, decide_eq_true_eq, List.all_eq_true, List.isEmpty_iff, beq_iff_eq, Option.isNone_iff_eq_none,
    Bool.or_eq_true, Bool.not_eq_true'] at h
  obtain ⟨⟨⟨⟨⟨⟨⟨⟨⟨⟨h0, h1⟩, h2⟩, h3⟩, h4⟩, h5⟩, h6⟩, h7⟩, h8⟩, h9⟩, h10⟩ := h
  refine ⟨?_, h1, h2, h3, h4, h5, h6, h7, h8, h9, h10⟩
  intro k hk
  obtain ⟨⟨⟨⟨⟨a, b⟩, c⟩, d⟩, e⟩, f⟩ := h0 k hk
  exact ⟨a, b, c, d, e, f⟩

/-- No endpoint has a command waiting or applying, as a test. -/
def stillB (s : State) : Bool := allParts.all fun k => let e := s.ep k
  e.waiting.isEmpty && e.fetched == 0 && e.kept.isEmpty && e.applying.isNone && e.mboxApplying.isNone && e.mboxWait.isNone

theorem still_of {s : State} (h : stillB s = true) : s.Still := by
  simp only [stillB, Bool.and_eq_true, List.all_eq_true, List.isEmpty_iff, beq_iff_eq, Option.isNone_iff_eq_none] at h
  intro k hk
  obtain ⟨⟨⟨⟨⟨a, b⟩, c⟩, d⟩, e⟩, f⟩ := h k hk
  exact ⟨a, b, c, d, e, f⟩

/-- Headers of a message to TID 7 and of one to all terminals. -/
def mine : TcmHdr := { flowTag := 7, tid := 7, seq := 1 }
def tall : TcmHdr := { flowTag := 0xFFFE, tid := 0xFFFE, seq := 1 }

/-- The conditions under which a channel takes a message, as a test. -/
def hearsB (s : State) (c : Nat) (h : TcmHdr) (m : DownTcm) (n : BitVec 48) : Bool :=
  s.receiving c == some n && s.ctrlAccepted c h.flowTag && m.lenOk && h.tid == h.flowTag
  && (if h.tid = 0xFFFE then m.toAll else m.toTid) && State.namesChan c m && m.permitted (s.chan c).tc.st
  && (h.tid == 0xFFFE || (s.chan c).tc.dups.all fun d => d.type != m.type || d.seq != h.seq)

theorem hears_of {s : State} {c : Nat} {h : TcmHdr} {m : DownTcm} {n : BitVec 48} (x : hearsB s c h m n = true) : s.Hears c h m n := by
  simp only [hearsB, Bool.and_eq_true, List.all_eq_true, beq_iff_eq, Bool.or_eq_true, bne_iff_ne] at x
  obtain ⟨⟨⟨⟨⟨⟨⟨h0, h1⟩, h2⟩, h3⟩, h4⟩, h5⟩, h6⟩, h7⟩ := x
  exact ⟨h0, h1, h2, h3, h4, h5, h6, h7⟩

/-! ### WellFormed: an ill-formed term for each check -/

theorem test_illformed_sync : (Instr.syncMatch 0 781250 0).wellFormed = false := by decide
theorem test_illformed_candidate : (Instr.candidateCheck 0 781250 (frameOf goodHdr)).wellFormed = false := by decide
theorem test_illformed_header : (Instr.downstreamFrame 0 (frameOf goodHdr)).wellFormed = false := by decide
theorem test_illformed_descriptor :
    (Instr.downstreamFrame 0 (frameOf { goodHdr with odc := zeros 64 })).wellFormed = false := by decide
theorem test_illformed_offset :
    (Instr.downstreamFrame 0 { frameOf { goodHdr with odc := zeros 64, tribRsv := zeros 23 } with off20 := 320 }).wellFormed = false := by
  decide
theorem test_illformed_codeword :
    (Instr.downstreamFrame 0 { frameOf { goodHdr with odc := zeros 64, tribRsv := zeros 23 } with cws := [(45952, zeros 272)] }).wellFormed
      = false := by decide
theorem test_illformed_codeword_twice :
    (Instr.downstreamFrame 0 { frameOf { goodHdr with odc := zeros 64, tribRsv := zeros 23 } with cws := [(5, zeros 272), (5, zeros 272)] }).wellFormed
      = false := by decide
theorem test_illformed_codeword_length :
    (Instr.downstreamFrame 0 { frameOf { goodHdr with odc := zeros 64, tribRsv := zeros 23 } with cws := [(5, zeros 271)] }).wellFormed
      = false := by decide
theorem test_wellformed_frame :
    (Instr.downstreamFrame 0 (frameOf { goodHdr with odc := zeros 64, tribRsv := zeros 23 })).wellFormed = true := by decide
theorem test_illformed_map : (Instr.mapHandOff 0 (List.replicate 8193 0) 0).wellFormed = false := by
  show decide ((List.replicate 8193 (0 : BitVec 64)).length ≤ 8192) = false
  rw [List.length_replicate]; decide
theorem test_illformed_segment : (Instr.segment 0 (zeros 7)).wellFormed = false := by decide
theorem test_illformed_alloc_map : (Instr.allocMap 0 tall 1 (List.replicate 13 ⟨0, 0⟩)).wellFormed = false := by decide
theorem test_illformed_flow_map : (Instr.flowMap 0 tall 1 (List.replicate 10 ⟨0, 0, true, true, true⟩)).wellFormed = false := by decide
theorem test_illformed_key_req : (Instr.keyReq 0 tall ⟨0, 1, 0, 0, 0, zeros 36⟩).wellFormed = false := by decide
theorem test_illformed_revoke : (Instr.grantRevoke 0 tall 0 (List.replicate 17 0)).wellFormed = false := by decide
theorem test_illformed_prediction :
    (Instr.runAheadPrediction 0 ⟨0, List.replicate 65 0, 0, 0, false, false, false⟩).wellFormed = false := by decide
theorem test_illformed_host_frame : (Instr.hostFrameReceived 0 { hostFrame0 0 with off100 := 64 }).wellFormed = false := by decide
theorem test_illformed_capture : (Instr.captureEdge 0 true 64).wellFormed = false := by decide
theorem test_illformed_page_read : (Instr.pageReadDone 0 0 (some 8192)).wellFormed = false := by decide
theorem test_illformed_tributary :
    (Instr.tributaryFrameRx 0 { tribFrame0 with payload := List.replicate 16385 0 }).wellFormed = false := by
  show decide ((List.replicate 16385 (0 : Byte)).length ≤ 16384) = false
  rw [List.length_replicate]; decide
theorem test_illformed_odc : (Instr.odcPortFrame 0 (zeros 511)).wellFormed = false := by decide
theorem test_illformed_eye : (Instr.eyeScanDone 0 (List.replicate 16321 0)).wellFormed = false := by
  show decide ((List.replicate 16321 (0 : Nat)).length ≤ 16320) = false
  rw [List.length_replicate]; decide
theorem test_illformed_take : (Instr.egressFrameTake 0 ⟨false, 64⟩).wellFormed = false := by decide
theorem test_illformed_marker : (Instr.laneMarker 0 0 4294967296).wellFormed = false := by decide
theorem test_illformed_energy : (Instr.energyIntegration [1]).wellFormed = false := by decide
theorem test_illformed_sensors : (Instr.sensorSample []).wellFormed = false := by decide
theorem test_illformed_rails : (Instr.railSample []).wellFormed = false := by decide
theorem test_illformed_payload : (Instr.queueSet hdr (List.replicate 65537 0)).wellFormed = false := by
  show decide ((List.replicate 65537 (0 : Byte)).length ≤ 65536) = false
  rw [List.length_replicate]; decide
theorem test_illformed_posted :
    (Instr.mbxDoorbell 0 0 [{ cmd0 3 with payload := List.replicate 65537 0 }]).wellFormed = false := by
  show (decide ((List.replicate 65537 (0 : Byte)).length ≤ 65536) && true) = false
  rw [List.length_replicate]; decide
theorem test_illformed_mailbox : (Instr.mbxPushData 0 (zeros 257)).wellFormed = false := by decide
theorem test_illformed_sideband : (Instr.sbPushData (zeros 65)).wellFormed = false := by decide
theorem test_illformed_register : (Instr.registerWrite (.bar0 0) 65536 0).wellFormed = false := by decide

/-! ### Worked examples of the spec -/

/-- Chapter 2: SFC 0x0000_1234_5678 gives the seed 0x486E_F3DD, and its first keystream bit is 0. -/
theorem test_scrambler_seed : scramblerSeed 0x12345678 = 0x486EF3DD ∧ (scramblerStep 0x486EF3DD).1 = false := by decide

/-- Table 2.9, step 7: the seed of the frame with SFC 0x41_A0C7. -/
theorem test_scrambler_seed_of_the_locking_frame : scramblerSeed 0x41A0C7 = 0x5A1B0562 := by decide

/-- Chapter 1: channel 37 has its domains at 41 and 105, and its cluster 9 is domain 173. -/
theorem test_domains_of_channel_37 : dsDom 37 = 41 ∧ usDom 37 = 105 ∧ engDom 9 = 173 := by decide

/-- Table 5.4, step 1: after the commit a tick at 10 Gb/s adds 8 bytes to a bucket in debt. -/
theorem test_tick_at_10_gbps :
    (Shaper.tick { en := true, rate := 1250000000, burst := 16000, count := -8816, frac := 0 }).count = -8808 := by decide

/-- Table 5.4, step 3: the change of rate keeps the debt. -/
theorem test_rate_change_keeps_debt :
    Shaper.configure { en := true, rate := 1250000000, burst := 16000, count := -4816, frac := 0 } true false 16000 125000000
      = { en := true, rate := 125000000, burst := 16000, count := -4816, frac := 0 } := by decide

/-- Chapter 8: the IVs of the two segments of the burst of channel 21. -/
theorem test_segment_iv :
    segIv 0x24F40 true 0x01D52D = 0x000000024F4080EA96800000 ∧ segIv 0x24F40 true 0x01D591 = 0x000000024F4080EAC8800000 := by decide

/-- Chapter 9: the switch instant of a list with BASE 10 s and CYCLE 250 µs after a commit at 100.000001 s is 100.00025 s. -/
theorem test_switch_instant : switchInstant (100000001000 * nsU) (10000000000 * nsU) 250000 = 100000250000 * nsU := by decide

/-- Chapter 9, domain B: the arrival delay of channel 37's announce is 100,003.952 ns, cut at 1 fs. -/
theorem test_arrival_delay :
    ((rdy.updChan 37 fun x => { x with
        cfg := { x.cfg with feDs := 200 }
        tc := { x.tc with eqd := 400000, announceCur := some ⟨0x71A00, 1712345678, 499900000, 0, 12400000, 0x10000, true⟩ } }).arrivalDelay
      37).map (fun d => d / psT 1) = some 100003952 := by decide

/-- Chapter 17: the SUMMARY completion of 2,464 bytes takes 39 units. -/
theorem test_units_of_a_summary : recUnits 2432 = 39 := by decide

/-- The payload of chapter 18's example: 1 Gb/s and 16,000 bytes for queue 1,350. -/
def shaperPayload : List Byte := [0x46, 0x05, 0x01, 0x00, 0x80, 0x3E, 0x00, 0x00, 0x40, 0x59, 0x73, 0x07, 0x00, 0x00, 0x00, 0x00]

/-- Chapter 18: the command of the example sets the shaper, which starts full. -/
theorem test_queue_shaper_set :
    ((applyQueueShaperSet 0 shaperPayload rdy).state.queue 1350).shaper
      = { en := true, rate := 125000000, burst := 16000, count := 16000, frac := 0 } := by decide

/-- The step takes the first of two commands. -/
theorem test_step_takes_the_front : step { rdy with pending := [.resetNLow, .powerOn] }
    = exec .resetNLow { rdy with pending := [.powerOn] } := by rfl

/-- A message laid out by Table 3.6 is read back (R99, R102). -/
theorem test_message_round_trip : parseTcm 7 (tcmBytes mine (.wakeReq 5)) = .ok (mine, .wakeReq 5) := by rfl

/-! ### Premises are met -/

/-- Every clause of DeviceAndSummaryCommandsApply has a state and operands that meet its premises. -/
theorem witness_DeviceAndSummaryCommandsApply :
    (∃ (hd : CmdHdr) (s : State),
      let c : RawCmd := ⟨0x0001, hd, []⟩
      let k := hd.ep.val
      (s.updEp k fun e => { e with epoch := hd.epoch, expSeq := none }).Takes c (2384 + 16 * (s.alarmsOf k).length) ∧ hd.epoch ≠ (s.ep k).epoch)
    ∧ (∃ (hd : CmdHdr) (s : State),
      let c : RawCmd := ⟨0x0002, hd, []⟩
      s.Takes c (2384 + 16 * (s.alarmsOf hd.ep).length))
    ∧ (∃ (hd : CmdHdr) (s : State),
      let c : RawCmd := ⟨0x0003, hd, []⟩
      s.Takes c 40)
    ∧ (∃ (hd : CmdHdr) (p : List Byte) (s : State),
      let c : RawCmd := ⟨0x0004, hd, p⟩
      s.Takes c 0 ∧ p.length = 1 ∧ hd.ep = 0 ∧ u8 p 0 ≤ 1)
    ∧ (∃ (hd : CmdHdr) (p : List Byte) (s : State),
      let c : RawCmd := ⟨0x0005, hd, p⟩
      s.Takes c 0 ∧ p.length = 2 ∧ hd.ep = 0 ∧ u16 p 0 ≤ 2047)
    ∧ (∃ (hd : CmdHdr) (p : List Byte) (s : State),
      let c : RawCmd := ⟨0x0006, hd, p⟩
      s.Takes c 0 ∧ p.length = 1 ∧ hd.ep = 0 ∧ u8 p 0 ≤ 1) :=
  ⟨⟨{ hdr with epoch := 1 }, rdy, takes_of (by decide), by decide⟩,
   ⟨hdr, rdy, takes_of (by decide)⟩,
   ⟨hdr, rdy, takes_of (by decide)⟩,
   ⟨hdr, pay 1 [], rdy, takes_of (by decide), by and_intros <;> decide⟩,
   ⟨hdr, pay 2 [], rdy, takes_of (by decide), by and_intros <;> decide⟩,
   ⟨hdr, pay 1 [], rdy, takes_of (by decide), by and_intros <;> decide⟩⟩

/-- Every clause of PartitionCommandsApply has a state and operands that meet its premises. -/
theorem witness_PartitionCommandsApply :
    (∃ (hd : CmdHdr) (p : List Byte) (s : State),
      let c : RawCmd := ⟨0x0101, hd, p⟩
      let kind := u8 p 0
      let i := u8 p 1
      let j := u8 p 2
      s.Takes c 0 ∧ p.length = 4 ∧ hd.ep = 0 ∧ kind ≤ 4 ∧ i < [64, 32, 32, 8, 4].getD kind 256 ∧ j ≤ 7 ∧ ZeroAt p [(3, 1)] ∧ s.assignBarred kind i j = false)
    ∧ (∃ (hd : CmdHdr) (p : List Byte) (s : State),
      let c : RawCmd := ⟨0x0102, hd, p⟩
      let j := u8 p 0
      let q := (List.range 7).map (fun i => u32 p (4 + 4 * i)) ++ [u8 p 32]
      s.Takes c 0 ∧ p.length = 36 ∧ hd.ep = 0 ∧ j ≤ 7 ∧ ZeroAt p [(1, 3), (33, 3)] ∧ s.quotaHeld j q = false ∧ s.quotaOver j q = false)
    ∧ (∃ (hd : CmdHdr) (p : List Byte) (s : State),
      let c : RawCmd := ⟨0x0103, hd, p⟩
      s.Takes c 0 ∧ p.length = 1 ∧ u8 p 0 ≤ 7 ∧ (hd.ep = 0 ∨ u8 p 0 = hd.ep))
    ∧ (∃ (hd : CmdHdr) (p : List Byte) (s : State),
      let c : RawCmd := ⟨0x0104, hd, p⟩
      let j := u8 p 0
      s.Takes c 60 ∧ p.length = 1 ∧ j ≤ 7 ∧ (hd.ep = 0 ∨ j = hd.ep)) :=
  ⟨⟨hdr, pay 4 [], rdy, takes_of (by decide), by and_intros <;> decide⟩,
   ⟨hdr, pay 36 [], rdy, takes_of (by decide), by and_intros <;> decide⟩,
   ⟨hdr, pay 1 [], rdy, takes_of (by decide), by and_intros <;> decide⟩,
   ⟨hdr, pay 1 [], rdy, takes_of (by decide), by and_intros <;> decide⟩⟩

/-- Every clause of ChannelsOpenCloseAndOperate has a state and operands that meet its premises. -/
theorem witness_ChannelsOpenCloseAndOperate :
    (∃ (hd : CmdHdr) (p : List Byte) (s : State),
      let c : RawCmd := ⟨0x0201, hd, p⟩
      let i := u8 p 0
      s.Takes c 0 ∧ p.length = 36 ∧ i < 64 ∧ (s.chan i).owner = hd.ep ∧ u16 p 2 ≤ 25000 ∧ u16 p 4 ≤ 25000 ∧ u16 p 8 ≤ 1000 ∧ u8 p 13 ≤ 3 ∧ 1 ≤ u16 p 14 ∧ u16 p 14 ≤ 1024 ∧ 1000 ≤ u32 p 16 ∧ u32 p 16 ≤ 60000 ∧ 1 ≤ u32 p 20 ∧ u32 p 20 ≤ 1000 ∧ 100 ≤ u32 p 24 ∧ u32 p 24 ≤ 10000 ∧ 10 ≤ u32 p 28 ∧ u32 p 28 ≤ 10000 ∧ ZeroAt p [(1, 1), (10, 3)] ∧ (s.chan i).tc.opened = false ∧ s.inTest i = false ∧ s.chanHeld i = false ∧ s.reservationFits i = true)
    ∧ (∃ (hd : CmdHdr) (p : List Byte) (s : State),
      let c : RawCmd := ⟨0x0202, hd, p⟩
      let i := u8 p 0
      s.Takes c 0 ∧ p.length = 1 ∧ i < 64 ∧ (s.chan i).owner = hd.ep ∧ (s.chan i).tc.opened = false)
    ∧ (∃ (hd : CmdHdr) (p : List Byte) (s : State),
      let c : RawCmd := ⟨0x0202, hd, p⟩
      let i := u8 p 0
      s.Takes c 0 ∧ p.length = 1 ∧ i < 64 ∧ (s.chan i).owner = hd.ep ∧ (s.chan i).tc.opened = true ∧ s.burstsOver i = true)
    ∧ (∃ (hd : CmdHdr) (p : List Byte) (s : State),
      let c : RawCmd := ⟨0x0205, hd, p⟩
      let i := u8 p 0
      s.Takes c 752 ∧ s.openHeld i = false ∧ p.length = 2 ∧ i < 64 ∧ (s.chan i).owner = hd.ep ∧ u8 p 1 ≤ 1)
    ∧ (∃ (hd : CmdHdr) (p : List Byte) (s : State),
      let c : RawCmd := ⟨0x0206, hd, p⟩
      let i := u8 p 0
      s.Takes c 0 ∧ p.length = 1 ∧ i < 64 ∧ (s.chan i).owner = hd.ep ∧ (s.chan i).heath.guardLatch = true ∧ (s.chan i).heath.guardArmed = true)
    ∧ (∃ (hd : CmdHdr) (p : List Byte) (s : State),
      let c : RawCmd := ⟨0x0207, hd, p⟩
      let i := u8 p 0
      s.Takes c 0 ∧ s.openHeld i = false ∧ p.length = 1 ∧ i < 64 ∧ (s.chan i).owner = hd.ep ∧ (s.chan i).tc.opened = true ∧ (s.chan i).tc.st = .doze)
    ∧ (∃ (hd : CmdHdr) (p : List Byte) (s : State),
      let c : RawCmd := ⟨0x020A, hd, p⟩
      let i := u8 p 0
      s.Takes c 0 ∧ p.length = 2 ∧ i < 64 ∧ (s.chan i).owner = hd.ep ∧ u8 p 1 ≤ 1)
    ∧ (∃ (hd : CmdHdr) (p : List Byte) (s : State),
      let c : RawCmd := ⟨0x020A, hd, p⟩
      let i := u8 p 0
      s.Takes c 0 ∧ p.length = 2 ∧ i < 64 ∧ (s.chan i).owner = hd.ep ∧ u8 p 1 = 2 ∧ i ∈ s.rst.heldChan) :=
  ⟨⟨hdr, pay 36 ([(14, 100), (16, 136), (17, 19), (20, 10), (24, 232), (25, 3)] ++ [(28, 232), (29, 3), (2, 44), (3, 1)]), rdy, takes_of (by decide), by and_intros <;> decide⟩,
   ⟨hdr, pay 1 [], rdy, takes_of (by decide), by and_intros <;> decide⟩,
   ⟨hdr, pay 1 [], rdy.updTc 0 fun t => { t with opened := true, st := .watch }, takes_of (by decide), by and_intros <;> decide⟩,
   ⟨hdr, pay 2 [], rdy, takes_of (by decide), by and_intros <;> decide⟩,
   ⟨hdr, pay 1 [], rdy.updHeath 0 fun h => { h with guardLatch := true, guardArmed := true }, takes_of (by decide), by and_intros <;> decide⟩,
   ⟨hdr, pay 1 [], rdy.updTc 0 fun t => { t with opened := true, st := .doze }, takes_of (by decide), by and_intros <;> decide⟩,
   ⟨hdr, pay 2 [], rdy, takes_of (by decide), by and_intros <;> decide⟩,
   ⟨hdr, pay 2 [(1, 2)], rdy.updRst fun r => { r with heldChan := [0] }, takes_of (by decide), by and_intros <;> decide⟩⟩

/-- Every clause of ChannelSettersStoreTheirPayload has a state and operands that meet its premises. -/
theorem witness_ChannelSettersStoreTheirPayload :
    (∃ (hd : CmdHdr) (p : List Byte) (s : State),
      let c : RawCmd := ⟨0x0203, hd, p⟩
      let i := u8 p 0
      s.Takes c 0 ∧ s.openHeld i = false ∧ p.length = 12 ∧ i < 64 ∧ (s.chan i).owner = hd.ep ∧ u16 p 2 ≤ 25000 ∧ u16 p 4 ≤ 25000 ∧ u16 p 8 ≤ 1000 ∧ ZeroAt p [(1, 1), (10, 2)] ∧ (s.chan i).tc.opened = true)
    ∧ (∃ (hd : CmdHdr) (p : List Byte) (s : State),
      let c : RawCmd := ⟨0x0204, hd, p⟩
      let i := u8 p 0
      s.Takes c 0 ∧ s.openHeld i = false ∧ p.length = 24 ∧ i < 64 ∧ (s.chan i).owner = hd.ep ∧ u8 p 1 ≤ 3 ∧ 1 ≤ u16 p 2 ∧ u16 p 2 ≤ 1024 ∧ 1000 ≤ u32 p 4 ∧ u32 p 4 ≤ 60000 ∧ 1 ≤ u32 p 8 ∧ u32 p 8 ≤ 1000 ∧ 100 ≤ u32 p 12 ∧ u32 p 12 ≤ 10000 ∧ 10 ≤ u32 p 16 ∧ u32 p 16 ≤ 10000 ∧ (s.chan i).tc.opened = true)
    ∧ (∃ (hd : CmdHdr) (p : List Byte) (s : State),
      let c : RawCmd := ⟨0x0208, hd, p⟩
      let i := u8 p 0
      s.Takes c 0 ∧ s.openHeld i = false ∧ p.length = 2 ∧ i < 64 ∧ (s.chan i).owner = hd.ep ∧ u8 p 1 ≤ 1)
    ∧ (∃ (hd : CmdHdr) (p : List Byte) (s : State),
      let c : RawCmd := ⟨0x0209, hd, p⟩
      let i := u8 p 0
      s.Takes c 0 ∧ s.openHeld i = false ∧ p.length = 10 ∧ i < 64 ∧ (s.chan i).owner = hd.ep ∧ u8 p 1 ≤ 3 ∧ 2 ≤ u16 p 2 ∧ u16 p 2 ≤ 256 ∧ 1 ≤ u32 p 4 ∧ u32 p 4 ≤ 10000 ∧ 60 ≤ u16 p 8 ∧ u16 p 8 ≤ 1000)
    ∧ (∃ (hd : CmdHdr) (p : List Byte) (s : State),
      let c : RawCmd := ⟨0x020B, hd, p⟩
      let i := u8 p 0
      let en := (List.range 256).filter fun f => bitAt p (4 + f / 8) (f % 8)
      s.Takes c 0 ∧ p.length = 36 ∧ i < 64 ∧ (s.chan i).owner = hd.ep ∧ ZeroAt p [(1, 3)] ∧ (∀ f < 256, s.flowHeldAt i f = true → f ∈ en))
    ∧ (∃ (hd : CmdHdr) (p : List Byte) (s : State),
      let c : RawCmd := ⟨0x020C, hd, p⟩
      let i := u8 p 0
      s.Takes c 0 ∧ p.length = 4 ∧ i < 64 ∧ (s.chan i).owner = hd.ep ∧ u8 p 1 ≤ 1 ∧ u8 p 2 ≤ 127) :=
  ⟨⟨hdr, pay 12 [], rdy.updTc 0 fun t => { t with opened := true, st := .watch }, takes_of (by decide), by and_intros <;> decide⟩,
   ⟨hdr, pay 24 ([(2, 100), (4, 136), (5, 19), (8, 10), (12, 232), (13, 3)] ++ [(16, 232), (17, 3)]), rdy.updTc 0 fun t => { t with opened := true, st := .watch }, takes_of (by decide), by and_intros <;> decide⟩,
   ⟨hdr, pay 2 [], rdy, takes_of (by decide), by and_intros <;> decide⟩,
   ⟨hdr, pay 10 [(1, 3), (2, 16), (4, 100), (8, 80)], rdy, takes_of (by decide), by and_intros <;> decide⟩,
   ⟨hdr, pay 36 [], rdy, takes_of (by decide), by and_intros <;> decide⟩,
   ⟨hdr, pay 4 [], rdy, takes_of (by decide), by and_intros <;> decide⟩⟩

/-- Every clause of HuntAndLockFollowFrames has a state and operands that meet its premises. -/
theorem witness_HuntAndLockFollowFrames :
    (∃ (c : Chan) (pos : Nat) (s : State),
      s.hunting c = true ∧ (∀ k ∈ (s.chan c).rx.candidates, k.pos ≠ pos))
    ∧ (∃ (c : Chan) (pos : Nat) (f : DsFrame) (s : State) (k : Candidate),
      s.hunting c = true ∧ ((s.chan c).rx.candidates.find? fun x => x.pos == pos) = some k ∧ f.hdr.good = false)
    ∧ (∃ (c : Chan) (pos : Nat) (f : DsFrame) (s : State) (k : Candidate),
      s.hunting c = true ∧ ((s.chan c).rx.candidates.find? fun x => x.pos == pos) = some k ∧ f.hdr.good = true ∧ k.hits = 0)
    ∧ (∃ (c : Chan) (pos : Nat) (f : DsFrame) (s : State) (k : Candidate),
      s.hunting c = true ∧ ((s.chan c).rx.candidates.find? fun x => x.pos == pos) = some k ∧ f.hdr.good = true ∧ k.hits ≠ 0)
    ∧ (∃ (c : Chan) (s : State),
      (s.chan c).tc.opened = true ∧ (s.chan c).tc.st ≠ .doze ∧ (s.chan c).tc.sleepAt = none ∧ s.alive (dsDom c) = true ∧ (s.chan c).rx.lock = true)
    ∧ (∃ (c : Chan) (f : DsFrame) (s : State),
      (s.chan c).tc.opened = true ∧ (s.chan c).tc.st ≠ .doze ∧ (s.chan c).tc.sleepAt = none ∧ s.alive (dsDom c) = true ∧ (s.chan c).rx.lock = true ∧ f.hdr.good = false ∧ 3 ≤ (s.chan c).rx.badFrames) :=
  ⟨⟨0, 0, chanIn .listen fun x => { x with rx := { x.rx with lock := false } }, by decide, by decide⟩,
   ⟨0, 0, frameOf { goodHdr with sync := 0 }, chanIn .listen fun x => { x with rx := { x.rx with lock := false, candidates := [{ pos := 0, hits := 0, sfc := 8 }] } }, { pos := 0, hits := 0, sfc := 8 }, by and_intros <;> decide⟩,
   ⟨0, 0, frameOf goodHdr, chanIn .listen fun x => { x with rx := { x.rx with lock := false, candidates := [{ pos := 0, hits := 0, sfc := 8 }] } }, { pos := 0, hits := 0, sfc := 8 }, by and_intros <;> decide⟩,
   ⟨0, 0, frameOf goodHdr, chanIn .listen fun x => { x with rx := { x.rx with lock := false, candidates := [{ pos := 0, hits := 1, sfc := 8 }] } }, { pos := 0, hits := 1, sfc := 8 }, by and_intros <;> decide⟩,
   ⟨0, chanIn .watch, by and_intros <;> decide⟩,
   ⟨0, frameOf { goodHdr with sync := 0 }, chanIn .listen fun x => { x with rx := { x.rx with badFrames := 3 } }, by and_intros <;> decide⟩⟩

/-- Every clause of MapsAndSegmentsAreTaken has a state and operands that meet its premises. -/
theorem witness_MapsAndSegmentsAreTaken :
    (∃ (c : Chan) (entries : List (BitVec 64)) (crc : BitVec 32) (s : State) (f : CurFrame),
      let es := (List.range f.map.len).map fun i => entries.getD i 0
      (s.chan c).rx.cur = some f ∧ f.phase = .awaited ∧ (∀ e ∈ f.cwErrs, 8 < e.2 → e.1 < f.map.start ∨ f.map.start + f.map.words ≤ e.1) ∧ crc = crc32 (es.flatMap fun e => beBytes 8 e.toNat))
    ∧ (∃ (c : Chan) (bs : List Byte) (s : State) (f : CurFrame),
      let h := segHdr bs
      (s.chan c).rx.cur = some f ∧ f.payload = true ∧ (s.chan c).tc.opened = true ∧ s.alive (dsDom c) = true ∧ f.pos < f.length ∧ f.searching = false ∧ h.good = true ∧ f.pos + h.span ≤ f.edgeAfter f.pos ∧ f.failedIn f.pos (min (f.pos + h.span) f.length) = none)
    ∧ (∃ (c : Chan) (bs : List Byte) (s : State) (f : CurFrame),
      (s.chan c).rx.cur = some f ∧ f.payload = true ∧ (s.chan c).tc.opened = true ∧ s.alive (dsDom c) = true ∧ f.pos < f.length ∧ f.searching = false ∧ (segHdr bs).good = false) :=
  ⟨⟨0, [], 0, chanIn .watch, cur0, by decide, by and_intros <;> decide⟩,
   ⟨0, beBytes 6 8192 ++ beBytes 2 (crc16 (beBytes 6 8192)).toNat, chanIn .watch, cur0, by decide, by and_intros <;> decide⟩,
   ⟨0, [1], chanIn .watch, cur0, by and_intros <;> decide⟩⟩

/-- Every clause of ProfilesIdentityAndAssignmentsAreTaken has a state and operands that meet its premises. -/
theorem witness_ProfilesIdentityAndAssignmentsAreTaken :
    (∃ (c : Chan) (h : TcmHdr) (b : ProfileBody) (s : State) (n : BitVec 48),
      s.Hears c h (.profile b) n ∧ (∀ e ∈ (s.chan c).tc.epochs, e.num ≠ b.epoch))
    ∧ (∃ (c : Chan) (h : TcmHdr) (b : ProfileBody) (s : State) (n : BitVec 48) (e : Epoch),
      s.Hears c h (.profile b) n ∧ ((s.chan c).tc.epochs.find? fun e => e.num == b.epoch) = some e ∧ (∀ p ∈ e.profs, p.1 ≠ b.idx.toNat))
    ∧ (∃ (c : Chan) (h : TcmHdr) (b : ProfileBody) (s : State) (n : BitVec 48) (e : Epoch) (p : Profile),
      s.Hears c h (.profile b) n ∧ ((s.chan c).tc.epochs.find? fun e => e.num == b.epoch) = some e ∧ (e.profs.find? fun p => p.1 == b.idx.toNat) = some (b.idx.toNat, p))
    ∧ (∃ (c : Chan) (h : TcmHdr) (b : AssignIdBody) (s : State) (n : BitVec 48),
      s.Hears c h (.assignId b) n ∧ (s.chan c).tc.st = .announced ∧ b.newTid ≠ 0 ∧ b.newTid.toNat ≤ 0xFFFD ∧ b.defAlloc ≠ 0x3FFF)
    ∧ (∃ (c : Chan) (h : TcmHdr) (b : AnnounceBody) (s : State) (n : BitVec 48),
      s.Hears c h (.timeAnnounce b) n)
    ∧ (∃ (c : Chan) (h : TcmHdr) (e : BitVec 24) (f : BitVec 48) (s : State) (n : BitVec 48),
      s.Hears c h (.assignEqd e f) n ∧ 2 ≤ sfcDiff f n ∧ sfcDiff f n ≤ 255)
    ∧ (∃ (c : Chan) (h : TcmHdr) (e : BitVec 24) (f : BitVec 48) (s : State) (n : BitVec 48),
      s.Hears c h (.assignEqd e f) n ∧ sfcDiff f n < 2)
    ∧ (∃ (c : Chan) (h : TcmHdr) (e : BitVec 24) (f : BitVec 48) (s : State) (n : BitVec 48),
      s.Hears c h (.assignEqd e f) n ∧ 255 < sfcDiff f n)
    ∧ (∃ (c : Chan) (h : TcmHdr) (op : Byte) (es : List AllocMapEntry) (s : State) (n : BitVec 48) (t : Tab (Option (BitVec 14))),
      s.Hears c h (.allocMap op es) n ∧ (op = 1 ∨ op = 2) ∧ 1 ≤ es.length ∧ es.length ≤ 12 ∧ es.foldlM (State.allocEntry op.toNat (s.chan c).tc.defAlloc) (s.allocsTold c) = some t)
    ∧ (∃ (c : Chan) (h : TcmHdr) (s : State) (n : BitVec 48),
      s.Hears c h (.allocMap 3 []) n)
    ∧ (∃ (c : Chan) (h : TcmHdr) (op : Byte) (es : List AllocMapEntry) (s : State) (n : BitVec 48),
      s.Hears c h (.allocMap op es) n ∧ (op = 1 ∨ op = 2) ∧ es.foldlM (State.allocEntry op.toNat (s.chan c).tc.defAlloc) (s.allocsTold c) = none)
    ∧ (∃ (c : Chan) (h : TcmHdr) (op : Byte) (es : List FlowMapEntry) (s : State) (n : BitVec 48) (t : Tab (Option FlowHeld)),
      s.Hears c h (.flowMap op es) n ∧ (op = 1 ∨ op = 2) ∧ 1 ≤ es.length ∧ es.length ≤ 9 ∧ (op = 1 → ∀ e ∈ es, e.fslot.toNat ∈ (s.chan c).heath.flowEn) ∧ es.foldlM (State.flowEntry op.toNat (s.chan c).tc.tid) (s.flowsTold c) = some t)
    ∧ (∃ (c : Chan) (h : TcmHdr) (s : State) (n : BitVec 48),
      s.Hears c h (.flowMap 3 []) n)
    ∧ (∃ (c : Chan) (h : TcmHdr) (op : Byte) (es : List FlowMapEntry) (s : State) (n : BitVec 48),
      s.Hears c h (.flowMap op es) n ∧ (op = 1 ∨ op = 2) ∧ es.foldlM (State.flowEntry op.toNat (s.chan c).tc.tid) (s.flowsTold c) = none)
    ∧ (∃ (c : Chan) (h : TcmHdr) (es : List FlowMapEntry) (s : State) (n : BitVec 48) (t : Tab (Option FlowHeld)),
      s.Hears c h (.flowMap 1 es) n ∧ 1 ≤ es.length ∧ es.length ≤ 9 ∧ (∃ e ∈ es, e.fslot.toNat ∉ (s.chan c).heath.flowEn) ∧ es.foldlM (State.flowEntry 1 (s.chan c).tc.tid) (s.flowsTold c) = some t) :=
  ⟨⟨0, tall, { epoch := 3, idx := 0, guard := 16, preLen := 8, prePat := 0, delim := 0, fec := true }, chanIn .watch, 8, hears_of (by decide), by decide⟩,
   ⟨0, tall, { epoch := 3, idx := 0, guard := 17, preLen := 8, prePat := 0, delim := 0, fec := true }, chanIn .watch fun x => { x with tc := { x.tc with epochs := [{ num := 3, profs := [(1, prof0)] }] } }, 8, { num := 3, profs := [(1, prof0)] }, hears_of (by decide), by decide, by decide⟩,
   ⟨0, tall, { epoch := 3, idx := 0, guard := 17, preLen := 8, prePat := 0, delim := 0, fec := true }, chanIn .watch fun x => { x with tc := { x.tc with epochs := [{ num := 3, profs := [(0, prof0)] }] } }, 8, { num := 3, profs := [(0, prof0)] }, prof0, hears_of (by decide), by decide, by decide⟩,
   ⟨0, tall, { serial := Config.serial, chan := 0, newTid := 7, defAlloc := 1 }, chanIn .announced, 8, ⟨by decide, by decide, by decide, by decide, by decide, by simp [State.namesChan], by decide, .inl rfl⟩, by and_intros <;> decide⟩,
   ⟨0, tall, { tSfc := 0, tSec := 0, tNs := 0, tFrac := 0, teq := 1, asym := 0, valid := true }, chanIn .watch, 8, hears_of (by decide)⟩,
   ⟨0, mine, 0, 16, chanIn .watch, 8, hears_of (by decide), by decide, by decide⟩,
   ⟨0, mine, 0, 9, chanIn .watch, 8, hears_of (by decide), by decide⟩,
   ⟨0, mine, 0, 1000, chanIn .watch, 8, hears_of (by decide), by decide⟩,
   ⟨0, mine, 1, [{ id := 5, slot := 1 }], chanIn .watch, 8, [(1, some 5)], hears_of (by decide), by and_intros <;> decide⟩,
   ⟨0, mine, chanIn .watch, 8, hears_of (by decide)⟩,
   ⟨0, mine, 2, [{ id := 5, slot := 1 }], chanIn .watch, 8, hears_of (by decide), by decide, by decide⟩,
   ⟨0, mine, 1, [{ tag := 0x105, fslot := 3, up := true, down := false, unicast := false }], chanIn .watch fun x => { x with heath := { x.heath with flowEn := [3] } }, 8, [(3, some { tag := 0x105, up := true, down := false, unicast := false })], hears_of (by decide), by and_intros <;> decide⟩,
   ⟨0, mine, chanIn .watch fun x => { x with heath := { x.heath with flowEn := [3] } }, 8, hears_of (by decide)⟩,
   ⟨0, mine, 2, [{ tag := 0x105, fslot := 3, up := true, down := false, unicast := false }], chanIn .watch fun x => { x with heath := { x.heath with flowEn := [3] } }, 8, hears_of (by decide), by decide, by decide⟩,
   ⟨0, mine, [{ tag := 0x105, fslot := 3, up := true, down := false, unicast := false }], chanIn .watch, 8, [(3, some { tag := 0x105, up := true, down := false, unicast := false })], hears_of (by decide), by and_intros <;> decide⟩⟩

/-- Every clause of ServiceAndDeactivationMessagesAreTaken has a state and operands that meet its premises. -/
theorem witness_ServiceAndDeactivationMessagesAreTaken :
    (∃ (c : Chan) (h : TcmHdr) (k : BitVec 16) (f : BitVec 48) (s : State) (n : BitVec 48),
      s.Hears c h (.sleepGrant k f) n ∧ (s.chan c).tc.st = .watch ∧ (s.chan c).cfg.dozeEn = true ∧ 2 ≤ k.toNat ∧ k.toNat ≤ 256 ∧ f.toNat % 8 = 0)
    ∧ (∃ (c : Chan) (h : TcmHdr) (r : Byte) (s : State) (n : BitVec 48),
      s.Hears c h (.wakeReq r) n)
    ∧ (∃ (c : Chan) (h : TcmHdr) (f : BitVec 48) (ids : List (BitVec 16)) (s : State) (n : BitVec 48),
      s.Hears c h (.grantRevoke f ids) n)
    ∧ (∃ (c : Chan) (h : TcmHdr) (ty : Byte) (sq : Byte) (res : Byte) (s : State) (n : BitVec 48),
      s.Hears c h (.ack ty sq res) n)
    ∧ (∃ (c : Chan) (h : TcmHdr) (r : Byte) (s : State) (n : BitVec 48),
      s.Hears c h (.deactivate r) n)
    ∧ (∃ (c : Chan) (h : TcmHdr) (sn : BitVec 64) (ch : Byte) (s : State) (n : BitVec 48),
      s.Hears c h (.silence sn ch) n)
    ∧ (∃ (c : Chan) (h : TcmHdr) (sn : BitVec 64) (ch : Byte) (s : State) (n : BitVec 48),
      s.Hears c h (.unsilence sn ch) n) :=
  ⟨⟨0, mine, 16, 16, chanIn .watch fun x => { x with cfg := { x.cfg with dozeEn := true } }, 8, hears_of (by decide), by and_intros <;> decide⟩,
   ⟨0, mine, 0, chanIn .watch, 8, hears_of (by decide)⟩,
   ⟨0, mine, 9, [5], chanIn .watch, 8, hears_of (by decide)⟩,
   ⟨0, mine, 0, 0, 0, chanIn .watch, 8, hears_of (by decide)⟩,
   ⟨0, tall, 0, chanIn .watch, 8, hears_of (by decide)⟩,
   ⟨0, tall, Config.serial, 0, chanIn .watch, 8, ⟨by decide, by decide, by decide, by decide, by decide, by simp [State.namesChan], by decide, .inl rfl⟩⟩,
   ⟨0, tall, Config.serial, 0, chanIn .silenced, 8, ⟨by decide, by decide, by decide, by decide, by decide, by simp [State.namesChan], by decide, .inl rfl⟩⟩⟩

/-- Every clause of TerminalTimersGuardAndDozeAct has a state and operands that meet its premises. -/
theorem witness_TerminalTimersGuardAndDozeAct :
    (∃ (c : Chan) (s : State),
      s.inState c .listen = true)
    ∧ (∃ (c : Chan) (s : State),
      s.inState c .announced = true)
    ∧ (∃ (c : Chan) (s : State),
      s.inState c .ranging = true)
    ∧ (∃ (c : Chan) (s : State),
      s.inState c .holdover = true)
    ∧ (∃ (c : Chan) (s : State) (n : BitVec 48),
      s.curSfc c = some n)
    ∧ (∃ (c : Chan) (x : Nat) (s : State),
      (s.chan c).tc.opened = true ∧ s.alive (usDom c) = true ∧ (s.chan c).heath.guardLatch = false ∧ (∀ w ∈ (s.chan c).us.windows, x < w.from_ ∨ w.to_ < x))
    ∧ (∃ (c : Chan) (s : State),
      s.operating c = true ∧ s.asleep c = true)
    ∧ (∃ (c : Chan) (s : State),
      s.inState c .watch = true ∧ (s.chan c).cfg.dozeAuto = true ∧ (∀ l < 128, (s.queue (128 * c + l)).frames = []) ∧ (∀ x ∈ s.trib.streams, x.2.en = true → x.2.chan ≠ c)) :=
  ⟨⟨0, chanIn .listen, by decide⟩,
   ⟨0, chanIn .announced, by decide⟩,
   ⟨0, chanIn .ranging, by decide⟩,
   ⟨0, chanIn .holdover, by decide⟩,
   ⟨0, chanIn .watch fun x => { x with rx := { x.rx with cur := some { cur0 with sfc := 16 } }, tc := { x.tc with await := [{ msg := .wakeReq 0, seq := 0, ready := none, sent := 1, lastFrame := 0 }] } }, 16, by decide⟩,
   ⟨0, 0, chanIn .watch, by and_intros <;> decide⟩,
   ⟨0, chanIn .doze fun x => { x with tc := { x.tc with doze := some { k := 2, start := 0, awake := false, nextSfc := 0, nextTds := 0, early := false, recSfc := 0, recTds := 0, recTag := none } } }, by decide, by decide⟩,
   ⟨0, chanIn .watch fun x => { x with cfg := { x.cfg with dozeAuto := true } }, by and_intros <;> decide⟩⟩

/-- Every clause of PredictionsAndPlansAreMade has a state and operands that meet its premises. -/
theorem witness_PredictionsAndPlansAreMade :
    (∃ (c : Chan) (p : Prediction) (s : State) (f : CurFrame),
      (s.chan c).rx.cur = some f ∧ s.inState c .watch = true ∧ (s.chan c).cfg.runAhead = true ∧ s.enginesThere c = true ∧ 0 < sfcDiff p.frame f.sfc)
    ∧ (∃ (c : Chan) (w : Fin 8) (s : State) (n : BitVec 48) (rest : List (BitVec 48 × Nat)),
      let t := (if w.val = 0 then s.applyService c n else s).updUs c fun u => { u with running := some (n, w.val) }
      (s.chan c).us.plans = (n, w.val) :: rest ∧ (s.chan c).us.running = none ∧ s.enginesThere c = true ∧ (∀ b ∈ (t.chan c).us.bursts, b.frame = n → windowOf b.start ≠ w))
    ∧ (∃ (c : Chan) (w : Fin 8) (s : State) (n : BitVec 48) (rest : List (BitVec 48 × Nat)) (b : Burst),
      let t := (if w.val = 0 then s.applyService c n else s).updUs c fun u => { u with running := some (n, w.val) }
      (s.chan c).us.plans = (n, w.val) :: rest ∧ (s.chan c).us.running = none ∧ s.enginesThere c = true ∧ (t.chan c).us.bursts = [b] ∧ b.frame = n ∧ b.kind = .data ∧ b.engines = true ∧ b.phase = .scheduled ∧ windowOf b.start = w)
    ∧ (∃ (c : Chan) (w : Fin 8) (s : State) (n : BitVec 48) (rest : List (BitVec 48 × Nat)),
      (s.chan c).us.plans = (n, w.val) :: rest ∧ (s.chan c).us.running = none ∧ s.enginesThere c = true)
    ∧ (∃ (c : Chan) (w : Fin 8) (s : State) (n : BitVec 48),
      (s.chan c).us.running = some (n, w.val)) :=
  ⟨⟨0, { frame := 12, allocs := [5], firstWord := 0, wake := true, prefetch := false, reserve := true, drain := 100 }, chanIn .watch, cur0, by and_intros <;> decide⟩,
   ⟨0, 0, chanIn .watch fun x => { x with us := { x.us with plans := [(9, 0)] } }, 9, [], by decide, by and_intros <;> decide⟩,
   ⟨0, 0, chanIn .watch fun x => { x with us := { x.us with plans := [(9, 0)], bursts := [burst0 .data .scheduled] } }, 9, [], burst0 .data .scheduled, by decide, by and_intros <;> decide⟩,
   ⟨0, 0, chanIn .watch fun x => { x with us := { x.us with plans := [(9, 0)], bursts := [burst0 .data .scheduled] } }, 9, [], by and_intros <;> decide⟩,
   ⟨0, 0, chanIn .watch fun x => { x with us := { x.us with plans := [(9, 0)], running := some (9, 0), bursts := [burst0 .data .scheduled] } }, 9, by decide⟩⟩

/-- Every clause of DeadlinesCommitPlans has a state and operands that meet its premises. -/
theorem witness_DeadlinesCommitPlans :
    (∃ (c : Chan) (id : Nat) (s : State) (b : Burst) (p : Plan),
      ((s.chan c).us.bursts.find? fun b => b.id == id && b.phase == .scheduled) = some b ∧ s.earlierEnd c b.id ≤ b.at_ b.start ∧ b.kind = .data ∧ b.plan = some p ∧ b.engines = true ∧ b.planReady = true ∧ s.enginesThere c = true)
    ∧ (∃ (c : Chan) (id : Nat) (s : State) (b : Burst),
      ((s.chan c).us.bursts.find? fun b => b.id == id && b.phase == .scheduled) = some b ∧ s.earlierEnd c b.id ≤ b.at_ b.start ∧ b.kind ≠ .data)
    ∧ (∃ (c : Chan) (id : Nat) (s : State) (b : Burst),
      ((s.chan c).us.bursts.find? fun b => b.id == id && b.phase == .scheduled) = some b ∧ s.earlierEnd c b.id ≤ b.at_ b.start ∧ b.kind = .data ∧ (b.plan = none ∨ b.engines = false ∨ b.planReady = false ∨ s.enginesThere c = false))
    ∧ (∃ (c : Chan) (id : Nat) (s : State) (b : Burst),
      ((s.chan c).us.bursts.find? fun b => b.id == id && b.phase == .scheduled) = some b ∧ b.at_ b.start < s.earlierEnd c b.id)
    ∧ (∃ (c : Chan) (id : Nat) (s : State) (b : Burst),
      ((s.chan c).us.bursts.find? fun b => b.id == id && b.phase == .fallbackAsked) = some b)
    ∧ (∃ (c : Chan) (id : Nat) (s : State),
      (∃ b ∈ (s.chan c).us.bursts, b.id = id)) :=
  ⟨⟨0, 5, withBursts [{ burst0 .data .scheduled with plan := some { bodies := [[]], drr := [] }, planReady := true }], { burst0 .data .scheduled with plan := some { bodies := [[]], drr := [] }, planReady := true }, { bodies := [[]], drr := [] }, by and_intros <;> decide⟩,
   ⟨0, 5, withBursts [burst0 .range .scheduled], burst0 .range .scheduled, by and_intros <;> decide⟩,
   ⟨0, 5, withBursts [burst0 .data .scheduled], burst0 .data .scheduled, by and_intros <;> decide⟩,
   ⟨0, 5, chanIn .watch fun x => { x with us := { x.us with lastEnd := 1000000000, bursts := [burst0 .data .scheduled] } }, burst0 .data .scheduled, by decide, by decide⟩,
   ⟨0, 5, withBursts [burst0 .data .fallbackAsked], burst0 .data .fallbackAsked, by decide⟩,
   ⟨0, 5, withBursts [burst0 .data .committed], by decide⟩⟩

/-- Every clause of BurstsAreSentAndEnd has a state and operands that meet its premises. -/
theorem witness_BurstsAreSentAndEnd :
    (∃ (c : Chan) (id : Nat) (s : State) (b : Burst),
      ((s.chan c).us.bursts.find? fun b => b.id == id && b.phase == .committed) = some b ∧ s.alive (usDom c) = true)
    ∧ (∃ (c : Chan) (id : Nat) (s : State) (b : Burst),
      ((s.chan c).us.bursts.find? fun b => b.id == id && b.phase == .committed) = some b ∧ s.alive (usDom c) = false)
    ∧ (∃ (c : Chan) (id : Nat) (s : State) (b : Burst),
      ((s.chan c).us.bursts.find? fun b => b.id == id && b.phase == .underWay) = some b ∧ s.Still) :=
  ⟨⟨0, 5, withBursts [burst0 .data .committed], burst0 .data .committed, by decide, by decide⟩,
   ⟨0, 5, (withBursts [burst0 .data .committed]).updPdom 68 fun d => { d with ph := .off }, burst0 .data .committed, by decide, by decide⟩,
   ⟨0, 5, withBursts [burst0 .data .underWay], burst0 .data .underWay, by decide, still_of (by decide)⟩⟩

/-- Every clause of TicksRefillAndAdvance has a state and operands that meet its premises. -/
theorem witness_TicksRefillAndAdvance :
    (∃ (s : State),
      s.clockRuns .time = false)
    ∧ (∃ (s : State),
      s.clockRuns .time = true) :=
  ⟨⟨State.reset, by decide⟩,
   ⟨rdy, by decide⟩⟩

/-- Every clause of QueueSettersAndSamples has a state and operands that meet its premises. -/
theorem witness_QueueSettersAndSamples :
    (∃ (hd : CmdHdr) (p : List Byte) (s : State),
      let c : RawCmd := ⟨0x0301, hd, p⟩
      let q := u16 p 0
      let a := u8 p 2
      let new : QCfg := { alloc := if a = 255 then none else some a, member := u8 p 3, weight := u16 p 4, flow := u8 p 6,
                              adj := i16 p 8, discard := u8 p 7 == 1, enable := u8 p 10 == 1 }
      let others := (s.members (q / 128) a).filter fun r => r != q
      s.Takes c 0 ∧ s.alive 216 = true ∧ p.length = 12 ∧ q < 8192 ∧ s.queueOwner q = hd.ep ∧ u8 p 3 ≤ 7 ∧ u8 p 7 ≤ 1 ∧ -64 ≤ new.adj ∧ new.adj ≤ 255 ∧ u8 p 10 ≤ 1 ∧ ZeroAt p [(11, 1)] ∧ (a = 255 ∨ (a ≤ 63 ∧ others.length < 8 ∧ (∀ r ∈ others, (s.queue r).told.member ≠ u8 p 3)
            ∧ Tab.get .none (s.chan (q / 128)).trib.binds a = .none)))
    ∧ (∃ (hd : CmdHdr) (p : List Byte) (s : State),
      let c : RawCmd := ⟨0x0302, hd, p⟩
      let q := u16 p 0
      s.Takes c 0 ∧ s.alive 216 = true ∧ p.length = 16 ∧ q < 8192 ∧ s.queueOwner q = hd.ep ∧ u8 p 2 ≤ 1 ∧ u8 p 3 ≤ 1 ∧ 1 ≤ u32 p 4 ∧ u32 p 4 ≤ 16777215 ∧ u64 p 8 ≤ 100000000000)
    ∧ (∃ (hd : CmdHdr) (p : List Byte) (s : State),
      let c : RawCmd := ⟨0x0303, hd, p⟩
      let q := u16 p 0
      s.Takes c 0 ∧ s.alive 216 = true ∧ p.length = 116 ∧ q < 10240 ∧ s.queueOwner q = hd.ep ∧ u8 p 2 ≤ 1 ∧ ZeroAt p [(3, 1)] ∧ u64 p 4 < 2 ^ 40 ∧ u64 p 12 ≤ u64 p 4 ∧ (∀ i < 8, u64 p (20 + 8 * i) ≤ u64 p 4) ∧ (∀ i < 7, u64 p (20 + 8 * i) ≤ u64 p (20 + 8 * (i + 1))) ∧ (∀ i < 8, u32 p (84 + 4 * i) ≤ 65536))
    ∧ (∃ (hd : CmdHdr) (p : List Byte) (s : State),
      let c : RawCmd := ⟨0x0304, hd, p⟩
      let q := u16 p 0
      s.Takes c 0 ∧ s.alive 216 = true ∧ p.length = 16 ∧ q < 10240 ∧ s.queueOwner q = hd.ep ∧ u8 p 2 ≤ 1 ∧ ZeroAt p [(3, 1), (14, 2)] ∧ u32 p 4 ≤ 1000000 ∧ u32 p 8 < max (u32 p 4) 1 ∧ 1 ≤ u16 p 12)
    ∧ (∃ (hd : CmdHdr) (p : List Byte) (s : State),
      let c : RawCmd := ⟨0x0305, hd, p⟩
      let q := u16 p 0
      s.Takes c 0 ∧ s.alive 216 = true ∧ p.length = 8 ∧ q < 8192 ∧ s.queueOwner q = hd.ep ∧ u8 p 2 ≤ 1 ∧ u8 p 3 ≤ 1 ∧ 32768 ≤ u32 p 4 ∧ u32 p 4 ≤ 16777216)
    ∧ (∃ (q : QueueId) (s : State),
      (s.queue q).samp.period ≠ 0 ∧ (s.queue q).samp.post = false)
    ∧ (∃ (q : QueueId) (s : State),
      (s.queue q).samp.period ≠ 0 ∧ (s.queue q).samp.post = true)
    ∧ (∃ (q : QueueId) (s : State),
      (s.queue q).samp.period = 0) :=
  ⟨⟨hdr, pay 12 [], rdy, takes_of (by decide), by and_intros <;> decide⟩,
   ⟨hdr, pay 16 [(4, 64)], rdy, takes_of (by decide), by and_intros <;> decide⟩,
   ⟨hdr, pay 116 [], rdy, takes_of (by decide), by and_intros <;> decide⟩,
   ⟨hdr, pay 16 [(12, 1)], rdy, takes_of (by decide), by and_intros <;> decide⟩,
   ⟨hdr, pay 8 [(6, 1)], rdy, takes_of (by decide), by and_intros <;> decide⟩,
   ⟨0, rdy.updQueue 0 fun x => { x with samp := { x.samp with period := 10 } }, by decide, by decide⟩,
   ⟨0, rdy.updQueue 0 fun x => { x with samp := { x.samp with period := 10, post := true } }, by decide, by decide⟩,
   ⟨0, rdy, by decide⟩⟩

/-- Every clause of FlowShaperSettersAndQueueReaders has a state and operands that meet its premises. -/
theorem witness_FlowShaperSettersAndQueueReaders :
    (∃ (hd : CmdHdr) (p : List Byte) (s : State),
      let c : RawCmd := ⟨0x0306, hd, p⟩
      let q := u16 p 0
      s.Takes c 0 ∧ s.alive 216 = true ∧ p.length = 20 ∧ q < 8192 ∧ s.queueOwner q = hd.ep ∧ s.macOwner (u8 p 2) = hd.ep ∧ (u8 p 3 = 255 ∨ (u8 p 3 ≤ 7 ∧ u64 p 12 < u64 p 4)))
    ∧ (∃ (hd : CmdHdr) (p : List Byte) (s : State),
      let c : RawCmd := ⟨0x0307, hd, p⟩
      let q := u16 p 0
      s.Takes c 0 ∧ s.alive 216 = true ∧ p.length = 2 ∧ q < 10240 ∧ s.queueOwner q = hd.ep)
    ∧ (∃ (hd : CmdHdr) (p : List Byte) (s : State),
      let c : RawCmd := ⟨0x0310, hd, p⟩
      let i := u8 p 0
      s.Takes c 0 ∧ s.alive 216 = true ∧ p.length = 3 ∧ i < 64 ∧ u8 p 1 < 64 ∧ u8 p 2 ≤ 1 ∧ (s.chan i).owner = hd.ep)
    ∧ (∃ (hd : CmdHdr) (p : List Byte) (s : State),
      let c : RawCmd := ⟨0x0311, hd, p⟩
      let i := u8 p 0
      s.Takes c 0 ∧ s.alive 216 = true ∧ p.length = 16 ∧ i < 64 ∧ u8 p 1 < 64 ∧ (s.chan i).owner = hd.ep ∧ u8 p 2 ≤ 1 ∧ u8 p 3 ≤ 1 ∧ 1 ≤ u32 p 4 ∧ u32 p 4 ≤ 16777215 ∧ u64 p 8 ≤ 100000000000)
    ∧ (∃ (hd : CmdHdr) (p : List Byte) (s : State),
      let c : RawCmd := ⟨0x0313, hd, p⟩
      let i := u8 p 0
      s.Takes c 0 ∧ s.alive 216 = true ∧ p.length = 16 ∧ i < 64 ∧ ZeroAt p [(1, 1)] ∧ (s.chan i).owner = hd.ep ∧ u8 p 2 ≤ 1 ∧ u8 p 3 ≤ 1 ∧ 1 ≤ u32 p 4 ∧ u32 p 4 ≤ 16777215 ∧ u64 p 8 ≤ 100000000000)
    ∧ (∃ (hd : CmdHdr) (p : List Byte) (s : State),
      let c : RawCmd := ⟨0x0320, hd, p⟩
      let i := u16 p 0
      s.Takes c 0 ∧ s.alive 216 = true ∧ p.length = 32 ∧ i < s.quota hd.ep 5 ∧ u8 p 2 ≤ 1 ∧ u8 p 3 ≤ 1 ∧ u8 p 4 ≤ 2 ∧ u8 p 5 ≤ 2 ∧ u8 p 6 ≤ 2 ∧ ZeroAt p [(7, 1)] ∧ u64 p 8 ≤ u64 p 16 ∧ u64 p 16 ≤ 100000000000 ∧ 1 ≤ u32 p 24 ∧ u32 p 24 ≤ 16777215 ∧ 1 ≤ u32 p 28 ∧ u32 p 28 ≤ 16777215)
    ∧ (∃ (hd : CmdHdr) (p : List Byte) (s : State),
      let c : RawCmd := ⟨0x0330, hd, p⟩
      s.Takes c 0 ∧ p.length = 12 ∧ u64 p 0 % 4096 = 0 ∧ (u64 p 0 = 0 ∨ (8 ≤ u8 p 8 ∧ u8 p 8 ≤ 20)) ∧ u8 p 9 ≤ 15 ∧ ZeroAt p [(10, 2)])
    ∧ (∃ (hd : CmdHdr) (p : List Byte) (s : State),
      let c : RawCmd := ⟨0x0308, hd, p⟩
      let q := u16 p 0
      let n := u16 p 2
      let r := ((List.range n).map (q + ·)).flatMap (queueRecord s)
      s.Takes c r.length ∧ s.alive 216 = true ∧ p.length = 4 ∧ 1 ≤ n ∧ n ≤ 348 ∧ q + n ≤ 10240 ∧ (∀ i < n, s.queueOwner (q + i) = hd.ep))
    ∧ (∃ (hd : CmdHdr) (p : List Byte) (s : State),
      let c : RawCmd := ⟨0x0309, hd, p⟩
      let q := u16 p 0
      s.Takes c 168 ∧ s.alive 216 = true ∧ p.length = 3 ∧ q < 10240 ∧ s.queueOwner q = hd.ep ∧ u8 p 2 ≤ 1)
    ∧ (∃ (hd : CmdHdr) (p : List Byte) (s : State),
      let c : RawCmd := ⟨0x030A, hd, p⟩
      let q := u16 p 0
      s.Takes c 184 ∧ s.alive 216 = true ∧ p.length = 3 ∧ q < 10240 ∧ s.queueOwner q = hd.ep ∧ u8 p 2 ≤ 1)
    ∧ (∃ (hd : CmdHdr) (p : List Byte) (s : State),
      let c : RawCmd := ⟨0x0312, hd, p⟩
      let i := u8 p 0
      s.Takes c 20 ∧ s.alive 216 = true ∧ p.length = 2 ∧ i < 64 ∧ u8 p 1 < 64 ∧ (s.chan i).owner = hd.ep)
    ∧ (∃ (hd : CmdHdr) (p : List Byte) (s : State),
      let c : RawCmd := ⟨0x0321, hd, p⟩
      let i := u16 p 0
      s.Takes c 56 ∧ s.alive 216 = true ∧ p.length = 3 ∧ i < s.quota hd.ep 5 ∧ u8 p 2 ≤ 1) :=
  ⟨⟨hdr, pay 20 [(3, 255)], rdy, takes_of (by decide), by and_intros <;> decide⟩,
   ⟨hdr, pay 2 [], rdy, takes_of (by decide), by and_intros <;> decide⟩,
   ⟨hdr, pay 3 [], rdy, takes_of (by decide), by and_intros <;> decide⟩,
   ⟨hdr, pay 16 [(4, 64)], rdy, takes_of (by decide), by and_intros <;> decide⟩,
   ⟨hdr, pay 16 [(4, 64)], rdy, takes_of (by decide), by and_intros <;> decide⟩,
   ⟨hdr, pay 32 [(24, 64), (28, 64)], rdy, takes_of (by decide), by and_intros <;> decide⟩,
   ⟨hdr, pay 12 [], rdy, takes_of (by decide), by and_intros <;> decide⟩,
   ⟨hdr, pay 4 [(2, 1)], rdy, takes_of (by decide), by and_intros <;> decide⟩,
   ⟨hdr, pay 3 [], rdy, takes_of (by decide), by and_intros <;> decide⟩,
   ⟨hdr, pay 3 [], rdy, takes_of (by decide), by and_intros <;> decide⟩,
   ⟨hdr, pay 2 [], rdy, takes_of (by decide), by and_intros <;> decide⟩,
   ⟨hdr, pay 3 [], rdy, takes_of (by decide), by and_intros <;> decide⟩⟩

/-- Every clause of RulesAreStagedCommittedAndDrained has a state and operands that meet its premises. -/
theorem witness_RulesAreStagedCommittedAndDrained :
    (∃ (hd : CmdHdr) (p : List Byte) (s : State),
      let c : RawCmd := ⟨0x0401, hd, p⟩
      let k := hd.ep.val
      let h := (s.cl k).nextHandle
      let r := ruleAt p 0 k h ((s.cl k).cur + 1)
      s.Takes c 4 ∧ s.alive 216 = true ∧ p.length = 132 ∧ ruleRight s k r = none ∧ ruleBad s k p 0 r = none ∧ s.roomFor k r = true)
    ∧ (∃ (hd : CmdHdr) (p : List Byte) (s : State),
      let c : RawCmd := ⟨0x0402, hd, p⟩
      let k := hd.ep.val
      let h := u32 p 0
      let r := ruleAt p 4 k h ((s.cl k).cur + 1)
      s.Takes c 0 ∧ s.alive 216 = true ∧ p.length = 136 ∧ s.handleKnown k h = true ∧ ruleRight s k r = none ∧ ruleBad s k p 4 r = none ∧ (s.unstaged k h).roomFor k r = true)
    ∧ (∃ (hd : CmdHdr) (p : List Byte) (s : State),
      let c : RawCmd := ⟨0x0403, hd, p⟩
      let k := hd.ep.val
      s.Takes c 0 ∧ s.alive 216 = true ∧ p.length = 4 ∧ s.handleKnown k (u32 p 0) = true)
    ∧ (∃ (hd : CmdHdr) (p : List Byte) (s : State) (r : Rule),
      let c : RawCmd := ⟨0x0404, hd, p⟩
      let reply := ruleBytes r ++ leBytes 4 r.born ++ leBytes 4 r.died
      s.Takes c reply.length ∧ s.alive 216 = true ∧ p.length = 4 ∧ s.newestRule hd.ep (u32 p 0) = some r)
    ∧ (∃ (hd : CmdHdr) (s : State),
      let c : RawCmd := ⟨0x0405, hd, []⟩
      let k := hd.ep.val
      let x := s.cl k
      s.Takes c 4 ∧ s.alive 216 = true ∧ (x.staged = [] ∨ x.drain = 0))
    ∧ (∃ (hd : CmdHdr) (s : State),
      let c : RawCmd := ⟨0x0405, hd, []⟩
      s.Takes c 0 ∧ s.alive 216 = true ∧ (s.cl hd.ep).staged ≠ [] ∧ (s.cl hd.ep).drain ≠ 0)
    ∧ (∃ (hd : CmdHdr) (s : State),
      let c : RawCmd := ⟨0x0406, hd, []⟩
      s.Takes c 0 ∧ s.alive 216 = true)
    ∧ (∃ (g : Fin 32) (s : State) (nx : Nat) (d : Nat),
      (s.bond g).next = some nx ∧ ((s.bond g).held.map fun h => State.seqDist h.seq nx).min? = some d)
    ∧ (∃ (g : Fin 32) (s : State),
      ((s.bond g).next = none ∨ (s.bond g).held = []))
    ∧ (∃ (k : EpId) (s : State),
      (s.cl k).drain = 0)
    ∧ (∃ (k : EpId) (s : State),
      (s.cl k).drain ≠ 0) :=
  ⟨⟨hdr, pay 132 [(2, 1), (4, 1)], rdy, takes_of (by decide), by and_intros <;> decide⟩,
   ⟨hdr, pay 136 [(6, 1), (8, 1)], { rdy with rules := [{ part := 0, handle := 0, ternary := false, profile := 0, pass := 1, scope := 1, prio := 0, value := 0, mask := 0, act := actionAt (zeros 32) 0, born := 1, died := 0, lost := [] }] }, takes_of (by decide), by and_intros <;> decide⟩,
   ⟨hdr, pay 4 [], { rdy with rules := [{ part := 0, handle := 0, ternary := false, profile := 0, pass := 1, scope := 1, prio := 0, value := 0, mask := 0, act := actionAt (zeros 32) 0, born := 1, died := 0, lost := [] }] }, takes_of (by decide), by and_intros <;> decide⟩,
   ⟨hdr, pay 4 [], { rdy with rules := [{ part := 0, handle := 0, ternary := false, profile := 0, pass := 1, scope := 1, prio := 0, value := 0, mask := 0, act := actionAt (zeros 32) 0, born := 1, died := 0, lost := [] }] }, { part := 0, handle := 0, ternary := false, profile := 0, pass := 1, scope := 1, prio := 0, value := 0, mask := 0, act := actionAt (zeros 32) 0, born := 1, died := 0, lost := [] }, takes_of (by decide), by and_intros <;> decide⟩,
   ⟨hdr, rdy, takes_of (by decide), by decide, by decide⟩,
   ⟨hdr, rdy.updCl 0 fun p => { p with drain := 1, cur := 2, staged := [.del 5] }, takes_of (by decide), by and_intros <;> decide⟩,
   ⟨hdr, rdy, takes_of (by decide), by decide⟩,
   ⟨0, rdy.updBond 0 fun b => { b with next := some 3, held := [{ seq := 5, frame := none, q := 0, at_ := 0 }] }, 3, 2, by decide, by decide⟩,
   ⟨0, rdy, by decide⟩,
   ⟨0, rdy, by decide⟩,
   ⟨0, rdy.updCl 0 fun p => { p with drain := 1, cur := 2 }, by decide⟩⟩

/-- Every clause of ClassifierSettersAndGroupsApply has a state and operands that meet its premises. -/
theorem witness_ClassifierSettersAndGroupsApply :
    (∃ (hd : CmdHdr) (p : List Byte) (s : State),
      let c : RawCmd := ⟨0x0407, hd, p⟩
      let k := hd.ep.val
      let i := u8 p 0
      let tern := u8 p 1 == 1
      let n := u8 p 2
      let fields := (List.range n).map fun j => u8 p (4 + j)
      s.Takes c 0 ∧ s.alive 216 = true ∧ p.length = 20 ∧ i < 64 ∧ i < s.quota k 7 ∧ u8 p 1 ≤ 1 ∧ 1 ≤ n ∧ n ≤ 16 ∧ ZeroAt p [(3, 1)] ∧ (∀ x ∈ fields, x ≤ 26) ∧ (fields.map fun f => fieldWidth.getD f 0).sum ≤ (if tern then 320 else 128) ∧ (∀ src < 96, s.srcOwner src = k → if tern then (s.stagedSource k src).exp1 ≠ some i ∧ (s.stagedSource k src).exp2 ≠ some i
            else (s.stagedSource k src).tep1 ≠ some i ∧ (s.stagedSource k src).tep2 ≠ some i))
    ∧ (∃ (hd : CmdHdr) (p : List Byte) (s : State),
      let c : RawCmd := ⟨0x0408, hd, p⟩
      let k := hd.ep.val
      let src := u8 p 0
      s.Takes c 0 ∧ s.alive 216 = true ∧ p.length = 44 ∧ src < 96 ∧ s.srcOwner src = k ∧ 1 ≤ u16 p 6 ∧ ZeroAt p [(5, 1), (10, 2), (38, 2)] ∧ (∀ j ∈ [1, 2, 3, 4], u8 p j = 255 ∨ (u8 p j < 64 ∧ u8 p j < s.quota k 7
            ∧ (s.stagedProfile k (u8 p j)).all (fun q => q.ternary == (j % 2 == 0)) = true)) ∧ actionRight s k (actionAt p 12) = none ∧ (∀ f ∈ actionBad p 12 (decide (64 ≤ src)) (decide (src < 64)) false, f.1 = false))
    ∧ (∃ (hd : CmdHdr) (p : List Byte) (s : State),
      let c : RawCmd := ⟨0x0409, hd, p⟩
      s.Takes c 16 ∧ s.alive 216 = true ∧ p.length = 5 ∧ u32 p 0 < s.quota hd.ep 6 ∧ u8 p 4 ≤ 1)
    ∧ (∃ (hd : CmdHdr) (p : List Byte) (s : State),
      let c : RawCmd := ⟨0x040A, hd, p⟩
      let i := u8 p 0
      s.Takes c 192 ∧ s.alive 216 = true ∧ p.length = 2 ∧ i < 16 ∧ (u8 p 1 = 0 ∨ (u8 p 1 = 1 ∧ hd.ep = 0)))
    ∧ (∃ (hd : CmdHdr) (p : List Byte) (s : State),
      let c : RawCmd := ⟨0x0501, hd, p⟩
      let g := u8 p 0
      let n := u8 p 1
      let mem := (List.range n).map fun i => u8 p (64 + i)
      s.Takes c 0 ∧ s.alive 216 = true ∧ p.length = 128 ∧ g < 32 ∧ (s.bond g).owner = hd.ep ∧ n ≠ 1 ∧ n ≤ 64 ∧ mem.Nodup ∧ (∀ m ∈ mem, m < 64 ∧ (s.chan m).owner = hd.ep ∧ ∀ b ∈ s.bonds, b.1 ≠ g → m ∉ b.2.members) ∧ ZeroAt p [(64 + n, 64 - n), (54, 2)] ∧ (n ≠ 0 → 1 ≤ u8 p 3 ∧ u8 p 3 ≤ 64 ∧ 10 ≤ u16 p 52 ∧ u16 p 52 ≤ 1000) ∧ u32 p 60 < 2 ^ 27)
    ∧ (∃ (hd : CmdHdr) (p : List Byte) (s : State),
      let c : RawCmd := ⟨0x0502, hd, p⟩
      let g := u8 p 0
      let n := (s.bond g).members.length
      s.Takes c 0 ∧ s.alive 216 = true ∧ p.length = 6 + u16 p 4 ∧ g < 32 ∧ (s.bond g).owner = hd.ep ∧ 8 < n ∧ ZeroAt p [(1, 1)] ∧ u16 p 2 + u16 p 4 ≤ 4096 ∧ (∀ i < u16 p 4, u8 p (6 + i) < n))
    ∧ (∃ (hd : CmdHdr) (p : List Byte) (s : State),
      let c : RawCmd := ⟨0x0503, hd, p⟩
      let g := u8 p 0
      s.Takes c 88 ∧ s.alive 216 = true ∧ p.length = 2 ∧ g < 32 ∧ (s.bond g).owner = hd.ep ∧ u8 p 1 ≤ 1)
    ∧ (∃ (hd : CmdHdr) (p : List Byte) (s : State),
      let c : RawCmd := ⟨0x0504, hd, p⟩
      let g := u8 p 0
      let n := u8 p 1
      let mem := (List.range n).map fun i => u8 p (12 + i)
      s.Takes c 0 ∧ s.alive 216 = true ∧ p.length = 76 ∧ g < 64 ∧ ((s.lag g).members = [] ∨ (s.lag g).owner = hd.ep) ∧ n ≠ 1 ∧ n ≤ 64 ∧ mem.Nodup ∧ (∀ m ∈ mem, s.macOwner m = hd.ep ∧ s.macExists m = true ∧ ∀ b ∈ s.lags, b.1 ≠ g → m ∉ b.2.members) ∧ ZeroAt p [(12 + n, 64 - n), (2, 2)] ∧ u32 p 8 < 2 ^ 27)
    ∧ (∃ (hd : CmdHdr) (p : List Byte) (s : State),
      let c : RawCmd := ⟨0x0505, hd, p⟩
      let g := u8 p 0
      let n := (s.lag g).members.length
      s.Takes c 0 ∧ s.alive 216 = true ∧ p.length = 6 + u16 p 4 ∧ g < 64 ∧ (s.lag g).owner = hd.ep ∧ n ≠ 0 ∧ ZeroAt p [(1, 1)] ∧ u16 p 2 + u16 p 4 ≤ 4096 ∧ (∀ i < u16 p 4, u8 p (6 + i) < n)) :=
  ⟨⟨hdr, pay 20 [(2, 1)], rdy, takes_of (by decide), by and_intros <;> decide⟩,
   ⟨hdr, pay 44 [(6, 181), (7, 18), (1, 255), (2, 255), (3, 255), (4, 255)], rdy, takes_of (by decide), by and_intros <;> decide⟩,
   ⟨hdr, pay 5 [], rdy, takes_of (by decide), by and_intros <;> decide⟩,
   ⟨hdr, pay 2 [], rdy, takes_of (by decide), by and_intros <;> decide⟩,
   ⟨hdr, pay 128 [(1, 2), (3, 8), (52, 100), (65, 1)], rdy, takes_of (by decide), by and_intros <;> decide⟩,
   ⟨hdr, pay 7 [(4, 1), (6, 8)], rdy.updBond 0 fun b => { b with members := List.range 9 }, takes_of (by decide), by and_intros <;> decide⟩,
   ⟨hdr, pay 2 [], rdy, takes_of (by decide), by and_intros <;> decide⟩,
   ⟨hdr, pay 76 [(1, 2), (13, 8)], rdy, takes_of (by decide), by and_intros <;> decide⟩,
   ⟨hdr, pay 7 [(4, 1), (6, 1)], rdy.updLag 0 fun b => { b with members := [0, 8] }, takes_of (by decide), by and_intros <;> decide⟩⟩

/-- Every clause of PagesMoveToAndFromTheStore has a state and operands that meet its premises. -/
theorem witness_PagesMoveToAndFromTheStore :
    (∃ (q : QueueId) (n : Fin 9) (s : State) (p : Page),
      ((s.queue q).pages.find? fun p => p.ph == .writing) = some p ∧ s.stackRefuses p.stack = false ∧ n.val < 8)
    ∧ (∃ (q : QueueId) (s : State) (p : Page),
      ((s.queue q).pages.find? fun p => p.ph == .writing) = some p ∧ s.stackRefuses p.stack = false)
    ∧ (∃ (q : QueueId) (s : State),
      (∀ p, ((s.queue q).pages.find? fun p => p.ph == .writing) = some p → s.stackRefuses p.stack = true))
    ∧ (∃ (q : QueueId) (s : State) (p : Page),
      ((s.queue q).pages.find? fun p => p.ph != .reading) = some p ∧ p.ph = .stored ∧ (s.queue q).unclaimedShare + 16384 * ((s.queue q).pages.filter fun p => p.ph == .reading).length + 16384
            ≤ (s.queue q).spillCfg.onMax ∧ (Tab.get {} s.mem.ports p.stack).wait = 0 ∧ (s.pdom (stackDom p.stack)).ph ≠ .off ∧ (s.stack p.stack).selfRefresh = false)
    ∧ (∃ (q : QueueId) (s : State),
      (∀ p ∈ (s.queue q).pages, p.ph = .reading))
    ∧ (∃ (q : QueueId) (n : Fin 9) (s : State) (p : Page),
      ((s.queue q).pages.find? fun p => p.ph == .reading) = some p ∧ s.stackRefuses p.stack = false ∧ n.val < 8) :=
  ⟨⟨0, 0, (rdy.updStack 0 fun x => { x with selfRefresh := false, pages := 1 }).updQueue 0 fun x => { x with pages := [{ start := 0, stack := 0, addr := 0, seq := 0, hdr := none, ph := .writing }], recEnd := 16384 }, { start := 0, stack := 0, addr := 0, seq := 0, hdr := none, ph := .writing }, by and_intros <;> decide⟩,
   ⟨0, (rdy.updStack 0 fun x => { x with selfRefresh := false, pages := 1 }).updQueue 0 fun x => { x with pages := [{ start := 0, stack := 0, addr := 0, seq := 0, hdr := none, ph := .writing }], recEnd := 16384 }, { start := 0, stack := 0, addr := 0, seq := 0, hdr := none, ph := .writing }, by decide, by decide⟩,
   ⟨0, rdy, by decide⟩,
   ⟨0, (rdy.updStack 0 fun x => { x with selfRefresh := false, pages := 1 }).updQueue 0 fun x => { x with pages := [{ start := 0, stack := 0, addr := 0, seq := 0, hdr := none, ph := .stored }], recEnd := 16384 }, { start := 0, stack := 0, addr := 0, seq := 0, hdr := none, ph := .stored }, by and_intros <;> decide⟩,
   ⟨0, (rdy.updStack 0 fun x => { x with selfRefresh := false, pages := 1 }).updQueue 0 fun x => { x with pages := [{ start := 0, stack := 0, addr := 0, seq := 0, hdr := none, ph := .reading }], recEnd := 16384 }, by decide⟩,
   ⟨0, 0, (rdy.updStack 0 fun x => { x with selfRefresh := false, pages := 1 }).updQueue 0 fun x => { x with pages := [{ start := 0, stack := 0, addr := 0, seq := 0, hdr := none, ph := .reading }], recEnd := 16384 }, { start := 0, stack := 0, addr := 0, seq := 0, hdr := none, ph := .reading }, by and_intros <;> decide⟩⟩

/-- Every clause of StacksScrubsAndRetriesAct has a state and operands that meet its premises. -/
theorem witness_StacksScrubsAndRetriesAct :
    (∃ (i : Fin 4) (s : State),
      (s.stack i).failed = false ∧ s.queues = [])
    ∧ (∃ (i : Fin 4) (s : State),
      (s.stack i).failed = false)
    ∧ (∃ (i : Fin 4) (s : State),
      (s.stack i).failed = true)
    ∧ (∃ (i : Fin 4) (s : State),
      (s.stack i).pages = 0 ∧ (s.stack i).writes = 0 ∧ (s.stack i).selfRefresh = false)
    ∧ (∃ (i : Fin 4) (s : State),
      ((s.stack i).pages ≠ 0 ∨ (s.stack i).writes ≠ 0 ∨ (s.stack i).selfRefresh = true))
    ∧ (∃ (i : Fin 4) (n : Fin 9) (s : State),
      (s.stack i).pages ≠ 0 ∧ (s.stack i).failed = false ∧ s.stackReady i = true ∧ n.val < 8)
    ∧ (∃ (i : Fin 4) (s : State),
      (s.stack i).pages ≠ 0 ∧ (s.stack i).failed = false ∧ s.stackReady i = false)
    ∧ (∃ (i : Fin 4) (s : State),
      ((s.stack i).pages = 0 ∨ (s.stack i).failed = true)) :=
  ⟨⟨0, rdy, by decide, by decide⟩,
   ⟨0, rdy, by decide⟩,
   ⟨0, rdy.updStack 0 fun x => { x with failed := true }, by decide⟩,
   ⟨0, rdy.updStack 0 fun x => { x with selfRefresh := false }, by and_intros <;> decide⟩,
   ⟨0, rdy, by decide⟩,
   ⟨0, 0, (rdy.updStack 0 fun x => { x with selfRefresh := false, pages := 1 }), by and_intros <;> decide⟩,
   ⟨0, (rdy.updStack 0 fun x => { x with pages := 1 }), by and_intros <;> decide⟩,
   ⟨0, rdy, by decide⟩⟩

/-- Every clause of ArbiterAndMemoryCommandsApply has a state and operands that meet its premises. -/
theorem witness_ArbiterAndMemoryCommandsApply :
    (∃ (hd : CmdHdr) (p : List Byte) (s : State),
      let c : RawCmd := ⟨0x0C01, hd, p⟩
      let first := u8 p 0
      let n := u8 p 1
      s.Takes c 0 ∧ s.alive 216 = true ∧ p.length = 2 + n ∧ hd.ep = 0 ∧ 1 ≤ n ∧ first + n ≤ 120 ∧ (∀ i < n, u8 p (2 + i) ≤ 7))
    ∧ (∃ (hd : CmdHdr) (s : State),
      let c : RawCmd := ⟨0x0C02, hd, []⟩
      s.Takes c 2 ∧ s.alive 216 = true ∧ hd.ep = 0)
    ∧ (∃ (hd : CmdHdr) (s : State),
      let c : RawCmd := ⟨0x0C03, hd, []⟩
      s.Takes c 240 ∧ s.alive 216 = true ∧ hd.ep = 0)
    ∧ (∃ (hd : CmdHdr) (p : List Byte) (s : State),
      let c : RawCmd := ⟨0x0C04, hd, p⟩
      let mask := BitVec.ofNat 16 (u16 p 0)
      s.Takes c 0 ∧ s.alive 216 = true ∧ p.length = 2 ∧ hd.ep = 0 ∧ 4 ≤ ((List.range 16).filter mask.getLsbD).length)
    ∧ (∃ (hd : CmdHdr) (p : List Byte) (s : State),
      let c : RawCmd := ⟨0x0C05, hd, p⟩
      s.Takes c 136 ∧ s.alive 216 = true ∧ p.length = 1 ∧ (u8 p 0 = 0 ∨ (u8 p 0 = 1 ∧ hd.ep = 0))) :=
  ⟨⟨hdr, pay 3 [(1, 1), (2, 5)], rdy, takes_of (by decide), by and_intros <;> decide⟩,
   ⟨hdr, rdy, takes_of (by decide), by decide, by decide⟩,
   ⟨hdr, rdy, takes_of (by decide), by decide, by decide⟩,
   ⟨hdr, pay 2 [(0, 15)], rdy, takes_of (by decide), by and_intros <;> decide⟩,
   ⟨hdr, pay 1 [], rdy, takes_of (by decide), by and_intros <;> decide⟩⟩

/-- Every clause of KeysAreRequestedAndSwitched has a state and operands that meet its premises. -/
theorem witness_KeysAreRequestedAndSwitched :
    (∃ (hd : CmdHdr) (p : List Byte) (s : State),
      let c : RawCmd := ⟨0x0601, hd, p⟩
      let i := u8 p 0
      s.Takes c 0 ∧ s.openHeld i = false ∧ p.length = 2 ∧ i < 64 ∧ (s.chan i).owner = hd.ep ∧ u8 p 1 ≤ 1)
    ∧ (∃ (hd : CmdHdr) (p : List Byte) (s : State),
      let c : RawCmd := ⟨0x0602, hd, p⟩
      let i := u8 p 0
      s.Takes c 48 ∧ s.openHeld i = false ∧ p.length = 1 ∧ i < 64 ∧ (s.chan i).owner = hd.ep)
    ∧ (∃ (c : Chan) (h : TcmHdr) (b : KeyReqBody) (s : State) (n : BitVec 48) (r : Nat),
      s.Hears c h (.keyReq b) n ∧ (s.heard c h (.keyReq b)).keyReqCheck c b = some r)
    ∧ (∃ (c : Chan) (h : TcmHdr) (b : KeyReqBody) (s : State) (n : BitVec 48),
      let reg := (s.chan c).keys.uni b.kdir.toNat b.kslot.toNat
      s.Hears c h (.keyReq b) n ∧ s.keyReqCheck c b = none ∧ b.kdir.toNat < 2 ∧ ¬ (reg.ph = .filled ∧ reg.seq = b.keySeq) ∧ s.gorse.drbgRun = true)
    ∧ (∃ (c : Chan) (h : TcmHdr) (b : KeyReqBody) (s : State) (n : BitVec 48),
      let reg := (s.chan c).keys.uni b.kdir.toNat b.kslot.toNat
      s.Hears c h (.keyReq b) n ∧ s.keyReqCheck c b = none ∧ b.kdir.toNat < 2 ∧ ¬ (reg.ph = .filled ∧ reg.seq = b.keySeq) ∧ s.gorse.drbgRun = false)
    ∧ (∃ (c : Chan) (h : TcmHdr) (b : KeyReqBody) (s : State) (n : BitVec 48) (w : List Byte),
      let reg := (s.chan c).keys.uni b.kdir.toNat b.kslot.toNat
      s.Hears c h (.keyReq b) n ∧ s.keyReqCheck c b = none ∧ b.kdir.toNat < 2 ∧ reg.ph = .filled ∧ reg.seq = b.keySeq ∧ State.wrappedOf (s.chan c).keys b.kdir.toNat b.kslot.toNat b.keySeq = some w)
    ∧ (∃ (c : Chan) (h : TcmHdr) (b : KeyReqBody) (s : State) (n : BitVec 48),
      s.Hears c h (.keyReq b) n ∧ s.keyReqCheck c b = none ∧ b.kdir = 2 ∧ (s.chan c).keys.frags = none ∧ (h.tid = 0xFFFE → (s.chan c).keys.bc.ph ≠ .empty ∧ (s.chan c).keys.bc.suspect = false))
    ∧ (∃ (c : Chan) (h : TcmHdr) (b : KeySwitchBody) (s : State) (n : BitVec 48),
      s.Hears c h (.keySwitch b) n)
    ∧ (∃ (c : Chan) (s : State),
      (s.chan c).keys.frags ≠ none)
    ∧ (∃ (c : Chan) (s : State),
      (s.chan c).keys.frags = none) :=
  ⟨⟨hdr, pay 2 [], rdy, takes_of (by decide), by and_intros <;> decide⟩,
   ⟨hdr, pay 1 [], rdy, takes_of (by decide), by and_intros <;> decide⟩,
   ⟨0, mine, { kdir := 0, kslot := 1, keySeq := 3, fragIdx := 0, fragCnt := 0, frag := [] }, chanIn .watch, 8, 5, hears_of (by decide), by decide⟩,
   ⟨0, mine, { kdir := 0, kslot := 1, keySeq := 3, fragIdx := 0, fragCnt := 0, frag := [] }, ((chanIn .watch fun x => { x with cfg := { x.cfg with enc := true } }).updGorse fun g => { g with drbgRun := true, drk := true, kek := [(0, some 7)] }), 8, hears_of (by decide), by and_intros <;> decide⟩,
   ⟨0, mine, { kdir := 0, kslot := 1, keySeq := 3, fragIdx := 0, fragCnt := 0, frag := [] }, ((chanIn .watch fun x => { x with cfg := { x.cfg with enc := true } }).updGorse fun g => { g with drbgRun := false, drk := true, kek := [(0, some 7)] }), 8, hears_of (by decide), by and_intros <;> decide⟩,
   ⟨0, mine, { kdir := 0, kslot := 1, keySeq := 3, fragIdx := 0, fragCnt := 0, frag := [] }, ((chanIn .watch fun x => { x with cfg := { x.cfg with enc := true }, keys := { x.keys with ds1 := { ph := .filled, key := 0, seq := 3 }, wrapped := [(0, 1, 3, zeros 40)] } }).updGorse fun g => { g with drbgRun := true, drk := true, kek := [(0, some 7)] }), 8, zeros 40, hears_of (by decide), by and_intros <;> decide⟩,
   ⟨0, mine, { kdir := 2, kslot := 3, keySeq := 3, fragIdx := 1, fragCnt := 2, frag := [1, 2] }, ((chanIn .watch fun x => { x with cfg := { x.cfg with enc := true } }).updGorse fun g => { g with drbgRun := true, drk := true, kek := [(0, some 7)] }), 8, hears_of (by decide), by and_intros <;> decide⟩,
   ⟨0, mine, { kdir := 0, kslot := 1, keySeq := 3, swSfc := 16 }, chanIn .watch fun x => { x with keys := { x.keys with ds1 := { ph := .filled, key := 0, seq := 3, suspect := false } } }, 8, hears_of (by decide)⟩,
   ⟨0, chanIn .watch fun x => { x with keys := { x.keys with frags := some { toTid := false, keySeq := 0, cnt := 2, frags := [], first := 0 } } }, by decide⟩,
   ⟨0, rdy, by decide⟩⟩

/-- Every clause of TheKeyWrapLockAndErasure has a state and operands that meet its premises. -/
theorem witness_TheKeyWrapLockAndErasure :
    (∃ (u : Fin 10) (v : Byte) (s : State),
      s.kweReach u = true ∧ v.toNat = u)
    ∧ (∃ (u : Fin 10) (v : Byte) (s : State),
      s.kweReach u = true ∧ v.toNat ≠ u ∧ v ≠ 0xFE ∧ u.val < 8)
    ∧ (∃ (u : Fin 10) (s : State),
      s.kweReach u = true ∧ s.gorse.kwe.owner = u)
    ∧ (∃ (u : Fin 10) (s : State),
      s.kweReach u = false)
    ∧ (∃ (u : Fin 10) (s : State),
      s.gorse.kwe.owner ≠ u)
    ∧ (∃ (s : State),
      s.gorse.kwe.owner ≠ 0xFF ∧ s.gorse.kwe.busy = false)
    ∧ (∃ (s : State),
      s.gorse.kwe.busy = true) :=
  ⟨⟨0, 0, rdy, by decide, by decide⟩,
   ⟨0, 1, rdy, by and_intros <;> decide⟩,
   ⟨0, (rdy.updGorse fun g => { g with kwe := { g.kwe with owner := 0 } }), by decide, by decide⟩,
   ⟨0, State.reset, by decide⟩,
   ⟨0, (rdy.updGorse fun g => { g with kwe := { g.kwe with owner := 1 } }), by decide⟩,
   ⟨(rdy.updGorse fun g => { g with kwe := { g.kwe with owner := 0 } }), by decide, by decide⟩,
   ⟨(rdy.updGorse fun g => { g with kwe := { g.kwe with owner := 0, busy := true } }), by decide⟩⟩

/-- Every clause of KeyWrapOperationsRun has a state and operands that meet its premises. -/
theorem witness_KeyWrapOperationsRun :
    (∃ (u : Fin 10) (s : State),
      s.OwnsKwe u)
    ∧ (∃ (u : Fin 10) (s : State),
      s.OwnsKwe u ∧ u.val < 8 ∧ s.gorse.kwe.len = 32 ∧ s.gorse.drk = true)
    ∧ (∃ (u : Fin 10) (s : State),
      s.OwnsKwe u ∧ u.val < 8 ∧ s.gorse.kwe.len = 40 ∧ s.gorse.drk = true)
    ∧ (∃ (u : Fin 10) (handle : BitVec 12) (s : State),
      let c := handle.toNat - 256
      s.OwnsKwe u ∧ u.val < 8 ∧ 256 ≤ handle.toNat ∧ c < 64 ∧ (s.chan c).owner = u ∧ s.gorse.kwe.len = 40 ∧ Tab.get none s.gorse.ps u ≠ none)
    ∧ (∃ (u : Fin 10) (s : State),
      s.OwnsKwe u)
    ∧ (∃ (u : Fin 10) (c : Chan) (s : State),
      s.OwnsKwe u ∧ u.val = 8 ∧ s.gorse.kwe.len = 0 ∧ Tab.get none s.gorse.kek c ≠ none)
    ∧ (∃ (u : Fin 10) (c : Chan) (b : Bool) (s : State),
      s.OwnsKwe u ∧ u.val = 8 ∧ s.gorse.kwe.len = 40 ∧ (b = true ∨ Tab.get none s.gorse.kek c ≠ none))
    ∧ (∃ (u : Fin 10) (s : State),
      ¬ s.OwnsKwe u)
    ∧ (∃ (s : State) (j : Nat × Nat × Nat),
      s.gorse.kwe.job = some (1, j) ∧ s.gorse.kwe.owner ≠ 8)
    ∧ (∃ (s : State) (j : Nat × Nat × Nat),
      s.gorse.kwe.job = some (2, j) ∧ s.gorse.kwe.owner ≠ 8)
    ∧ (∃ (s : State) (j : Nat × Nat × Nat),
      s.gorse.kwe.job = some (3, j) ∧ s.gorse.kwe.owner ≠ 8)
    ∧ (∃ (s : State) (j : Nat × Nat × Nat),
      s.gorse.kwe.job = some (4, j) ∧ s.gorse.kwe.owner ≠ 8)
    ∧ (∃ (s : State) (j : Nat × Nat × Nat),
      s.gorse.kwe.job = some (5, j) ∧ s.gorse.kwe.owner ≠ 8)
    ∧ (∃ (s : State) (j : Nat × Nat × Nat),
      s.gorse.kwe.job = some (6, j) ∧ s.gorse.kwe.owner ≠ 8)
    ∧ (∃ (s : State) (j : Nat × Nat × Nat),
      let u := s.gorse.kwe.owner
      s.gorse.kwe.job = some (7, j) ∧ u ≠ 8)
    ∧ (∃ (s : State) (c : Nat) (a : Nat) (b : Nat) (ps : BitVec 256),
      s.gorse.kwe.job = some (8, c, a, b) ∧ s.gorse.kwe.owner ≠ 8 ∧ Tab.get none s.gorse.ps s.gorse.kwe.owner = some ps)
    ∧ (∃ (s : State),
      s.gorse.kwe.job = none) :=
  ⟨⟨0, (rdy.updGorse fun g => { g with kwe := { g.kwe with owner := 0, len := 32 }, drk := true }), by decide⟩,
   ⟨0, (rdy.updGorse fun g => { g with kwe := { g.kwe with owner := 0, len := 32 }, drk := true }), by and_intros <;> decide⟩,
   ⟨0, (rdy.updGorse fun g => { g with kwe := { g.kwe with owner := 0, len := 40 }, drk := true }), by and_intros <;> decide⟩,
   ⟨0, 256, (rdy.updGorse fun g => { g with kwe := { g.kwe with owner := 0, len := 40 }, ps := [(0, some 1)] }), by decide, by and_intros <;> decide⟩,
   ⟨0, (rdy.updGorse fun g => { g with kwe := { g.kwe with owner := 0 } }), by decide⟩,
   ⟨8, 0, (rdy.updGorse fun g => { g with kwe := { g.kwe with owner := 8 }, kek := [(0, some 1)] }), by and_intros <;> decide⟩,
   ⟨8, 0, true, (rdy.updGorse fun g => { g with kwe := { g.kwe with owner := 8, len := 40 }, kek := [(0, some 1)] }), by and_intros <;> decide⟩,
   ⟨0, (rdy.updGorse fun g => { g with kwe := { g.kwe with owner := 1 } }), by decide⟩,
   ⟨(rdy.updGorse fun g => { g with kwe := { g.kwe with owner := 0, job := some (1, 0, 0, 0), len := 32 }, ps := [(0, some 1)] }), (0, 0, 0), by decide, by decide⟩,
   ⟨(rdy.updGorse fun g => { g with kwe := { g.kwe with owner := 0, job := some (2, 0, 0, 0), len := 32 }, ps := [(0, some 1)] }), (0, 0, 0), by decide, by decide⟩,
   ⟨(rdy.updGorse fun g => { g with kwe := { g.kwe with owner := 0, job := some (3, 0, 0, 0), len := 40 }, ps := [(0, some 1)] }), (0, 0, 0), by decide, by decide⟩,
   ⟨(rdy.updGorse fun g => { g with kwe := { g.kwe with owner := 0, job := some (4, 0, 0, 0), len := 32 }, ps := [(0, some 1)] }), (0, 0, 0), by decide, by decide⟩,
   ⟨(rdy.updGorse fun g => { g with kwe := { g.kwe with owner := 0, job := some (5, 0, 0, 0), len := 40 }, ps := [(0, some 1)] }), (0, 0, 0), by decide, by decide⟩,
   ⟨(rdy.updGorse fun g => { g with kwe := { g.kwe with owner := 0, job := some (6, 0, 0, 0), len := 32 }, ps := [(0, some 1)] }), (0, 0, 0), by decide, by decide⟩,
   ⟨(rdy.updGorse fun g => { g with kwe := { g.kwe with owner := 0, job := some (7, 0, 0, 0), len := 40 }, ps := [(0, some 1)] }), (0, 0, 0), by decide, by decide⟩,
   ⟨(rdy.updGorse fun g => { g with kwe := { g.kwe with owner := 0, job := some (8, 0, 0, 0), len := 40 }, ps := [(0, some 1)] }), 0, 0, 0, 1, by and_intros <;> decide⟩,
   ⟨(rdy.updGorse fun g => { g with kwe := { g.kwe with owner := 0 } }), by decide⟩⟩

/-- Every clause of TimeDomainAndPresentedTimeCommandsApply has a state and operands that meet its premises. -/
theorem witness_TimeDomainAndPresentedTimeCommandsApply :
    (∃ (hd : CmdHdr) (p : List Byte) (s : State),
      let c : RawCmd := ⟨0x0701, hd, p⟩
      let d := u8 p 0
      let i := u8 p 1
      s.Takes c 0 ∧ p.length = 2 ∧ hd.ep = 0 ∧ d ≤ 1 ∧ (i = 255 ∨ (i < 64 ∧ (s.dom (1 - d)).chan ≠ some i)))
    ∧ (∃ (hd : CmdHdr) (p : List Byte) (s : State),
      let c : RawCmd := ⟨0x0702, hd, p⟩
      let d := u8 p 0
      s.Takes c 0 ∧ p.length = 24 ∧ hd.ep = 0 ∧ d ≤ 1 ∧ 1 ≤ u32 p 4 ∧ u32 p 4 ≤ 10000 ∧ 1 ≤ u32 p 8 ∧ u32 p 8 ≤ 1000 ∧ 10 ≤ u32 p 12 ∧ u32 p 12 ≤ 100000 ∧ 1000 ≤ u32 p 16 ∧ u32 p 16 ≤ 60000 ∧ 100 ≤ u32 p 20 ∧ u32 p 20 ≤ 1000000 ∧ ZeroAt p [(1, 3)])
    ∧ (∃ (hd : CmdHdr) (p : List Byte) (s : State),
      let c : RawCmd := ⟨0x0703, hd, p⟩
      s.Takes c 0 ∧ p.length = 12 ∧ hd.ep = 0 ∧ u8 p 0 ≤ 2 ∧ u8 p 1 ≤ 1 ∧ u16 p 2 ≤ 3600 ∧ 1 ≤ u32 p 4 ∧ u32 p 4 ≤ 1000 ∧ 1 ≤ u32 p 8 ∧ u32 p 8 ≤ 1000000)
    ∧ (∃ (hd : CmdHdr) (p : List Byte) (s : State),
      let c : RawCmd := ⟨0x0704, hd, p⟩
      s.Takes c 0 ∧ p.length = 1 ∧ hd.ep = 0 ∧ u8 p 0 ≤ 1 ∧ s.time.waiting = true)
    ∧ (∃ (hd : CmdHdr) (p : List Byte) (s : State),
      let c : RawCmd := ⟨0x0705, hd, p⟩
      s.Takes c 0 ∧ p.length = 12 ∧ hd.ep = 0 ∧ u32 p 6 ≤ 999999999 ∧ (s.dom 0).ph ≠ .locked ∧ (s.dom 1).ph ≠ .locked)
    ∧ (∃ (hd : CmdHdr) (s : State),
      let c : RawCmd := ⟨0x0706, hd, []⟩
      s.Takes c 64)
    ∧ (∃ (hd : CmdHdr) (p : List Byte) (s : State),
      let c : RawCmd := ⟨0x0707, hd, p⟩
      let i := u8 p 1
      s.Takes c 96 ∧ p.length = 3 ∧ hd.ep = 0 ∧ u8 p 0 = 0 ∧ i ≤ 1 ∧ u8 p 2 ≤ 1)
    ∧ (∃ (hd : CmdHdr) (p : List Byte) (s : State),
      let c : RawCmd := ⟨0x0707, hd, p⟩
      let i := u8 p 1
      s.Takes c 16 ∧ p.length = 3 ∧ u8 p 0 = 1 ∧ i ≤ 7 ∧ (s.trig i).owner = hd.ep ∧ u8 p 2 ≤ 1)
    ∧ (∃ (hd : CmdHdr) (p : List Byte) (s : State),
      let c : RawCmd := ⟨0x0707, hd, p⟩
      let i := u8 p 1
      s.Takes c 8 ∧ p.length = 3 ∧ u8 p 0 = 2 ∧ i ≤ 3 ∧ (s.capt i).owner = hd.ep ∧ u8 p 2 ≤ 1)
    ∧ (∃ (hd : CmdHdr) (p : List Byte) (s : State),
      let c : RawCmd := ⟨0x0707, hd, p⟩
      let k := hd.ep.val
      s.Takes c 8 ∧ p.length = 3 ∧ u8 p 0 = 3 ∧ u8 p 1 = k ∧ u8 p 2 ≤ 1)
    ∧ (∃ (hd : CmdHdr) (p : List Byte) (s : State),
      let c : RawCmd := ⟨0x0707, hd, p⟩
      let i := u8 p 1
      s.Takes c 16 ∧ p.length = 3 ∧ u8 p 0 = 4 ∧ s.macOwner i = hd.ep ∧ u8 p 2 ≤ 1) :=
  ⟨⟨hdr, pay 2 [], rdy, takes_of (by decide), by and_intros <;> decide⟩,
   ⟨hdr, pay 24 ([(4, 10), (8, 100), (12, 232), (13, 3), (16, 136), (17, 19)] ++ [(20, 232), (21, 3)]), rdy, takes_of (by decide), by and_intros <;> decide⟩,
   ⟨hdr, pay 12 [(4, 10), (8, 100)], rdy, takes_of (by decide), by and_intros <;> decide⟩,
   ⟨hdr, pay 1 [], rdy.updTime fun t => { t with waiting := true }, takes_of (by decide), by and_intros <;> decide⟩,
   ⟨hdr, pay 12 [], rdy, takes_of (by decide), by and_intros <;> decide⟩,
   ⟨hdr, rdy, takes_of (by decide)⟩,
   ⟨hdr, pay 3 [], rdy, takes_of (by decide), by and_intros <;> decide⟩,
   ⟨hdr, pay 3 [(0, 1)], rdy, takes_of (by decide), by and_intros <;> decide⟩,
   ⟨hdr, pay 3 [(0, 2)], rdy, takes_of (by decide), by and_intros <;> decide⟩,
   ⟨hdr, pay 3 [(0, 3)], rdy, takes_of (by decide), by and_intros <;> decide⟩,
   ⟨hdr, pay 3 [(0, 4)], rdy, takes_of (by decide), by and_intros <;> decide⟩⟩

/-- Every clause of TimeOutputAndGateCommandsApply has a state and operands that meet its premises. -/
theorem witness_TimeOutputAndGateCommandsApply :
    (∃ (hd : CmdHdr) (p : List Byte) (s : State),
      let c : RawCmd := ⟨0x0708, hd, p⟩
      s.Takes c 0 ∧ p.length = 8 ∧ hd.ep = 0 ∧ u8 p 0 ≤ 1 ∧ u8 p 1 ≤ 1 ∧ u8 p 2 ≤ 2 ∧ 1 ≤ u32 p 4 ∧ u32 p 4 ≤ 500000 ∧ ZeroAt p [(3, 1)])
    ∧ (∃ (hd : CmdHdr) (p : List Byte) (s : State),
      let c : RawCmd := ⟨0x0709, hd, p⟩
      s.Takes c 0 ∧ p.length = 8 ∧ hd.ep = 0 ∧ u8 p 0 ≤ 1 ∧ u8 p 1 ≤ 2 ∧ u8 p 4 ≤ 3 ∧ ZeroAt p [(5, 3)])
    ∧ (∃ (hd : CmdHdr) (p : List Byte) (s : State),
      let c : RawCmd := ⟨0x070A, hd, p⟩
      let i := u8 p 0
      let mode := u8 p 1
      let per := u64 p 16
      let w := u64 p 24
      s.Takes c 0 ∧ p.length = 44 ∧ i ≤ 7 ∧ (s.trig i).owner = hd.ep ∧ mode ≤ 1 ∧ u8 p 2 ≤ 1 ∧ u8 p 3 = 255 ∧ u32 p 10 ≤ 999999999 ∧ (per = 0 ∨ (655360 ≤ w ∧ if mode = 0 then w ≤ 32768000000000
            else 65536000 ≤ per ∧ per ≤ 65536000000000 ∧ w + 655360 ≤ per)))
    ∧ (∃ (hd : CmdHdr) (p : List Byte) (s : State),
      let c : RawCmd := ⟨0x070A, hd, p⟩
      let i := u8 p 0
      let per := u64 p 16
      let w := u64 p 24
      let n := (65536000000 + per / 2) / per
      s.Takes c 0 ∧ p.length = 44 ∧ i ≤ 7 ∧ (s.trig i).owner = hd.ep ∧ u8 p 1 = 2 ∧ (s.chan (u8 p 3)).owner = hd.ep ∧ u8 p 2 ≤ 1 ∧ u8 p 3 < 64 ∧ u32 p 10 ≤ 999999999 ∧ (per = 0 ∨ (1 ≤ n ∧ n ≤ 1000 ∧ per * n ≤ 65536000000 + n ∧ 65536000000 ≤ per * n + n
            ∧ 65536000 ≤ per ∧ per ≤ 65536000000000 ∧ 655360 ≤ w ∧ w + 655360 ≤ per ∧ u64 p 36 < per)))
    ∧ (∃ (hd : CmdHdr) (p : List Byte) (s : State),
      let c : RawCmd := ⟨0x070B, hd, p⟩
      let i := u8 p 0
      s.Takes c 0 ∧ p.length = 3 ∧ i ≤ 3 ∧ (s.capt i).owner = hd.ep ∧ u8 p 1 ≤ 1 ∧ u8 p 2 ≤ 2)
    ∧ (∃ (hd : CmdHdr) (p : List Byte) (s : State),
      let c : RawCmd := ⟨0x070C, hd, p⟩
      let m := u8 p 0
      s.Takes c 0 ∧ p.length = 12 ∧ s.macOwner m = hd.ep ∧ u8 p 1 ≤ 2 ∧ -65536 ≤ i32 p 4 ∧ i32 p 4 ≤ 65535 ∧ -65536 ≤ i32 p 8 ∧ i32 p 8 ≤ 65535 ∧ ZeroAt p [(2, 2)] ∧ (u8 p 1 = 2 ∨ ∀ y ∈ s.time.ptp, y.2.en = true → y.2.mac ≠ m))
    ∧ (∃ (hd : CmdHdr) (p : List Byte) (s : State),
      let c : RawCmd := ⟨0x070D, hd, p⟩
      let i := u8 p 0
      s.Takes c 0 ∧ p.length = 12 ∧ hd.ep = 0 ∧ i ≤ 63 ∧ u8 p 1 ≤ 1 ∧ -7 ≤ i8 p 4 ∧ i8 p 4 ≤ 0 ∧ -3 ≤ i8 p 5 ∧ i8 p 5 ≤ 3 ∧ u8 p 6 ≤ 1 ∧ ZeroAt p [(7, 1)] ∧ (u8 p 1 = 0 ∨ (s.mac (u8 p 2)).tsMode = 2))
    ∧ (∃ (hd : CmdHdr) (p : List Byte) (s : State),
      let c : RawCmd := ⟨0x070E, hd, p⟩
      s.Takes c 0 ∧ p.length = 12 ∧ u64 p 0 % 4096 = 0 ∧ (u64 p 0 = 0 ∨ (8 ≤ u8 p 8 ∧ u8 p 8 ≤ 20)) ∧ u8 p 9 ≤ 15 ∧ ZeroAt p [(10, 2)])
    ∧ (∃ (hd : CmdHdr) (p : List Byte) (s : State),
      let c : RawCmd := ⟨0x070F, hd, p⟩
      let m := u8 p 0
      let n := u16 p 2
      s.Takes c 0 ∧ n ≤ 256 ∧ p.length = 20 + 8 * n ∧ s.macOwner m = hd.ep ∧ u32 p 10 ≤ 999999999 ∧ 1000 ≤ u32 p 16 ∧ (∀ i < n, 64 ≤ u32 p (24 + 8 * i)) ∧ ZeroAt p ((1, 1) :: (List.range n).map fun i => (21 + 8 * i, 3)))
    ∧ (∃ (hd : CmdHdr) (p : List Byte) (s : State),
      let c : RawCmd := ⟨0x0710, hd, p⟩
      let m := u8 p 0
      let x := s.mac m
      let run := gateBytes m x.gate
      let reply := leBytes 4 run.length ++ run ++ (match x.gateNext with
            | some (g, t) => timeBytes t ++ gateBytes m g
            | none => zeros 12 ++ gateBytes m none)
      s.Takes c reply.length ∧ p.length = 1 ∧ s.macOwner m = hd.ep) :=
  ⟨⟨hdr, pay 8 [(4, 232), (5, 3)], rdy, takes_of (by decide), by and_intros <;> decide⟩,
   ⟨hdr, pay 8 [], rdy, takes_of (by decide), by and_intros <;> decide⟩,
   ⟨hdr, pay 44 [(3, 255)], rdy, takes_of (by decide), by and_intros <;> decide⟩,
   ⟨hdr, pay 44 [(1, 2)], rdy, takes_of (by decide), by and_intros <;> decide⟩,
   ⟨hdr, pay 3 [], rdy, takes_of (by decide), by and_intros <;> decide⟩,
   ⟨hdr, pay 12 [], rdy, takes_of (by decide), by and_intros <;> decide⟩,
   ⟨hdr, pay 12 [], rdy, takes_of (by decide), by and_intros <;> decide⟩,
   ⟨hdr, pay 12 [], rdy, takes_of (by decide), by and_intros <;> decide⟩,
   ⟨hdr, pay 28 [(2, 1), (16, 232), (17, 3), (24, 232), (25, 3), (20, 3)], rdy, takes_of (by decide), by and_intros <;> decide⟩,
   ⟨hdr, pay 1 [], rdy, takes_of (by decide), by decide, by decide⟩⟩

/-- Every clause of TimeSourcesAndGateListsMoveOn has a state and operands that meet its premises. -/
theorem witness_TimeSourcesAndGateListsMoveOn :
    (∃ (d : DomId) (s : State) (c : Nat),
      (s.dom d).chan = some c)
    ∧ (∃ (d : DomId) (s : State),
      (s.dom d).chan = none)
    ∧ (∃ (m : Mac) (s : State) (g : Option GateList) (at_ : TimeVal),
      (s.mac m).gateNext = some (g, at_))
    ∧ (∃ (m : Mac) (s : State),
      (s.mac m).gateNext = none)
    ∧ (∃ (m : Mac) (s : State) (g : GateList),
      (s.mac m).gate = some g ∧ (s.mac m).gateIdx < g.count)
    ∧ (∃ (m : Mac) (s : State),
      (s.mac m).gate = none) :=
  ⟨⟨0, rdy.updDom 0 fun d => { d with chan := some 0, ph := .locked }, 0, by decide⟩,
   ⟨0, rdy, by decide⟩,
   ⟨0, rdy.updMac 0 fun x => { x with gateNext := some (some { base := 0, cycle := 1000, entries := [(1, 500), (2, 500)] }, 0) }, some { base := 0, cycle := 1000, entries := [(1, 500), (2, 500)] }, 0, by decide⟩,
   ⟨0, rdy, by decide⟩,
   ⟨0, rdy.updMac 0 fun x => { x with gate := some { base := 0, cycle := 1000, entries := [(1, 500), (2, 500)] } }, { base := 0, cycle := 1000, entries := [(1, 500), (2, 500)] }, by decide, by decide⟩,
   ⟨0, rdy, by decide⟩⟩

/-- Every clause of TimeOutputsAndCapturesAct has a state and operands that meet its premises. -/
theorem witness_TimeOutputsAndCapturesAct :
    (∃ (s : State),
      s.time.ppsSquelch ≤ 2)
    ∧ (∃ (i : Fin 8) (s : State) (t : TimeVal),
      let x := s.trig i
      (x.mode ≠ 2 ∨ (s.operating x.chan = true ∧ s.synced x.chan = true) ∨ (s.chan x.chan).tc.st = .doze) ∧ x.next = some t)
    ∧ (∃ (i : Fin 8) (s : State),
      (s.trig i).mode ≠ 2 ∧ (s.trig i).next = none)
    ∧ (∃ (i : Fin 4) (rising : Bool) (s : State),
      (s.capt i).en = true ∧ ((s.capt i).edge = 2 ∨ (s.capt i).edge = (if rising then 0 else 1)) ∧ (s.capt i).pend.length < 64)
    ∧ (∃ (i : Fin 4) (rising : Bool) (s : State),
      (s.capt i).en = true ∧ ((s.capt i).edge = 2 ∨ (s.capt i).edge = (if rising then 0 else 1)) ∧ 64 ≤ (s.capt i).pend.length)
    ∧ (∃ (i : Fin 4) (s : State),
      (s.capt i).en = false)
    ∧ (∃ (i : Fin 64) (s : State),
      s.ptpRuns i = true)
    ∧ (∃ (i : Fin 64) (s : State),
      s.ptpRuns i = true)
    ∧ (∃ (i : Fin 64) (s : State),
      s.ptpRuns i = false) :=
  ⟨⟨rdy.updTime fun t => { t with ppsEn := true, ppsSquelch := 0 }, by decide⟩,
   ⟨0, rdy.updTrig 0 fun x => { x with mode := 1, period := 65536000, width := 6553600, start := 0 }, (rdy.updTrig 0 fun x => { x with mode := 1, period := 65536000, width := 6553600, start := 0 }).trig 0 |>.next.getD 0, by decide, by decide⟩,
   ⟨0, rdy, by decide, by decide⟩,
   ⟨0, true, rdy.updCapt 0 fun x => { x with en := true }, by and_intros <;> decide⟩,
   ⟨0, true, rdy.updCapt 0 fun x => { x with en := true, pend := List.replicate 64 { rising := true, t := 0, pstate := 0, unsure := false } }, by and_intros <;> decide⟩,
   ⟨0, rdy, by decide⟩,
   ⟨0, rdy.updPtp 0 fun x => { x with en := true }, by decide⟩,
   ⟨0, rdy.updPtp 0 fun x => { x with en := true }, by decide⟩,
   ⟨0, rdy, by decide⟩⟩

/-- Every clause of TributaryCommandsApply has a state and operands that meet its premises. -/
theorem witness_TributaryCommandsApply :
    (∃ (hd : CmdHdr) (p : List Byte) (s : State),
      let c : RawCmd := ⟨0x0801, hd, p⟩
      let i := u8 p 0
      let a := u8 p 1
      let b := bindAt p
      s.Takes c 0 ∧ (s.pdom 217).inReset = false ∧ p.length = 6 ∧ i < 64 ∧ (s.chan i).owner = hd.ep ∧ 1 ≤ a ∧ a ≤ 63 ∧ u8 p 2 ≤ 2 ∧ (u8 p 2 = 1 → 1 ≤ u8 p 3 ∧ u8 p 3 ≤ 64 ∧ u16 p 4 + u8 p 3 ≤ 2048) ∧ (∀ o ∈ (s.chan i).trib.binds, o.1 ≠ a → b.clash o.2 = false) ∧ s.members i a = [])
    ∧ (∃ (hd : CmdHdr) (p : List Byte) (s : State),
      let c : RawCmd := ⟨0x0802, hd, p⟩
      let i := u16 p 0
      let x := s.stream i
      let y : StreamSt := { x with
            en := u8 p 2 == 1, up := u8 p 3 == 1, chan := u8 p 4, partSlots := u8 p 5, slots := u16 p 6, mac := u8 p 8, cls := u8 p 9
            etype := BitVec.ofNat 16 (u16 p 10), da := BitVec.ofNat 48 (beVal (slice p 12 6))
            vlan := if bitAt p 18 0 then some (BitVec.ofNat 16 (u16 p 20)) else none, parts := [] }
      s.Takes c 0 ∧ (s.pdom 217).inReset = false ∧ p.length = 24 ∧ i < 4096 ∧ u8 p 2 ≤ 1 ∧ u8 p 3 ≤ 1 ∧ u8 p 4 < 64 ∧ 1 ≤ u8 p 5 ∧ u8 p 5 ≤ 7 ∧ 1 ≤ u16 p 6 ∧ u16 p 6 ≤ 2048 ∧ u8 p 9 ≤ 7 ∧ 0x0600 ≤ u16 p 10 ∧ u8 p 18 ≤ 1 ∧ ZeroAt p [(19, 1), (22, 2)] ∧ s.macOwner (u8 p 8) = hd.ep ∧ (s.chan (u8 p 4)).owner = hd.ep ∧ (x.en = false ∨ (s.macOwner x.mac = hd.ep ∧ (s.chan x.chan).owner = hd.ep ∧ x.up = y.up ∧ x.chan = y.chan
            ∧ x.partSlots = y.partSlots ∧ x.slots = y.slots ∧ x.mac = y.mac ∧ x.etype = y.etype)))
    ∧ (∃ (hd : CmdHdr) (p : List Byte) (s : State),
      let c : RawCmd := ⟨0x0803, hd, p⟩
      let k := hd.ep.val
      let page := u8 p 0 == 1
      let first := u32 p 4
      let n := u16 p 8
      let es := (List.range n).map fun i => (first + i, connAt p i)
      s.Takes c 0 ∧ (s.pdom 217).inReset = false ∧ 1 ≤ n ∧ n ≤ 8190 ∧ p.length = 16 + 8 * n ∧ u8 p 0 ≤ 1 ∧ ZeroAt p [(1, 3), (10, 6)] ∧ (∀ f ∈ connRsvBad p n, f.1 = false) ∧ first + n ≤ s.quota k 4 ∧ (∀ e ∈ es, connValid e.2 = true → (s.chan (connChan e.2)).owner = k
            ∧ ((s.stream (connStream e.2)).en = true → s.macOwner (s.stream (connStream e.2)).mac = k)) ∧ (∀ e ∈ es, s.connBars page e.2 = false ∧ s.connBars page (Tab.get 0 s.trib.conn (connIdx page k e.1)) = false))
    ∧ (∃ (hd : CmdHdr) (p : List Byte) (s : State),
      let c : RawCmd := ⟨0x0805, hd, p⟩
      let i := u8 p 0
      s.Takes c 0 ∧ (s.pdom 217).inReset = false ∧ p.length = 1 ∧ i < 64 ∧ (s.chan i).owner = hd.ep ∧ s.firstInconsistent i (!(s.chan i).trib.page) = none)
    ∧ (∃ (hd : CmdHdr) (p : List Byte) (s : State),
      let c : RawCmd := ⟨0x0806, hd, p⟩
      let i := u8 p 0
      s.Takes c 0 ∧ (s.pdom 217).inReset = false ∧ p.length = 1 ∧ i < 64 ∧ (s.chan i).owner = hd.ep)
    ∧ (∃ (hd : CmdHdr) (p : List Byte) (s : State),
      let c : RawCmd := ⟨0x0804, hd, p⟩
      let k := hd.ep.val
      let first := u32 p 4
      let n := u16 p 8
      let reply := (List.range n).flatMap fun i => leBytes 8 (Tab.get 0 s.trib.conn (connIdx (u8 p 0 == 1) k (first + i))).toNat
      s.Takes c reply.length ∧ (s.pdom 217).inReset = false ∧ p.length = 10 ∧ u8 p 0 ≤ 1 ∧ ZeroAt p [(1, 3)] ∧ 1 ≤ n ∧ n ≤ 8192 ∧ first + n ≤ s.quota k 4)
    ∧ (∃ (hd : CmdHdr) (p : List Byte) (s : State),
      let c : RawCmd := ⟨0x0807, hd, p⟩
      let i := u16 p 2
      s.Takes c 88 ∧ (s.pdom 217).inReset = false ∧ p.length = 5 ∧ u8 p 0 = 0 ∧ ZeroAt p [(1, 1)] ∧ i < 64 ∧ (s.chan i).owner = hd.ep ∧ u8 p 4 ≤ 1)
    ∧ (∃ (hd : CmdHdr) (p : List Byte) (s : State),
      let c : RawCmd := ⟨0x0807, hd, p⟩
      let i := u16 p 2
      s.Takes c 56 ∧ (s.pdom 217).inReset = false ∧ p.length = 5 ∧ u8 p 0 = 1 ∧ ZeroAt p [(1, 1)] ∧ i < 4096 ∧ s.macOwner (s.stream i).mac = hd.ep ∧ u8 p 4 ≤ 1)
    ∧ (∃ (hd : CmdHdr) (p : List Byte) (s : State),
      let c : RawCmd := ⟨0x0808, hd, p⟩
      let i := u8 p 0
      s.Takes c 0 ∧ (s.pdom 217).inReset = false ∧ p.length = 2 ∧ hd.ep = 0 ∧ i ≤ 7 ∧ u8 p 1 ≤ 1)
    ∧ (∃ (hd : CmdHdr) (p : List Byte) (s : State),
      let c : RawCmd := ⟨0x0809, hd, p⟩
      let i := u8 p 0
      s.Takes c 24 ∧ (s.pdom 217).inReset = false ∧ p.length = 2 ∧ i < 64 ∧ (s.chan i).owner = hd.ep ∧ u8 p 1 ≤ 1) :=
  ⟨⟨hdr, pay 6 [(1, 1), (2, 1), (3, 4)], rdy, takes_of (by decide), by and_intros <;> decide⟩,
   ⟨hdr, pay 24 [(2, 1), (5, 1), (6, 8), (10, 181), (11, 136)], rdy, takes_of (by decide), by and_intros <;> decide⟩,
   ⟨hdr, pay 24 [(8, 1), (4, 3)], rdy, takes_of (by decide), by and_intros <;> decide⟩,
   ⟨hdr, pay 1 [], rdy, takes_of (by decide), by and_intros <;> decide⟩,
   ⟨hdr, pay 1 [], rdy, takes_of (by decide), by and_intros <;> decide⟩,
   ⟨hdr, pay 10 [(8, 1)], rdy, takes_of (by decide), by and_intros <;> decide⟩,
   ⟨hdr, pay 5 [], rdy, takes_of (by decide), by and_intros <;> decide⟩,
   ⟨hdr, pay 5 [(0, 1)], rdy, takes_of (by decide), by and_intros <;> decide⟩,
   ⟨hdr, pay 2 [], rdy, takes_of (by decide), by and_intros <;> decide⟩,
   ⟨hdr, pay 2 [], rdy, takes_of (by decide), by and_intros <;> decide⟩⟩

/-- Every clause of TributaryAndOdcFramesAreMoved has a state and operands that meet its premises. -/
theorem witness_TributaryAndOdcFramesAreMoved :
    (∃ (c : Chan) (s : State) (w : WholeMf),
      s.alive 217 = true ∧ (s.chan c).trib.whole = some w)
    ∧ (∃ (c : Chan) (s : State),
      let t := (s.chan c).trib
      s.alive 217 = true ∧ t.whole = none ∧ t.begun = true ∧ ((s.chan c).rx.aligned = false ∨ s.operating c = false))
    ∧ (∃ (c : Chan) (s : State),
      (s.chan c).trib.whole = none ∧ (s.alive 217 = false ∨ (s.chan c).trib.begun = false ∨ ((s.chan c).rx.aligned = true ∧ s.operating c = true)))
    ∧ (∃ (c : Chan) (s : State) (w : WholeMf),
      s.alive 217 = false ∧ (s.chan c).trib.whole = some w)
    ∧ (∃ (m : Mac) (f : TribFrame) (s : State) (k : StreamCtr),
      s.tribAccepts m f = true ∧ s.alive 217 = true ∧ s.tribFrameTest (s.stream f.stream.toNat) f = some k)
    ∧ (∃ (m : Mac) (f : TribFrame) (s : State),
      let i := f.stream.toNat
      s.tribAccepts m f = true ∧ s.alive 217 = true ∧ s.tribFrameTest (s.stream i) f = none ∧ (∀ q ∈ (s.stream i).parts,
            (s.tdsOf (s.stream i).chan (q.1 ++ (0 : BitVec 3))).all (fun t => decide ((s.now : Int) ≤ t + 4000000000)) = true))
    ∧ (∃ (m : Mac) (f : TribFrame) (s : State),
      let i := f.stream.toNat
      s.tribAccepts m f = true ∧ s.alive 217 = true ∧ s.tribFrameTest (s.stream i) f = none)
    ∧ (∃ (m : Mac) (f : TribFrame) (s : State),
      (s.tribAccepts m f = false ∨ s.alive 217 = false))
    ∧ (∃ (k : Fin 8) (s : State),
      Tab.get false s.trib.odcOn k = true ∧ s.alive 217 = true)
    ∧ (∃ (k : Fin 8) (s : State),
      (Tab.get false s.trib.odcOn k = false ∨ s.alive 217 = false)) :=
  ⟨⟨0, chanIn .watch fun x => { x with trib := { x.trib with whole := some { num := 1, page := false, at_ := none, slots := [] } } }, { num := 1, page := false, at_ := none, slots := [] }, by decide, by decide⟩,
   ⟨0, chanIn .locked fun x => { x with trib := { x.trib with begun := true } }, by decide, by and_intros <;> decide⟩,
   ⟨0, chanIn .locked, by decide, by decide⟩,
   ⟨0, ({ rdy with pwr := { rdy.pwr with doms := [] } } : State).updChan 0 fun x => { x with trib := { x.trib with whole := some { num := 1, page := false, at_ := none, slots := [] } } }, { num := 1, page := false, at_ := none, slots := [] }, by decide, by decide⟩,
   ⟨0, { tribFrame0 with ver := 2 }, chanIn .watch |>.updStream 0 fun x => { x with en := true, up := true }, .rxBad, by and_intros <;> decide⟩,
   ⟨0, tribFrame0, chanIn .watch |>.updStream 0 fun x => { x with en := true, up := true }, by decide, by and_intros <;> decide⟩,
   ⟨0, tribFrame0, chanIn .watch |>.updStream 0 fun x => { x with en := true, up := true }, by decide, by decide, by decide⟩,
   ⟨0, tribFrame0, rdy, by decide⟩,
   ⟨0, { rdy with trib := { rdy.trib with odcOn := [(0, true)] } }, by decide, by decide⟩,
   ⟨0, rdy, by decide⟩⟩

/-- Every clause of HostFramesMove has a state and operands that meet its premises. -/
theorem witness_HostFramesMove :
    (∃ (m : Mac) (f : HostFrame) (s : State) (k : Nat),
      s.macRuns m = true ∧ s.rxCheck m f = some k)
    ∧ (∃ (m : Mac) (f : HostFrame) (s : State),
      s.macRuns m = true ∧ s.rxCheck m f = none ∧ beVal (Machine.slice f.bytes 12 2) ≠ 0x8808)
    ∧ (∃ (m : Mac) (f : HostFrame) (s : State),
      s.macRuns m = true ∧ s.rxCheck m f = none ∧ beVal (Machine.slice f.bytes 12 2) = 0x8808)
    ∧ (∃ (m : Mac) (s : State),
      s.macRuns m = false)
    ∧ (∃ (m : Mac) (off : Nat) (s : State) (k : Nat) (f : Frame),
      let u := (List.range 8).foldl (fun t k => t.settleHeads (State.egressQ m k)) s
      s.macRuns m = true ∧ (s.mac m).txEnd ≤ s.now + 100 * off ∧ u.nextClass m off = some (k, f))
    ∧ (∃ (m : Mac) (off : Nat) (s : State),
      let u := (List.range 8).foldl (fun t k => t.settleHeads (State.egressQ m k)) s
      s.macRuns m = true ∧ (s.mac m).txEnd ≤ s.now + 100 * off ∧ u.nextClass m off = none)
    ∧ (∃ (m : Mac) (off : Nat) (s : State),
      (s.macRuns m = false ∨ s.now + 100 * off < (s.mac m).txEnd)) :=
  ⟨⟨0, { hostFrame0 0 with fcsGood := false }, macUp, 5, by decide, by decide⟩,
   ⟨0, hostFrame0 0, macUp, by and_intros <;> decide⟩,
   ⟨0, hostFrame0 0x8808, macUp, by and_intros <;> decide⟩,
   ⟨0, rdy, by decide⟩,
   ⟨0, 0, macUp.updQueue (State.egressQ 0 3) fun x => { x with frames := [qframe] }, 3, qframe, by decide, by decide, by decide⟩,
   ⟨0, 0, macUp, by decide, by decide, by decide⟩,
   ⟨0, 0, rdy, by decide⟩⟩

/-- Every clause of HostPausesLinksAndSleep has a state and operands that meet its premises. -/
theorem witness_HostPausesLinksAndSleep :
    (∃ (m : Mac) (s : State),
      (s.mac m).link = false ∧ s.macExists m = true ∧ (s.mac m).en = true ∧ (s.port (m / 8)).ph = .awake ∧ s.alive (portDom (m / 8)) = true)
    ∧ (∃ (m : Mac) (s : State),
      ((s.mac m).link = true ∨ s.macExists m = false ∨ (s.mac m).en = false ∨ (s.port (m / 8)).ph ≠ .awake
            ∨ s.alive (portDom (m / 8)) = false))
    ∧ (∃ (m : Mac) (s : State),
      (s.mac m).link = true)
    ∧ (∃ (m : Mac) (s : State),
      (s.mac m).link = false)
    ∧ (∃ (p : PortId) (s : State),
      (s.port p).ph = .quiet ∧ ((s.linksDown p).port p).wakeAfterQuiet = false)
    ∧ (∃ (p : PortId) (s : State),
      (s.port p).ph = .quiet ∧ ((s.linksDown p).port p).wakeAfterQuiet = true)
    ∧ (∃ (p : PortId) (s : State),
      (s.port p).ph = .asleep)
    ∧ (∃ (p : PortId) (s : State),
      (s.port p).ph = .pattern) :=
  ⟨⟨0, rdy.updMac 0 fun x => { x with en := true }, by and_intros <;> decide⟩,
   ⟨0, rdy, by decide⟩,
   ⟨0, macUp, by decide⟩,
   ⟨0, rdy, by decide⟩,
   ⟨0, rdy.updPort 0 fun x => { x with ph := .quiet }, by decide, by decide⟩,
   ⟨0, rdy.updPort 0 fun x => { x with ph := .quiet, wakeAfterQuiet := true }, by decide, by decide⟩,
   ⟨0, rdy.updPort 0 fun x => { x with ph := .asleep }, by decide⟩,
   ⟨0, rdy.updPort 0 fun x => { x with ph := .pattern }, by decide⟩⟩

/-- Every clause of HostPortCommandsApply has a state and operands that meet its premises. -/
theorem witness_HostPortCommandsApply :
    (∃ (hd : CmdHdr) (p : List Byte) (s : State),
      let c : RawCmd := ⟨0x0901, hd, p⟩
      let g := u8 p 0
      let gone := fun (m : Nat) => m / 8 == g && modeHas (s.port g).mode (m % 8) && !modeHas (u8 p 1) (m % 8)
      s.Takes c 0 ∧ (s.pdom (portDom g)).inReset = false ∧ p.length = 2 ∧ g < 32 ∧ (s.port g).owner = hd.ep ∧ u8 p 1 ≤ 3 ∧ (s.port g).ph = .awake ∧ s.macsNamed gone = false ∧ (∀ l ∈ s.lags, ∀ m ∈ l.2.members, gone m = false))
    ∧ (∃ (hd : CmdHdr) (p : List Byte) (s : State),
      let c : RawCmd := ⟨0x0902, hd, p⟩
      let m := u8 p 0
      s.Takes c 0 ∧ (s.pdom (portDom (m / 8))).inReset = false ∧ p.length = 16 ∧ s.macOwner m = hd.ep ∧ u8 p 1 ≤ 1 ∧ u8 p 2 ≤ 2 ∧ 64 ≤ u16 p 10 ∧ u16 p 10 ≤ 16383 ∧ 1 ≤ u16 p 12 ∧ u8 p 14 ≤ 1 ∧ ZeroAt p [(15, 1)] ∧ s.macExists m = true)
    ∧ (∃ (hd : CmdHdr) (p : List Byte) (s : State),
      let c : RawCmd := ⟨0x0906, hd, p⟩
      let g := u8 p 0
      s.Takes c 4 ∧ (s.pdom (portDom g)).inReset = false ∧ p.length = 1 ∧ g < 32 ∧ (s.port g).owner = hd.ep)
    ∧ (∃ (hd : CmdHdr) (p : List Byte) (s : State),
      let c : RawCmd := ⟨0x0907, hd, p⟩
      let m := u8 p 0
      s.Takes c 368 ∧ (s.pdom (portDom (m / 8))).inReset = false ∧ p.length = 1 ∧ s.macOwner m = hd.ep)
    ∧ (∃ (hd : CmdHdr) (p : List Byte) (s : State),
      let c : RawCmd := ⟨0x0903, hd, p⟩
      let g := u8 p 0
      s.Takes c 0 ∧ (s.pdom (portDom g)).inReset = false ∧ p.length = 4 ∧ g < 32 ∧ (s.port g).owner = hd.ep ∧ u8 p 1 ≤ 1 ∧ 10 ≤ u16 p 2 ∧ u16 p 2 ≤ 100)
    ∧ (∃ (hd : CmdHdr) (p : List Byte) (s : State),
      let c : RawCmd := ⟨0x0904, hd, p⟩
      let g := u8 p 0
      s.Takes c 0 ∧ (s.pdom (portDom g)).inReset = false ∧ p.length = 1 ∧ g < 32 ∧ (s.port g).owner = hd.ep ∧ (s.port g).ph = .awake ∧ (s.macsNamed fun m => m / 8 == g) = false)
    ∧ (∃ (hd : CmdHdr) (p : List Byte) (s : State),
      let c : RawCmd := ⟨0x0905, hd, p⟩
      let g := u8 p 0
      s.Takes c 0 ∧ (s.pdom (portDom g)).inReset = false ∧ p.length = 1 ∧ g < 32 ∧ (s.port g).owner = hd.ep) :=
  ⟨⟨hdr, pay 2 [], rdy, takes_of (by decide), by and_intros <;> decide⟩,
   ⟨hdr, pay 16 [(10, 220), (11, 5), (12, 100)], rdy, takes_of (by decide), by and_intros <;> decide⟩,
   ⟨hdr, pay 1 [], rdy, takes_of (by decide), by and_intros <;> decide⟩,
   ⟨hdr, pay 1 [], rdy, takes_of (by decide), by and_intros <;> decide⟩,
   ⟨hdr, pay 4 [(2, 20)], rdy, takes_of (by decide), by and_intros <;> decide⟩,
   ⟨hdr, pay 1 [], rdy, takes_of (by decide), by and_intros <;> decide⟩,
   ⟨hdr, pay 1 [], rdy, takes_of (by decide), by and_intros <;> decide⟩⟩

/-- Every clause of LaneCommandsApply has a state and operands that meet its premises. -/
theorem witness_LaneCommandsApply :
    (∃ (hd : CmdHdr) (p : List Byte) (s : State),
      let c : RawCmd := ⟨0x0A02, hd, p⟩
      let l := u16 p 0
      let taps := bitAt p 2 0
      let chan := bitAt p 2 1
      s.Takes c 0 ∧ s.laneHeld l = false ∧ p.length = 16 ∧ l < 512 ∧ s.laneOwner l = hd.ep ∧ u8 p 2 ≤ 3 ∧ ZeroAt p [(3, 1), (13, 1)] ∧ (taps = true → (i8 p 4).natAbs + (i8 p 5).natAbs + (i8 p 6).natAbs + (i8 p 7).natAbs ≤ 64 ∧ 32 ≤ i8 p 6) ∧ (chan = true → l < 256 ∧ isPerm ((slice p 8 4).map (·.toNat)) = true ∧ u8 p 12 ≤ 15 ∧ 200 ≤ u16 p 14 ∧ u16 p 14 ≤ 2000))
    ∧ (∃ (hd : CmdHdr) (p : List Byte) (s : State),
      let c : RawCmd := ⟨0x0A03, hd, p⟩
      let l := u16 p 0
      s.Takes c 0 ∧ s.laneHeld l = false ∧ p.length = 8 ∧ l < 512 ∧ s.laneOwner l = hd.ep ∧ u8 p 2 ≤ 1 ∧ ZeroAt p [(3, 1)] ∧ 1 ≤ u32 p 4 ∧ u32 p 4 ≤ 1000)
    ∧ (∃ (hd : CmdHdr) (p : List Byte) (s : State),
      let c : RawCmd := ⟨0x0A04, hd, p⟩
      let l := u16 p 0
      s.Takes c 0 ∧ s.laneHeld l = false ∧ p.length = 6 ∧ l < 512 ∧ s.laneOwner l = hd.ep ∧ u8 p 2 ≤ 4 ∧ (u8 p 3 ≤ 8 ∨ u8 p 3 = 255) ∧ (u8 p 4 ≤ 8 ∨ u8 p 4 = 255) ∧ u8 p 5 ≤ 3 ∧ s.testBarred l = false)
    ∧ (∃ (hd : CmdHdr) (p : List Byte) (s : State),
      let c : RawCmd := ⟨0x0A05, hd, p⟩
      let l := u16 p 0
      let form := u8 p 2
      s.Takes c 0 ∧ s.laneHeld l = false ∧ p.length = 6 ∧ l < 512 ∧ s.laneOwner l = hd.ep ∧ form ≤ 2 ∧ (form = 1 → 1 ≤ u8 p 3 ∧ u8 p 3 ≤ 64) ∧ (form = 2 → u8 p 4 ≤ 9 ∧ (u8 p 4 = 0 ∨ (3 ≤ u8 p 5 ∧ u8 p 5 ≤ 12))) ∧ (s.lane l).test = 1)
    ∧ (∃ (hd : CmdHdr) (p : List Byte) (s : State),
      let c : RawCmd := ⟨0x0A06, hd, p⟩
      let l := u16 p 0
      s.Takes c 0 ∧ s.laneHeld l = false ∧ p.length = 12 ∧ l < 512 ∧ s.laneOwner l = hd.ep ∧ u8 p 2 ≤ 2 ∧ 16 ≤ u8 p 3 ∧ u8 p 3 ≤ 36 ∧ -32 ≤ i8 p 4 ∧ i8 p 4 ≤ i8 p 5 ∧ i8 p 5 ≤ 31 ∧ 1 ≤ u8 p 6 ∧ -127 ≤ i8 p 8 ∧ i8 p 8 ≤ i8 p 9 ∧ 1 ≤ u8 p 10 ∧ ZeroAt p [(7, 1), (11, 1)] ∧ (s.lane l).scan = none)
    ∧ (∃ (hd : CmdHdr) (p : List Byte) (s : State),
      let c : RawCmd := ⟨0x0A01, hd, p⟩
      let l := u16 p 0
      s.Takes c 8 ∧ s.laneHeld l = false ∧ p.length = 2 ∧ l < 512 ∧ s.laneOwner l = hd.ep)
    ∧ (∃ (hd : CmdHdr) (p : List Byte) (s : State),
      let c : RawCmd := ⟨0x0A07, hd, p⟩
      let l := u16 p 0
      s.Takes c 96 ∧ s.laneHeld l = false ∧ p.length = 3 ∧ l < 512 ∧ s.laneOwner l = hd.ep ∧ u8 p 2 ≤ 1) :=
  ⟨⟨hdr, pay 16 [], rdy, takes_of (by decide), by and_intros <;> decide⟩,
   ⟨hdr, pay 8 [(4, 10)], rdy, takes_of (by decide), by and_intros <;> decide⟩,
   ⟨hdr, pay 6 [], rdy, takes_of (by decide), by and_intros <;> decide⟩,
   ⟨hdr, pay 6 [], rdy.updLane 0 fun x => { x with test := 1 }, takes_of (by decide), by and_intros <;> decide⟩,
   ⟨hdr, pay 12 [(3, 16), (6, 1), (10, 1)], rdy, takes_of (by decide), by and_intros <;> decide⟩,
   ⟨hdr, pay 2 [], rdy, takes_of (by decide), by and_intros <;> decide⟩,
   ⟨hdr, pay 3 [], rdy, takes_of (by decide), by and_intros <;> decide⟩⟩

/-- Every clause of BlockLockAndMarkersAreFollowed has a state and operands that meet its premises. -/
theorem witness_BlockLockAndMarkersAreFollowed :
    (∃ (l : LaneId) (s : State),
      let x := s.lane l
      l.val < 256 ∧ x.blockLock = true)
    ∧ (∃ (l : LaneId) (s : State),
      (256 ≤ l.val ∨ (s.lane l).blockLock = false)) :=
  ⟨⟨0, (chanIn .watch).updLane 0 fun x => { x with blockLock := true, badMarkers := 3 }, by decide, by decide⟩,
   ⟨0, rdy, by decide⟩⟩

/-- Every clause of DetectorsAndLaneTestsReport has a state and operands that meet its premises. -/
theorem witness_DetectorsAndLaneTestsReport :
    (∃ (l : LaneId) (s : State),
      s.rxAlive l = true ∧ (s.lane l).los = false)
    ∧ (∃ (l : LaneId) (s : State),
      s.rxAlive l = true ∧ (s.lane l).los = true)
    ∧ (∃ (l : LaneId) (s : State),
      s.rxAlive l = true ∧ (s.lane l).lol = false)
    ∧ (∃ (l : LaneId) (s : State),
      s.rxAlive l = true ∧ (s.lane l).lol = true)
    ∧ (∃ (l : LaneId) (on : Bool) (s : State),
      (s.rxAlive l = false ∨ (s.lane l).los = on))
    ∧ (∃ (l : LaneId) (on : Bool) (s : State),
      (s.rxAlive l = false ∨ (s.lane l).lol = on))
    ∧ (∃ (c : Chan) (s : State),
      (s.chan c).rx.felos = false)
    ∧ (∃ (c : Chan) (s : State),
      (s.chan c).rx.felos = true)
    ∧ (∃ (c : Chan) (on : Bool) (s : State),
      (s.chan c).rx.felos = on)
    ∧ (∃ (l : LaneId) (s : State) (hd : CmdHdr) (n : Nat),
      (s.lane l).scan = some (hd, n))
    ∧ (∃ (l : LaneId) (s : State),
      (s.lane l).scan = none)
    ∧ (∃ (result : List Byte),
      result.length ≤ 65536)
    ∧ (∃ (c : Chan) (s : State),
      (s.chan c).cfg.fePoll = true ∧ (s.chan c).tc.opened = true ∧ s.fw.ready = true)
    ∧ (∃ (c : Chan) (s : State),
      ((s.chan c).cfg.fePoll = false ∨ (s.chan c).tc.opened = false ∨ s.fw.ready = false)) :=
  ⟨⟨0, rdy, by decide, by decide⟩,
   ⟨0, rdy.updLane 0 fun x => { x with los := true }, by decide, by decide⟩,
   ⟨0, rdy, by decide, by decide⟩,
   ⟨0, rdy.updLane 0 fun x => { x with lol := true }, by decide, by decide⟩,
   ⟨0, false, rdy, by decide⟩,
   ⟨0, false, rdy, by decide⟩,
   ⟨0, rdy, by decide⟩,
   ⟨0, rdy.updRx 0 fun x => { x with felos := true }, by decide⟩,
   ⟨0, false, rdy, by decide⟩,
   ⟨0, rdy.updLane 0 fun x => { x with scan := some (hdr, 2) }, hdr, 2, by decide⟩,
   ⟨0, rdy, by decide⟩,
   ⟨[], by decide⟩,
   ⟨0, chanIn .watch fun x => { x with cfg := { x.cfg with fePoll := true } }, by and_intros <;> decide⟩,
   ⟨0, rdy, by decide⟩⟩

/-- Every clause of PowerCommandsApply has a state and operands that meet its premises. -/
theorem witness_PowerCommandsApply :
    (∃ (hd : CmdHdr) (p : List Byte) (s : State),
      let c : RawCmd := ⟨0x0B01, hd, p⟩
      let rails := (List.range 6).map fun r => u32 p (4 * r)
      let slews := (List.range 6).map fun r => u32 p (28 + 4 * r)
      let w := u32 p 24
      s.Takes c 0 ∧ p.length = 52 ∧ hd.ep = 0 ∧ 60 ≤ w ∧ w ≤ 740 ∧ (∀ r < 6, railMax.getD r 0 ≤ 10 * rails.getD r 0 ∧ rails.getD r 0 ≤ railMax.getD r 0 ∧ 500 ≤ slews.getD r 0
            ∧ slews.getD r 0 ≤ 64000) ∧ (∀ r < 6, s.slewFloor25 0 r ≤ 25 * slews.getD r 0 ∧ s.ledgers.getD r 0 ≤ rails.getD r 0) ∧ s.powerTotal s.ledgers ≤ w * 10000000)
    ∧ (∃ (hd : CmdHdr) (s : State),
      let c : RawCmd := ⟨0x0B02, hd, []⟩
      s.Takes c 0 ∧ hd.ep = 0 ∧ s.pwr.seated = true)
    ∧ (∃ (hd : CmdHdr) (p : List Byte) (s : State),
      let c : RawCmd := ⟨0x0B05, hd, p⟩
      let d := u8 p 0
      s.Takes c 0 ∧ p.length = 2 ∧ hd.ep = 0 ∧ (d = 2 ∨ (132 ≤ d ∧ d ≤ 217 ∧ d ≠ 216)) ∧ u8 p 1 ≤ 1 ∧ s.domBusy d = false)
    ∧ (∃ (hd : CmdHdr) (p : List Byte) (s : State),
      let c : RawCmd := ⟨0x0B05, hd, p⟩
      let d := u8 p 0
      s.Takes c 0 ∧ p.length = 2 ∧ hd.ep = 0 ∧ (d = 2 ∨ (132 ≤ d ∧ d ≤ 217 ∧ d ≠ 216)) ∧ u8 p 1 = 2 ∧ d ∈ s.rst.heldDom)
    ∧ (∃ (hd : CmdHdr) (p : List Byte) (s : State),
      let c : RawCmd := ⟨0x0B03, hd, p⟩
      let a := u8 p 0
      let n := u8 p 1
      let reply := ((List.range n).flatMap fun i => leBytes 8 (s.pdom (a + i)).energy) ++ leBytes 8 s.pwr.baseEnergy
            ++ (List.range 8).flatMap fun r => leBytes 8 (Ctrs.get s.pwr.railEnergy r)
      s.Takes c reply.length ∧ p.length = 2 ∧ 1 ≤ n ∧ a + n ≤ 218 ∧ (∀ i < n, s.seesDom hd.ep (a + i) = true))
    ∧ (∃ (hd : CmdHdr) (s : State),
      let c : RawCmd := ⟨0x0B04, hd, []⟩
      s.Takes c 2032) :=
  ⟨⟨hdr, pay 52 ([(0, 224), (1, 147), (2, 4), (4, 160), (5, 134), (6, 1)] ++ [(8, 64), (9, 13), (10, 3), (12, 32), (13, 78), (16, 64)] ++ [(17, 156), (20, 96), (21, 234), (24, 188), (25, 2), (28, 160)] ++ [(29, 15), (32, 160), (33, 15), (36, 160), (37, 15), (40, 160)] ++ [(41, 15), (44, 160), (45, 15), (48, 160), (49, 15)]), rdy, takes_of (by decide), by and_intros <;> decide⟩,
   ⟨hdr, rdy, takes_of (by decide), by decide, by decide⟩,
   ⟨hdr, pay 2 [(0, 164)], rdy, takes_of (by decide), by and_intros <;> decide⟩,
   ⟨hdr, pay 2 [(0, 164), (1, 2)], rdy.updRst fun r => { r with heldDom := [164] }, takes_of (by decide), by and_intros <;> decide⟩,
   ⟨hdr, pay 2 [(1, 2)], rdy, takes_of (by decide), by and_intros <;> decide⟩,
   ⟨hdr, rdy, takes_of (by decide)⟩⟩

/-- Every clause of CardRailsTripsAndEmergency has a state and operands that meet its premises. -/
theorem witness_CardRailsTripsAndEmergency :
    (∃ (s : State),
      s.pwr.seated = false)
    ∧ (∃ (s : State),
      s.pwr.seated = true)
    ∧ (∃ (s : State),
      s.pwr.seated = true)
    ∧ (∃ (s : State),
      s.pwr.seated = false)
    ∧ (∃ (r : Fin 8),
      r.val < 6)
    ∧ (∃ (r : Fin 8),
      6 ≤ r.val)
    ∧ (∃ (s : State) (n : Nat),
      s.pwr.emergency = some n)
    ∧ (∃ (s : State),
      s.pwr.emergency = none) :=
  ⟨⟨(rdy.updPwr fun p => { p with seated := false }).updPdom 1 fun p => { p with inReset := true }, by decide⟩,
   ⟨rdy, by decide⟩,
   ⟨chanIn .watch, by decide⟩,
   ⟨rdy.updPwr fun p => { p with seated := false }, by decide⟩,
   ⟨0, by decide⟩,
   ⟨6, by decide⟩,
   ⟨rdy.updPwr fun p => { p with emergency := some 15 }, 15, by decide⟩,
   ⟨rdy, by decide⟩⟩

/-- Every clause of ResetSourcesAssertAndRelease has a state and operands that meet its premises. -/
theorem witness_ResetSourcesAssertAndRelease :
    (∃ (s : State),
      s.rst.blanking = true)
    ∧ (∃ (s : State),
      s.rst.blanking = true)
    ∧ (∃ (s : State),
      s.rst.blanking = false) :=
  ⟨⟨rdy.updRst fun r => { r with blanking := true }, by decide⟩,
   ⟨rdy.updRst fun r => { r with blanking := true }, by decide⟩,
   ⟨rdy, by decide⟩⟩

/-- Every clause of WatchdogStrapsAndDeviceReset has a state and operands that meet its premises. -/
theorem witness_WatchdogStrapsAndDeviceReset :
    (∃ (s : State),
      s.mgmt.wdogArmed = true)
    ∧ (∃ (s : State),
      s.mgmt.wdogArmed = false)
    ∧ (∃ (s : State),
      s.rst.devReset = some 0)
    ∧ (∃ (s : State),
      s.rst.devReset = some 1)
    ∧ (∃ (s : State),
      s.rst.devReset = none)
    ∧ (∃ (s : State),
      (s.pdom 0).stretching = true)
    ∧ (∃ (d : DomainId) (s : State),
      d.val ≠ 0 ∧ (s.pdom d).stretching = true)
    ∧ (∃ (d : DomainId) (s : State),
      (s.pdom d).stretching = false) :=
  ⟨⟨rdy.updMgmt fun m => { m with wdogArmed := true }, by decide⟩,
   ⟨rdy, by decide⟩,
   ⟨rdy.updRst fun r => { r with devReset := some 0 }, by decide⟩,
   ⟨rdy.updRst fun r => { r with devReset := some 1 }, by decide⟩,
   ⟨rdy, by decide⟩,
   ⟨rdy.updPdom 0 fun p => { p with stretching := true, inReset := true }, by decide⟩,
   ⟨5, rdy.updPdom 5 fun p => { p with stretching := true, inReset := true }, by decide, by decide⟩,
   ⟨5, rdy, by decide⟩⟩

/-- Every clause of FirmwareCommandsApply has a state and operands that meet its premises. -/
theorem witness_FirmwareCommandsApply :
    (∃ (hd : CmdHdr) (p : List Byte) (s : State),
      let c : RawCmd := ⟨0x0E01, hd, p⟩
      let slot := if bitAt p 0 0 then s.fw.recov else s.fw.target
      let len := p.length - 8
      s.Takes c 0 ∧ 9 ≤ p.length ∧ p.length ≤ 61448 ∧ hd.ep = 0 ∧ u8 p 0 ≤ 1 ∧ ZeroAt p [(1, 3)] ∧ u32 p 4 + len ≤ slotSize ∧ State.overlaps slot (u32 p 4) len = false ∧ s.updating = false)
    ∧ (∃ (hd : CmdHdr) (p : List Byte) (s : State),
      let c : RawCmd := ⟨0x0E02, hd, p⟩
      s.Takes c 0 ∧ p.length = 1 ∧ hd.ep = 0 ∧ u8 p 0 ≤ 1 ∧ s.updating = false)
    ∧ (∃ (hd : CmdHdr) (p : List Byte) (s : State) (g : PackageInfo),
      let c : RawCmd := ⟨0x0E03, hd, p⟩
      s.Takes c 0 ∧ p.length = 4 ∧ hd.ep = 0 ∧ u8 p 0 ≤ 3 ∧ (bitAt p 0 1 = true → bitAt p 0 0 = true ∧ u16 p 2 = 65535) ∧ ZeroAt p [(1, 1)] ∧ s.fw.target.verified = some g ∧ s.fw.svn ≤ g.svn ∧ s.updating = false)
    ∧ (∃ (hd : CmdHdr) (s : State),
      let c : RawCmd := ⟨0x0E05, hd, []⟩
      s.Takes c 0 ∧ hd.ep = 0 ∧ s.fw.pushed = false ∧ recoveryPasses s = true ∧ s.updating = false)
    ∧ (∃ (hd : CmdHdr) (p : List Byte) (s : State),
      let c : RawCmd := ⟨0x0E07, hd, p⟩
      s.Takes c 0 ∧ p.length = 32 ∧ s.quoting = false)
    ∧ (∃ (hd : CmdHdr) (s : State),
      let c : RawCmd := ⟨0x0E04, hd, []⟩
      let f := s.fw
      let slot := if f.target.verified.isSome then 2 else if f.target.written.isEmpty then 0 else 1
      let reply := [BitVec.ofNat 8 f.bootSlot, BitVec.ofNat 8 slot, BitVec.ofNat 8 f.lastReason, 0]
            ++ leBytes 8 ((f.pkg.map (·.imgVer.toNat)).getD 0) ++ leBytes 8 ((f.target.verified.map (·.imgVer.toNat)).getD 0)
            ++ Machine.slice s.bootRecBytes 0 16 ++ s.imageDigests
      s.Takes c reply.length)
    ∧ (∃ (hd : CmdHdr) (p : List Byte) (s : State),
      let c : RawCmd := ⟨0x0E06, hd, p⟩
      let named := (List.range 50).filter fun i => (BitVec.ofNat 64 (u64 p 0)).getLsbD i
      s.Takes c 0 ∧ p.length = 24 ∧ hd.ep = 0 ∧ u64 p 0 < 2 ^ 50 ∧ (∀ i ∈ named, (s.pin i).locked = false))
    ∧ (∃ (hd : CmdHdr) (s : State),
      let c : RawCmd := ⟨0x0E08, hd, []⟩
      s.Takes c 65536) :=
  ⟨⟨hdr, pay 100 [], rdy, takes_of (by decide), by and_intros <;> decide⟩,
   ⟨hdr, pay 1 [], rdy, takes_of (by decide), by and_intros <;> decide⟩,
   ⟨hdr, pay 4 [], rdy.updFw fun f => { f with target := { written := [(0, 8)], verified := some pkg0 } }, pkg0, takes_of (by decide), by and_intros <;> decide⟩,
   ⟨hdr, rdy.updFw fun f => { f with recov := { verified := some pkg0 } }, takes_of (by decide), by and_intros <;> decide⟩,
   ⟨hdr, pay 32 [], rdy, takes_of (by decide), by decide, by decide⟩,
   ⟨hdr, rdy, takes_of (by decide)⟩,
   ⟨hdr, pay 24 [], rdy, takes_of (by decide), by and_intros <;> decide⟩,
   ⟨hdr, rdy, takes_of (by decide)⟩⟩

/-- Every clause of CandidatesBootAndClustersJoin has a state and operands that meet its premises. -/
theorem witness_CandidatesBootAndClustersJoin :
    (∃ (s : State) (slot : Nat) (rest : List Nat),
      s.alive 1 = true ∧ s.fw.cands = slot :: rest)
    ∧ (∃ (s : State),
      (s.alive 1 = false ∨ s.fw.cands = []))
    ∧ (∃ (k : Fin 16) (s : State),
      s.alive (engDom k) = true)
    ∧ (∃ (k : Fin 16) (s : State),
      s.alive (engDom k) = true)
    ∧ (∃ (k : Fin 16) (s : State),
      s.alive (engDom k) = false) :=
  ⟨⟨rdy.updFw fun f => { f with ready := false, cands := [0, 1] }, 0, [1], by decide, by decide⟩,
   ⟨rdy.updFw fun f => { f with ready := false, cands := [] }, by decide⟩,
   ⟨0, rdy.updFw fun f => { f with actMgmt := false, actClusters := [0], absent := [0] }, by decide⟩,
   ⟨0, rdy.updFw fun f => { f with actMgmt := false, actClusters := [0] }, by decide⟩,
   ⟨0, State.reset, by decide⟩⟩

/-- Every clause of DrbgActivationAndOperationResults has a state and operands that meet its premises. -/
theorem witness_DrbgActivationAndOperationResults :
    (∃ (s : State) (o : AsyncOp),
      s.openOp 0x0E01 = some o ∧ o.opcode = 0x0E01)
    ∧ (∃ (reason : Byte) (img : PkgImage) (s : State) (o : AsyncOp),
      let code := s.verifyCode (reason.toNat != 1) img slotSize false
      s.openOp 0x0E02 = some o ∧ o.opcode = 0x0E02 ∧ s.passesSpoiled o code = false)
    ∧ (∃ (s : State) (o : AsyncOp),
      s.openOp 0x0E05 = some o ∧ o.opcode = 0x0E05)
    ∧ (∃ (s : State) (o : AsyncOp),
      s.openOp 0x0E07 = some o ∧ o.opcode = 0x0E07)
    ∧ (∃ (op : BitVec 16) (status : BitVec 16) (s : State) (o : AsyncOp),
      s.openOp op.toNat = some o ∧ (op = 0x0E01 ∨ op = 0x0E05) ∧ (status = 0x17 ∨ status = 0x20))
    ∧ (∃ (status : BitVec 16) (s : State) (o : AsyncOp),
      s.openOp 0x0E03 = some o ∧ status ≠ 0 ∧ asyncStatus status.toNat = true)
    ∧ (∃ (op : BitVec 16) (s : State),
      s.openOp op.toNat = none) :=
  ⟨⟨rdy.updFw fun f => { f with ops := [{ opcode := 0x0E01, hdr, arg := zeros 9 }] }, { opcode := 0x0E01, hdr, arg := zeros 9 }, by decide, by decide⟩,
   ⟨0, img0, rdy.updFw fun f => { f with ops := [{ opcode := 0x0E02, hdr, arg := zeros 9 }] }, { opcode := 0x0E02, hdr, arg := zeros 9 }, by decide, by decide, by decide⟩,
   ⟨rdy.updFw fun f => { f with ops := [{ opcode := 0x0E05, hdr, arg := zeros 9 }] }, { opcode := 0x0E05, hdr, arg := zeros 9 }, by decide, by decide⟩,
   ⟨rdy.updFw fun f => { f with ops := [{ opcode := 0x0E07, hdr, arg := zeros 9 }] }, { opcode := 0x0E07, hdr, arg := zeros 9 }, by decide, by decide⟩,
   ⟨0x0E01, 0x17, rdy.updFw fun f => { f with ops := [{ opcode := 0x0E01, hdr, arg := zeros 9 }] }, { opcode := 0x0E01, hdr, arg := zeros 9 }, by and_intros <;> decide⟩,
   ⟨0x17, rdy.updFw fun f => { f with ops := [{ opcode := 0x0E03, hdr, arg := zeros 4 }] }, { opcode := 0x0E03, hdr, arg := zeros 4 }, by and_intros <;> decide⟩,
   ⟨0x0E01, rdy, by decide⟩⟩

/-- Every clause of ManagementCommandsApply has a state and operands that meet its premises. -/
theorem witness_ManagementCommandsApply :
    (∃ (hd : CmdHdr) (s : State),
      let c : RawCmd := ⟨0x0D01, hd, []⟩
      s.Takes c 164)
    ∧ (∃ (hd : CmdHdr) (p : List Byte) (s : State),
      let c : RawCmd := ⟨0x0D02, hd, p⟩
      s.Takes c 0 ∧ p.length = 2 ∧ hd.ep = 0 ∧ 60 ≤ u8 p 0 ∧ u8 p 0 < u8 p 1 ∧ u8 p 1 ≤ 110)
    ∧ (∃ (hd : CmdHdr) (p : List Byte) (s : State),
      let c : RawCmd := ⟨0x0D03, hd, p⟩
      let it := fun (a : AlarmSt) => a.code = u16 p 0 ∧ a.kind = u8 p 2 ∧ a.idx = u16 p 4
      s.Takes c 0 ∧ p.length = 6 ∧ hd.ep = 0 ∧ u8 p 2 ≤ 9 ∧ ZeroAt p [(3, 1)] ∧ (∃ a ∈ s.mgmt.alarms, it a ∧ a.sev = 3 ∧ a.present = false ∧ a.listed = true))
    ∧ (∃ (hd : CmdHdr) (p : List Byte) (s : State),
      let c : RawCmd := ⟨0x0D04, hd, p⟩
      let l := (s.mgmt.log.filter fun r => decide (0 ≤ (BitVec.ofNat 32 r.seq - BitVec.ofNat 32 (u32 p 0)).toInt)
            && r.parts.contains hd.ep.val).take (u16 p 4)
      let reply := leBytes 4 ((l.head?.map (·.seq)).getD (u32 p 0)) ++ leBytes 4 l.length ++ l.flatMap EvRec.bytes
      s.Takes c reply.length ∧ p.length = 6 ∧ 1 ≤ u16 p 4 ∧ u16 p 4 ≤ 2047)
    ∧ (∃ (hd : CmdHdr) (p : List Byte) (s : State),
      let c : RawCmd := ⟨0x0D05, hd, p⟩
      let reply := ((List.range (u16 p 2)).filterMap fun i => s.flogAge (u16 p 0 + i)).flatMap EvRec.bytes
      s.Takes c reply.length ∧ p.length = 4 ∧ hd.ep = 0 ∧ u16 p 0 ≤ 4095 ∧ 1 ≤ u16 p 2 ∧ u16 p 2 ≤ 2047)
    ∧ (∃ (hd : CmdHdr) (p : List Byte) (s : State),
      let c : RawCmd := ⟨0x0D06, hd, p⟩
      s.Takes c 0 ∧ p.length = 4 ∧ hd.ep = 0 ∧ 10 ≤ u32 p 0 ∧ u32 p 0 ≤ 10000) :=
  ⟨⟨hdr, rdy, takes_of (by decide)⟩,
   ⟨hdr, pay 2 [(0, 80), (1, 90)], rdy, takes_of (by decide), by and_intros <;> decide⟩,
   ⟨hdr, pay 6 [], rdy.updMgmt fun m => { m with alarms := [{ code := 0, sev := 3, kind := 0, idx := 0, present := false, raises := 1, first := 0, parts := [0] }] }, takes_of (by decide), by and_intros <;> decide⟩,
   ⟨hdr, pay 6 [(4, 1)], rdy, takes_of (by decide), by and_intros <;> decide⟩,
   ⟨hdr, pay 4 [(2, 1)], rdy, takes_of (by decide), by and_intros <;> decide⟩,
   ⟨hdr, pay 4 [(0, 232), (1, 3)], rdy, takes_of (by decide), by and_intros <;> decide⟩⟩

/-- Every clause of SamplesRaiseAlarmsAndTheLogIsCopied has a state and operands that meet its premises. -/
theorem witness_SamplesRaiseAlarmsAndTheLogIsCopied :
    (∃ (s : State) (r : EvRec),
      s.mgmt.flogStopped = false ∧ s.fw.ready = true ∧ s.flashNext = some r)
    ∧ (∃ (s : State) (r : EvRec),
      s.mgmt.flogStopped = false ∧ s.fw.ready = true ∧ s.flashNext = some r)
    ∧ (∃ (s : State),
      (s.mgmt.flogStopped = true ∨ s.fw.ready = false ∨ s.flashNext = none)) :=
  ⟨⟨rdy.updMgmt fun m => { m with log := [rec0], gasp := [rec0] }, rec0, by and_intros <;> decide⟩,
   ⟨rdy.updMgmt fun m => { m with log := [rec0], gasp := [rec0] }, rec0, by and_intros <;> decide⟩,
   ⟨rdy.updMgmt fun m => { m with flogStopped := true }, by decide⟩⟩

/-- Every clause of SidebandCommandsAct has a state and operands that meet its premises. -/
theorem witness_SidebandCommandsAct :
    (∃ (s : State),
      s.sbUp = true)
    ∧ (∃ (s : State),
      s.sbUp = true)
    ∧ (∃ (s : State),
      s.sbUp = true)
    ∧ (∃ (s : State),
      s.sbUp = true ∧ (s.fw.ready = true ∨ s.fw.restarting = false ∧ s.alive 1 = true))
    ∧ (∃ (s : State) (x : PushSt),
      s.sbUp = true ∧ (s.fw.ready = true ∨ s.fw.restarting = false ∧ s.alive 1 = true) ∧ s.fw.pushSb = some x)
    ∧ (∃ (s : State) (x : PushSt),
      s.sbUp = true ∧ (s.fw.ready = true ∨ s.fw.restarting = false ∧ s.alive 1 = true) ∧ s.fw.pushSb = some x)
    ∧ (∃ (req : List Byte) (s : State),
      s.sbUp = true ∧ (s.fw.ready = true ∨ s.fw.restarting = false ∧ s.alive 1 = true) ∧ req.length = 2 ∧ u16 req 0 ≤ 4095)
    ∧ (∃ (s : State),
      s.sbUp = true ∧ (s.fw.ready = true ∨ s.fw.restarting = false ∧ s.alive 1 = true))
    ∧ (∃ (req : List Byte) (s : State),
      s.sbUp = true ∧ (s.fw.ready = true ∨ s.fw.restarting = false ∧ s.alive 1 = true) ∧ req.length = 1)
    ∧ (∃ (req : List Byte) (sigOk : Bool) (c : Instr) (s : State),
      s.sbUp = false ∧ c ∈ [Instr.sbRelease, .sbResetWarm, .sbResetCold, .sbPushBegin req, .sbPushData req, .sbPushEnd req sigOk, .sbFlogGet req, .sbBootrecGet,
            .sbAlarmGet req])
    ∧ (∃ (req : List Byte) (sigOk : Bool) (c : Instr) (op : Nat) (s : State),
      s.sbUp = true ∧ s.fw.ready = false ∧ (s.fw.restarting = true ∨ s.alive 1 = false) ∧ (c, op) ∈ [(Instr.sbPushBegin req, 0x01), (.sbPushData req, 0x02), (.sbPushEnd req sigOk, 0x03), (.sbFlogGet req, 0x10),
            (.sbBootrecGet, 0x11), (.sbAlarmGet req, 0x12)])
    ∧ (∃ (req : List Byte) (sigOk : Bool) (c : Instr) (op : Nat) (s : State),
      s.sbUp = true ∧ (s.fw.ready = true ∨ s.fw.restarting = false ∧ s.alive 1 = true) ∧ s.fw.pushSb = none ∧ (c, op) ∈ [(Instr.sbPushData req, 0x02), (.sbPushEnd req sigOk, 0x03)])
    ∧ (∃ (req : List Byte) (s : State) (x : PushSt),
      s.sbUp = true ∧ (s.fw.ready = true ∨ s.fw.restarting = false ∧ s.alive 1 = true) ∧ s.fw.pushSb = some x ∧ req ≠ [])
    ∧ (∃ (req : List Byte) (s : State),
      s.sbUp = true ∧ (s.fw.ready = true ∨ s.fw.restarting = false ∧ s.alive 1 = true) ∧ (req.length ≠ 2 ∨ 4095 < u16 req 0))
    ∧ (∃ (req : List Byte) (s : State),
      s.sbUp = true ∧ (s.fw.ready = true ∨ s.fw.restarting = false ∧ s.alive 1 = true) ∧ req.length ≠ 1) :=
  ⟨⟨rdy, by decide⟩,
   ⟨rdy, by decide⟩,
   ⟨rdy, by decide⟩,
   ⟨rdy.updFw fun f => { f with ready := false, coresHalted := true, recoveryWait := true }, by decide, by decide⟩,
   ⟨rdy.updFw fun f => { f with ready := false, coresHalted := true, recoveryWait := true, pushSb := some { len := 8 } }, { len := 8 }, by and_intros <;> decide⟩,
   ⟨rdy.updFw fun f => { f with ready := false, coresHalted := true, recoveryWait := true, pushSb := some { len := 8 } }, { len := 8 }, by and_intros <;> decide⟩,
   ⟨zeros 2, rdy, by and_intros <;> decide⟩,
   ⟨rdy, by decide, by decide⟩,
   ⟨zeros 1, rdy.updMgmt fun m => { m with alarms := [{ code := 0x1001, sev := 1, kind := 7, idx := 3, present := true, raises := 1, first := 0, parts := [0] }] }, by and_intros <;> decide⟩,
   ⟨[], true, .sbRelease, rdy.updPwr fun p => { p with railGood := [] }, by decide, by decide⟩,
   ⟨[], true, .sbBootrecGet, 0x11, rdy.updFw fun f => { f with ready := false, restarting := true }, by and_intros <;> decide⟩,
   ⟨[], true, .sbPushEnd [] true, 3, rdy, by and_intros <;> decide⟩,
   ⟨[0], rdy.updFw fun f => { f with ready := false, coresHalted := true, recoveryWait := true, pushSb := some { len := 8 } }, { len := 8 }, by and_intros <;> decide⟩,
   ⟨zeros 1, rdy, by and_intros <;> decide⟩,
   ⟨[], rdy, by and_intros <;> decide⟩⟩

/-- Every clause of RingsStartAndStop has a state and operands that meet its premises. -/
theorem witness_RingsStartAndStop :
    (∃ (k : EpId) (v : BitVec 32) (s : State),
      let e := s.ep k
      s.epUp k = true ∧ e.run = true ∧ ((v - e.cmdCi).toNat < (e.cmdPi - e.cmdCi).toNat ∨ 2 ^ e.cmdSize < (v - e.cmdCi).toNat))
    ∧ (∃ (k : EpId) (v : BitVec 32) (cmds : List RawCmd) (s : State),
      let e := s.ep k
      s.epUp k = true ∧ e.run = true ∧ (e.cmdPi - e.cmdCi).toNat ≤ (v - e.cmdCi).toNat ∧ (v - e.cmdCi).toNat ≤ 2 ^ e.cmdSize ∧ (v - e.cmdPi).toNat = (cmds.map State.unitsOf).sum)
    ∧ (∃ (k : EpId) (s : State),
      (s.epUp k = false ∨ (s.ep k).run = false))
    ∧ (∃ (k : EpId) (s : State),
      let e := s.ep k
      s.Still ∧ s.epUp k = true ∧ e.run = false ∧ 11 ≤ e.cmdSize ∧ e.cmdSize ≤ 20 ∧ 11 ≤ e.cmpSize ∧ e.cmpSize ≤ 20 ∧ 11 ≤ e.evtSize ∧ e.evtSize ≤ 20 ∧ e.cmdBase ≠ 0 ∧ e.cmpBase ≠ 0 ∧ e.evtBase ≠ 0 ∧ e.idxBase ≠ 0 ∧ e.held = [])
    ∧ (∃ (k : EpId) (s : State),
      s.epUp k = true ∧ (s.ep k).run = false ∧ State.ringsValid (s.ep k) = false)
    ∧ (∃ (k : EpId) (s : State),
      (s.epUp k = false ∨ (s.ep k).run = true)) :=
  ⟨⟨0, 20000, rdy, by decide, by decide, by decide⟩,
   ⟨0, 1, [cmd0 3], rdy, by decide, by and_intros <;> decide⟩,
   ⟨0, State.reset, by decide⟩,
   ⟨0, rdy.updEp 0 fun e => { e with run := false, cmdBase := 1, cmpBase := 1, evtBase := 1, idxBase := 1 }, still_of (by decide), by and_intros <;> decide⟩,
   ⟨0, rdy.updEp 0 fun e => { e with run := false, cmdSize := 0 }, by and_intros <;> decide⟩,
   ⟨0, rdy, by decide⟩⟩

/-- Every clause of MailboxAndRegistersAct has a state and operands that meet its premises. -/
theorem witness_MailboxAndRegistersAct :
    (∃ (s : State),
      s.mboxFree 0 = true ∧ (s.fw.ready = true ∨ s.alive 1 = true))
    ∧ (∃ (s : State) (x : PushSt),
      s.mboxFree 0 = true ∧ (s.fw.ready = true ∨ s.alive 1 = true) ∧ s.fw.push = some x)
    ∧ (∃ (s : State) (x : PushSt),
      s.mboxFree 0 = true ∧ (s.fw.ready = true ∨ s.alive 1 = true) ∧ s.fw.push = some x)
    ∧ (∃ (req : List Byte) (s : State),
      s.mboxFree 0 = true ∧ (s.fw.ready = true ∨ s.alive 1 = true) ∧ req.length = 2 ∧ u16 req 0 ≤ 4095)
    ∧ (∃ (k : EpId) (s : State),
      s.mboxFree k = true ∧ (s.fw.ready = true ∨ k = 0 ∧ s.alive 1 = true))
    ∧ (∃ (k : EpId) (c : RawCmd) (s : State),
      s.mboxFree k = true ∧ s.fw.ready = true ∧ c.payload.length ≤ 224)
    ∧ (∃ (k : EpId) (req : List Byte) (sigOk : Bool) (r : RawCmd) (c : Instr) (s : State),
      s.mboxFree k = false ∧ c ∈ [Instr.mbxPushBegin k req, .mbxPushData k req, .mbxPushEnd k req sigOk, .mbxFlogGet k req, .mbxBootrecGet k, .mbxCmd k r])
    ∧ (∃ (k : EpId) (req : List Byte) (sigOk : Bool) (x : Instr × Nat × List Byte) (s : State),
      s.mboxFree k = true ∧ s.fw.ready = false ∧ (k ≠ 0 ∨ s.alive 1 = false) ∧ x ∈ [(Instr.mbxPushBegin k req, 0x01, req), (.mbxPushData k req, 0x02, req), (.mbxPushEnd k req sigOk, 0x03, req), (.mbxFlogGet k req, 0x10, req),
            (.mbxBootrecGet k, 0x11, [])])
    ∧ (∃ (k : EpId) (c : RawCmd) (s : State),
      s.mboxFree k = true ∧ (s.fw.ready = false ∨ 224 < c.payload.length))
    ∧ (∃ (k : EpId) (req : List Byte) (sigOk : Bool) (x : Instr × Nat × List Byte) (s : State),
      s.mboxFree k = true ∧ s.fw.ready = true ∧ k ≠ 0 ∧ x ∈ [(Instr.mbxPushBegin k req, 0x01, req), (.mbxPushData k req, 0x02, req), (.mbxPushEnd k req sigOk, 0x03, req)])
    ∧ (∃ (req : List Byte) (sigOk : Bool) (x : Instr × Nat × List Byte) (s : State),
      s.mboxFree 0 = true ∧ (s.fw.ready = true ∨ s.alive 1 = true) ∧ s.fw.push = none ∧ x ∈ [(Instr.mbxPushData 0 req, 0x02, req), (.mbxPushEnd 0 req sigOk, 0x03, req)])
    ∧ (∃ (req : List Byte) (s : State) (x : PushSt),
      s.mboxFree 0 = true ∧ (s.fw.ready = true ∨ s.alive 1 = true) ∧ s.fw.push = some x ∧ req ≠ [])
    ∧ (∃ (k : EpId) (s : State),
      s.mboxFree k = true ∧ s.fw.ready = true ∧ k ≠ 0)
    ∧ (∃ (req : List Byte) (s : State),
      s.mboxFree 0 = true ∧ (s.fw.ready = true ∨ s.alive 1 = true) ∧ (req.length ≠ 2 ∨ 4095 < u16 req 0))
    ∧ (∃ (k : EpId) (s : State),
      s.epUp k = true)
    ∧ (∃ (k : EpId) (s : State),
      s.epUp k = true)
    ∧ (∃ (k : EpId) (s : State),
      s.epUp k = true ∧ s.stopped k = true)
    ∧ (∃ (k : EpId) (off : Nat) (s : State),
      (s.epUp k = false ∨ off % 4 ≠ 0 ∨ s.stopped k = false ∧ 0x40 ≤ off ∧ off < 0x78))
    ∧ (∃ (s : State),
      s.sbUp = true)
    ∧ (∃ (off : Nat) (s : State),
      (s.sbUp = false ∨ off % 4 ≠ 0)) :=
  ⟨⟨rdy.updFw fun f => { f with ready := false, coresHalted := true, recoveryWait := true }, by decide, by decide⟩,
   ⟨rdy.updFw fun f => { f with ready := false, coresHalted := true, recoveryWait := true, push := some { len := 8 } }, { len := 8 }, by and_intros <;> decide⟩,
   ⟨rdy.updFw fun f => { f with ready := false, coresHalted := true, recoveryWait := true, push := some { len := 8 } }, { len := 8 }, by and_intros <;> decide⟩,
   ⟨zeros 2, rdy, by and_intros <;> decide⟩,
   ⟨0, rdy, by decide, by decide⟩,
   ⟨0, cmd0 3, rdy, by and_intros <;> decide⟩,
   ⟨0, [], true, cmd0 3, .mbxBootrecGet 0, State.reset, by decide, by decide⟩,
   ⟨1, [], true, (.mbxBootrecGet 1, 0x11, []), (rdy.updFw fun f => { f with ready := false }).updEp 1 fun e => { e with link := true }, by and_intros <;> decide⟩,
   ⟨0, cmd0 3, rdy.updFw fun f => { f with ready := false }, by decide, by decide⟩,
   ⟨1, [], true, (.mbxPushEnd 1 [] true, 0x03, []), rdy.updEp 1 fun e => { e with link := true }, by and_intros <;> decide⟩,
   ⟨[], true, (.mbxPushEnd 0 [] true, 0x03, []), rdy, by and_intros <;> decide⟩,
   ⟨[0], rdy.updFw fun f => { f with ready := false, coresHalted := true, recoveryWait := true, push := some { len := 8 } }, { len := 8 }, by and_intros <;> decide⟩,
   ⟨1, rdy.updEp 1 fun e => { e with link := true }, by and_intros <;> decide⟩,
   ⟨[], rdy, by and_intros <;> decide⟩,
   ⟨0, rdy, by decide⟩,
   ⟨0, rdy, by decide⟩,
   ⟨0, rdy.updEp 0 fun e => { e with run := false }, by decide, by decide⟩,
   ⟨0, 0x0D, rdy, by decide⟩,
   ⟨rdy, by decide⟩,
   ⟨1, rdy, by decide⟩⟩

/-- Every clause of StepRunsTheFrontCommand has a state and operands that meet its premises. -/
theorem witness_StepRunsTheFrontCommand :
    (∃ (s : State) (c : Instr) (rest : List Instr),
      s.pending = c :: rest)
    ∧ (∃ (s : State),
      s.pending = []) :=
  ⟨⟨{ rdy with pending := [.xaonRunning] }, .xaonRunning, [], by decide⟩,
   ⟨rdy, by decide⟩⟩

/-- Every clause of StaleCommandsAreDiscarded has a state and operands that meet its premises. -/
theorem witness_StaleCommandsAreDiscarded :
    (∃ (s : State) (c : RawCmd),
      let k := c.hdr.ep.val
      let e := s.ep k
      s.Still ∧ s.epUp k = true ∧ e.run = true ∧ s.fw.ready = true ∧ s.rst.devReset = none ∧ e.cmdCi = e.cmdPi ∧ State.unitsOf c ≤ 1025 ∧ State.unitsOf c ≤ 2 ^ e.cmdSize ∧ c.opcode ≠ 1 ∧ c.hdr.epoch ≠ e.epoch)
    ∧ (∃ (s : State) (k : EpId) (c : RawCmd) (rest : List RawCmd),
      (s.ep k).waiting = c :: rest ∧ c.opcode ≠ 1 ∧ c.hdr.epoch ≠ (s.ep k).epoch)
    ∧ (∃ (s : State) (k : EpId) (c : RawCmd) (rest : List RawCmd),
      (s.ep k).kept = c :: rest ∧ (s.ep k).keptOrphan = false ∧ c.opcode ≠ 1 ∧ c.hdr.epoch ≠ (s.ep k).epoch) :=
  ⟨⟨rdy, { cmd0 3 with hdr := { hdr with epoch := 9 } }, still_of (by decide), by and_intros <;> decide⟩,
   ⟨rdy.updEp 0 fun e => { e with waiting := [{ cmd0 3 with hdr := { hdr with epoch := 9 } }] }, 0, { cmd0 3 with hdr := { hdr with epoch := 9 } }, [], by and_intros <;> decide⟩,
   ⟨rdy.updEp 0 fun e => { e with kept := [{ cmd0 3 with hdr := { hdr with epoch := 9 } }] }, 0, { cmd0 3 with hdr := { hdr with epoch := 9 } }, [], by and_intros <;> decide⟩⟩

/-- Every clause of UnlistedOpcodesCompleteWithBadOpcode has a state and operands that meet its premises. -/
theorem witness_UnlistedOpcodesCompleteWithBadOpcode :
    ∃ (s : State) (c : RawCmd),
      s.Takes c 0 ∧ c.opcode.toNat ∉ catalogue :=
  ⟨rdy, cmd0 0x999, takes_of (by decide), by decide⟩

/-- Every clause of RefusedCommandsHaveNoEffect has a state and operands that meet its premises. -/
theorem witness_RefusedCommandsHaveNoEffect :
    ∃ (s : State) (c : RawCmd),
      let r := (s.taken c).applyCmd c
      s.Takes c 0 ∧ c.opcode ≠ 1 ∧ c.opcode ≠ 2 ∧ r.status ≠ stOk ∧ r.status ≠ stPending ∧ r.status ≠ stApplying :=
  ⟨rdy, cmd0 0x201, takes_of (by decide), by and_intros <;> decide⟩

/-- Every clause of CountersSaturate has a state and operands that meet its premises. -/
theorem witness_CountersSaturate :
    (∃ (s : State) (c : Nat) (k : ChanCtr),
      (s.chan c).ctr.get k.ctorIdx ≤ 2 ^ 64 - 1)
    ∧ (∃ (s : State) (c : RawCmd),
      (s.ep c.hdr.ep).cmdPi = 0xFFFFFFFF ∧ State.unitsOf c = 1 ∧ c.hdr.seq = 0xFFFFFFFF) :=
  ⟨⟨rdy, 0, .dsMapRx, by decide⟩,
   ⟨rdy.updEp 0 fun e => { e with cmdPi := 0xFFFFFFFF, cmdCi := 0xFFFFFFFF }, { cmd0 3 with hdr := { hdr with seq := 0xFFFFFFFF } }, by and_intros <;> decide⟩⟩

/-- Every clause of MessagesAreReadAsLaidOut has a state and operands that meet its premises. -/
theorem witness_MessagesAreReadAsLaidOut :
    ∃ (m : DownTcm),
      m.fits = true :=
  ⟨.wakeReq 5, by decide⟩

/-- The premises of RollbackCounterNeverFalls are met by a step that burns fuses. -/
theorem witness_RollbackCounterNeverFalls :
    ∃ s t : State, step s = .next t ∧ t.fw.svn ≠ s.fw.svn ∧ t.fw.svn = 5 :=
  let s := { rdy.updFw (fun f => { f with ops := [{ opcode := 0x0E05, hdr, arg := [] }], pkg := some { pkg0 with svn := 5 } }) with
    pending := [.asyncOperationDone 0x0E05 0 0 img0] }
  ⟨s, _, rfl, by decide, by decide⟩

/-- The premises of LaneBlocksAreReadBack are met. -/
theorem witness_LaneBlocksAreReadBack :
    (∃ bytes : List Byte, bytes.length = 16)
    ∧ (∃ bytes : List Byte, bytes ≠ [] ∧ bytes.length % 64 = 0)
    ∧ (∃ (r : BitVec 58) (bits : List Bool) (i j : Nat), i < bits.length
      ∧ (laneDescramble r ((laneScramble r bits).1.modify i fun b => !b)).1[j]? ≠ bits[j]?)
    ∧ (∃ j : Nat, j < 16384) :=
  ⟨⟨zeros 16, by decide⟩, ⟨zeros 64, by decide, by decide⟩, ⟨5, [true, false], 1, 1, by decide, by decide⟩, ⟨16383, by decide⟩⟩

/-- The premises of CommandsAreReadFromTheRing are met. -/
theorem witness_CommandsAreReadFromTheRing : ∃ c : RawCmd, c.payload.length = 4 ∧ c.payload.length < 2 ^ 32 :=
  ⟨{ cmd0 3 with payload := zeros 4 }, by decide, by decide⟩

/-- The premises of each clause of RegistersAreRead are met. -/
theorem witness_RegistersAreRead :
    (∃ (k : EpId) (off v : Nat) (s t : State), s.bar0Wide k off = some v ∧ s.epUp k = true ∧ t.epUp k = true
      ∧ (t.ep k).latch = ((s.readBar0 k off).2.ep k).latch)
    ∧ (∃ (k : EpId) (s : State), s.epUp k = false)
    ∧ (∃ (k : EpId) (s : State), s.epUp k = true)
    ∧ (∃ (k : EpId) (s : State), s.epUp k = true ∧ s.alive 1 = true ∧ s.gorse.kwe.owner ≠ k.val)
    ∧ (∃ (k : EpId) (s : State), s.epUp k = true ∧ s.alive 1 = true ∧ s.gorse.kwe.owner = k.val) :=
  ⟨⟨0, 0x40, _, rdy, (rdy.readBar0 0 0x40).2, rfl, by decide, by decide, by decide⟩, ⟨0, State.reset, by decide⟩,
   ⟨0, rdy, by decide⟩, ⟨0, rdy.updGorse fun g => { g with kwe := { g.kwe with owner := 1 } }, by decide, by decide, by decide⟩,
   ⟨0, rdy.updGorse fun g => { g with kwe := { g.kwe with owner := 0 } }, by decide, by decide, by decide⟩⟩

/-- FIPS 197, section 5.1.1: SubBytes takes 53 to ED; and back. -/
theorem test_sub_byte : subByte 0x53 = 0xED ∧ unsubByte 0xED = 0x53 := by decide

/-- R384: the pairs 00, 01, 11 and 10 are the levels 0 to 3; the header of a block with marker bit 1 is level 3, with 0 level 1. -/
theorem test_pam4 : pam4 [false, false, false, true, true, true, true, false] = [0, 1, 2, 3] ∧ pam4 (blockHeader true) = [3]
    ∧ pam4 (blockHeader false) = [1] := by decide

end Sys2Proof.Tests
end

/-! PROOF. A stale command is discarded with no effect and no completion, and counted (R524). Whether the ring discards a command or
judges it, the command first goes the same way: posted, fetched, and at the head of a ring with nothing else to do. That way is followed
here for every command, without the epoch, the SEQ, the header and the completion room that `State.Takes` asks for. -/

namespace Sys2Proof.Machine.State

/-! ### What processing does with a stale command -/

/-- What discarding the stale command c changes of its endpoint besides where the command stood: the count (R524), and the expected SEQ
where c is the first command after RUN = 1 and not after a PARTITION reset (R523, R592). -/
def discardStale (c : RawCmd) (e : EpSt) : EpSt := { e with
  expSeq := if e.expSeq = none ∧ e.seqReset = false then some (c.hdr.seq + 1) else e.expSeq
  stale := min (e.stale + 1) 0xFFFFFFFF }

theorem seqAfter_stale {e : EpSt} {c : RawCmd} (hc : c.hdr.epoch ≠ e.epoch) :
    seqAfter e c = if e.expSeq = none ∧ e.seqReset = false then some (c.hdr.seq + 1) else e.expSeq := by
  unfold seqAfter
  cases e.expSeq with
  | none => cases e.seqReset <;> simp [hc]
  | some n => simp [hc]

theorem processHead_stale {s : State} {k : Nat} {c : RawCmd} {rest : List RawCmd} (hw : (s.ep k).waiting = c :: rest)
    (hc : c.hdr.epoch ≠ (s.ep k).epoch) :
    s.processHead k = some (s.updEp k fun e => { discardStale c e with waiting := rest, fetched := e.fetched - 1 }) := by
  unfold processHead
  simp only [hw, ne_eq, hc, not_false_eq_true, if_true, updEp_updEp]
  congr 1
  refine updEp_congr _ _ _ _ ?_
  simp only [seqAfter_stale hc, discardStale]

theorem processKept_stale {s : State} {k : Nat} {c : RawCmd} {rest : List RawCmd} (hk : (s.ep k).kept = c :: rest)
    (ho : (s.ep k).keptOrphan = false) (hc : c.hdr.epoch ≠ (s.ep k).epoch) :
    s.processKept k = some (s.updEp k fun e => { e with kept := rest, stale := min (e.stale + 1) 0xFFFFFFFF }) := by
  have hst : (c.hdr.epoch != (s.ep k).epoch) = true := by simpa using hc
  unfold processKept
  simp only [hk, ho, hst, Bool.false_eq_true, if_false, if_true, updEp_updEp]

/-! ### The way of a posted command to the head of its ring (R519) -/

/-- Command c is fetched the moment it is posted: nothing else waits, its endpoint's registers answer and its rings run (R511, R516), the
management firmware is READY (R486), no DEV.RESET is under way (R548), its command ring is empty and has room for it (R519, R520), and it
is no longer than the longest command (Table 17.8). Its epoch, SEQ and header are whatever they are. -/
structure Fetches (s : State) (c : RawCmd) : Prop where
  still : s.Still
  up : s.epUp c.hdr.ep = true
  run : (s.ep c.hdr.ep).run = true
  ready : s.fw.ready = true
  noReset : s.rst.devReset = none
  empty : (s.ep c.hdr.ep).cmdCi = (s.ep c.hdr.ep).cmdPi
  units : unitsOf c ≤ 1025
  fits : unitsOf c ≤ 2 ^ (s.ep c.hdr.ep).cmdSize

theorem epUp_postedSt (s : State) (c : RawCmd) (k : Nat) : (s.postedSt c).epUp k = s.epUp k := by
  unfold epUp alive powered postedSt
  rw [ep_updEp]
  split
  · next h => subst h; rfl
  · rfl

theorem serving_postedSt {s : State} {c : RawCmd} (h : s.Fetches c) : (s.postedSt c).serving c.hdr.ep = true := by
  have hrun : ((s.postedSt c).ep c.hdr.ep).run = true := by simpa [postedSt] using h.run
  have hready : (s.postedSt c).fw.ready = true := h.ready
  simp [serving, epUp_postedSt, h.up, hrun, hready]

theorem resyncAt_fetchedSt {s : State} {c : RawCmd} (hop : c.opcode ≠ 1) : (s.fetchedSt c).resyncAt c.hdr.ep = none := by
  have : (c.opcode == 1#16) = false := by simpa using hop
  simp [resyncAt, ep_fetchedSt, List.findIdx_cons, this]

/-- A posted command other than RESYNC is fetched and, with nothing before it, processed at once. -/
theorem ringStep_postedSt {s : State} {c : RawCmd} (h : s.Fetches c) (hop : c.opcode ≠ 1) :
    (s.postedSt c).ringStep c.hdr.ep = (s.fetchedSt c).processHead c.hdr.ep := by
  have hi := h.still c.hdr.ep (by simp [allParts])
  obtain ⟨-, -, hkept, happlying, -, -⟩ := id hi
  have hdev : (s.postedSt c).afterDevReset c.hdr.ep = false := by simp [afterDevReset, postedSt, h.noReset]
  have hbar := not_barredPart c.hdr.ep (fetchedSt_applying (c := c) h.still)
  unfold ringStep
  simp [serving_postedSt h, hdev, fetch_postedSt hi h.empty, resyncAt_fetchedSt hop, hbar, ep_fetchedSt, hkept, happlying]

/-- Ringing the doorbell for one command that its ring has room for settles the interface with the command posted (R519, R520). -/
theorem hostPost_eq_settle {s : State} {c : RawCmd} (h : s.Fetches c) : s.hostPost c = (s.postedSt c).settle := by
  have hto : (BitVec.ofNat 32 (unitsOf c)).toNat = unitsOf c :=
    (BitVec.toNat_ofNat _ _).trans (Nat.mod_eq_of_lt (Nat.lt_of_le_of_lt h.units (by decide)))
  have hfits := Nat.not_lt.2 h.fits
  unfold hostPost doDoorbell
  simp [-BitVec.toNat_ofNat, h.up, h.run, h.empty, hto, hfits, wholeIn, postedSt]

/-! ### A stale command that is posted -/

/-- The state once command c has been posted and fetched (R519), and discarded because it is stale (R524). -/
def discarded (s : State) (c : RawCmd) : State :=
  let n := BitVec.ofNat 32 (unitsOf c)
  ((s.updEp c.hdr.ep fun e => { e with cmdPi := e.cmdPi + n, cmdCi := e.cmdPi + n }).writeIndex c.hdr.ep).updEp c.hdr.ep
    (discardStale c)

theorem still_discarded {s : State} (h : s.Still) (c : RawCmd) : (s.discarded c).Still :=
  still_updEp (still_writeIndex (still_updEp h _ _ fun _ => by simp) _) _ _ fun _ => by simp [discardStale]

theorem processHead_fetchedSt_stale {s : State} {c : RawCmd} (h : s.EpIdle c.hdr.ep) (hc : c.hdr.epoch ≠ (s.ep c.hdr.ep).epoch) :
    (s.fetchedSt c).processHead c.hdr.ep = some (s.discarded c) := by
  obtain ⟨hw, hf, -, -, -, -⟩ := h
  rw [processHead_stale (c := c) (rest := []) (by simp [ep_fetchedSt]) (by simpa [ep_fetchedSt] using hc)]
  unfold fetchedSt discarded writeIndex
  simp only [updEp_emit, updEp_updEp, ep_updEp, if_true]
  congr 2
  refine updEp_congr _ _ _ _ ?_
  simp [discardStale, hw, hf]

/-- A stale command that is posted is fetched and discarded at once. -/
theorem hostPost_stale {s : State} {c : RawCmd} (h : s.Fetches c) (hop : c.opcode ≠ 1) (hc : c.hdr.epoch ≠ (s.ep c.hdr.ep).epoch) :
    s.hostPost c = s.discarded c := by
  have hstep : (s.postedSt c).ringStep c.hdr.ep = some (s.discarded c) :=
    (ringStep_postedSt h hop).trans (processHead_fetchedSt_stale (h.still _ (by simp [allParts])) hc)
  rw [hostPost_eq_settle h, settle_posted h.still hstep (still_discarded h.still c)]

end Sys2Proof.Machine.State

namespace Sys2Proof.Machine

/-- Settles O52: a posted command comes to the head of its ring, and the head of a ring and of its kept commands are discarded when they
are stale. -/
theorem staleCommandsAreDiscarded : Obligations.StaleCommandsAreDiscarded := by
  refine ⟨?posted, ?head, ?kept⟩
  case posted =>
    intro s c k e n still up run ready noReset empty units fits hop hc
    exact congrArg Host.Outcome.next (State.hostPost_stale ⟨still, up, run, ready, noReset, empty, units, fits⟩ hop hc)
  case head =>
    intro s k c rest hw _ hc
    exact State.processHead_stale hw hc
  case kept =>
    intro s k c rest hk ho _ hc
    exact State.processKept_stale hk ho hc

end Sys2Proof.Machine

/-! PROOF. An opcode that no table of chapter 18 lists completes with BAD_OPCODE (R546): the catalogue gives it no meaning, so judging the
command at the head of its ring fails before its SEQ, header and payload are looked at (R528). -/

namespace Sys2Proof.Machine

/-- An opcode that no table of chapter 18 lists has no meaning: each of the 118 arms before the last is for a listed one (R546). -/
theorem hostApply_eq_none_of_notMem_catalogue {op : Nat} (h : op ∉ catalogue) (hd : CmdHdr) (p : List Byte) (s : State) :
    hostApply op hd p s = none := by
  unfold hostApply
  split
  case h_119 => rfl
  all_goals exact absurd (by decide) h

end Sys2Proof.Machine

namespace Sys2Proof.Machine.State

theorem opcode_ne_of_notMem_catalogue {c : RawCmd} (h : c.opcode.toNat ∉ catalogue) {op : BitVec 16} (hop : op.toNat ∈ catalogue) :
    c.opcode ≠ op := by
  rintro rfl
  exact h hop

theorem judge_unlisted {c : RawCmd} (h : c.opcode.toNat ∉ catalogue) (s : State) (expected : Option (BitVec 32)) :
    s.judge c expected = fail s stBadOpcode := by
  unfold judge
  rw [hostApply_eq_none_of_notMem_catalogue h]
  rfl

/-- A completion without a reply has the room that a ring taking the command has kept for it (R521). -/
theorem unitsNeeded_fail_le {s : State} {c : RawCmd} (h : s.Takes c 0) (hop : c.opcode ≠ 2) (t : State) (code detail : Nat) :
    unitsNeeded c (fail t code detail) s c.hdr.ep ≤ s.cmpRoom c.hdr.ep := by
  unfold unitsNeeded
  rw [if_neg hop]
  exact h.room

/-- A posted command of an unlisted opcode that its ring takes completes with BAD_OPCODE, and its application never begins. -/
theorem hostPost_unlisted {s : State} {c : RawCmd} (h : s.Takes c 0) (hc : c.opcode.toNat ∉ catalogue) :
    s.hostPost c = (s.taken c).failOf c stBadOpcode := by
  have hresync : c.opcode ≠ 1 := opcode_ne_of_notMem_catalogue hc (by decide)
  have hsummary : c.opcode ≠ 2 := opcode_ne_of_notMem_catalogue hc (by decide)
  have hstep : (s.postedSt c).ringStep c.hdr.ep = some ((s.taken c).failOf c stBadOpcode) :=
    ringStep_posted h hresync (judge_unlisted hc _ _) (unitsNeeded_fail_le h hsummary _ _ _)
  rw [doorbell_posted h, settle_posted h.still hstep (still_finish (still_taken h.still c) _ _ _ _ _)]

end Sys2Proof.Machine.State

namespace Sys2Proof.Machine

/-- Settles O53: a posted command of an unlisted opcode is judged to fail with BAD_OPCODE. -/
theorem unlistedOpcodesCompleteWithBadOpcode : Obligations.UnlistedOpcodesCompleteWithBadOpcode := by
  intro s c htakes hc
  exact congrArg Host.Outcome.next (State.hostPost_unlisted htakes hc)

end Sys2Proof.Machine

/-! PROOF. Byte strings: the values of big-endian and little-endian fields read back, and where a field stands in a layout (R4, R6). -/

namespace Sys2Proof.Machine

@[simp] theorem length_leBytes (n v : Nat) : (leBytes n v).length = n := by
  induction n generalizing v with
  | zero => rfl
  | succ n ih => simp [leBytes, ih]

@[simp] theorem length_beBytes (n v : Nat) : (beBytes n v).length = n := by simp [beBytes]

@[simp] theorem length_zeros (n : Nat) : (zeros n).length = n := List.length_replicate

@[simp] theorem length_slice (bs : List Byte) (off n : Nat) : (slice bs off n).length = n := by
  have : ((bs.drop off).take n).length ≤ n := List.length_take_le _ _
  simp only [slice, List.length_append, List.length_replicate]
  omega

theorem leVal_leBytes (n v : Nat) : leVal (leBytes n v) = v % 256 ^ n := by
  induction n generalizing v with
  | zero => simp [leBytes, leVal, Nat.mod_one]
  | succ n ih =>
    rw [leBytes, leVal, ih, Nat.pow_succ', Nat.mod_mul, BitVec.toNat_ofNat]

theorem beVal_append_singleton (bs : List Byte) (b : Byte) : beVal (bs ++ [b]) = beVal bs * 256 + b.toNat := by simp [beVal]

theorem beVal_reverse (bs : List Byte) : beVal bs.reverse = leVal bs := by
  induction bs with
  | nil => rfl
  | cons b bs ih => rw [List.reverse_cons, beVal_append_singleton, ih, leVal, Nat.mul_comm, Nat.add_comm]

theorem beVal_beBytes (n v : Nat) : beVal (beBytes n v) = v % 256 ^ n := by
  rw [beBytes, beVal_reverse, leVal_leBytes]

/-- A word that as many bytes hold as it is wide loses nothing in them. -/
theorem ofNat_toNat_mod_pow (n w : Nat) (x : BitVec w) (h : w ≤ 8 * n) : BitVec.ofNat w (x.toNat % 256 ^ n) = x := by
  have : x.toNat < 256 ^ n := x.isLt.trans_le (by rw [show 256 = 2 ^ 8 by rfl, ← Nat.pow_mul]; exact Nat.pow_le_pow_right (by decide) h)
  rw [Nat.mod_eq_of_lt this, BitVec.ofNat_toNat, BitVec.setWidth_eq]

theorem ofNat_beVal_beBytes (n w : Nat) (x : BitVec w) (h : w ≤ 8 * n) : BitVec.ofNat w (beVal (beBytes n x.toNat)) = x := by
  rw [beVal_beBytes, ofNat_toNat_mod_pow n w x h]

/-! ### Where a field stands -/

theorem slice_drop (bs : List Byte) (i off n : Nat) : slice (bs.drop i) off n = slice bs (i + off) n := by
  simp only [slice, List.drop_drop]

theorem slice_append_of_length (x y : List Byte) (n : Nat) (h : x.length = n) : slice (x ++ y) 0 n = x := by
  simp [slice, List.take_left' h, h]

theorem slice_self (x : List Byte) (n : Nat) (h : x.length = n) : slice x 0 n = x := by
  simpa using slice_append_of_length x [] n h

theorem slice_append_right (x y : List Byte) (off n : Nat) (h : x.length ≤ off) : slice (x ++ y) off n = slice y (off - x.length) n := by
  rw [slice, slice, List.drop_append, List.drop_eq_nil_of_le h, List.nil_append]

@[simp] theorem slice_beBytes (n v : Nat) : slice (beBytes n v) 0 n = beBytes n v := slice_self _ _ (length_beBytes n v)

@[simp] theorem slice_beBytes_append (n v : Nat) (y : List Byte) : slice (beBytes n v ++ y) 0 n = beBytes n v :=
  slice_append_of_length _ _ _ (length_beBytes n v)

theorem slice_past_beBytes {m off : Nat} (h : m ≤ off) (v n : Nat) (y : List Byte) :
    slice (beBytes m v ++ y) off n = slice y (off - m) n := by
  rw [slice_append_right _ _ _ _ (by simpa using h), length_beBytes]

theorem getD_past_beBytes {m off : Nat} (h : m ≤ off) (v : Nat) (y : List Byte) (d : Byte) :
    (beBytes m v ++ y).getD off d = y.getD (off - m) d := by
  rw [List.getD_append_right _ _ _ _ (by simpa using h), length_beBytes]

@[simp] theorem slice_cons_succ (b : Byte) (x : List Byte) (off n : Nat) : slice (b :: x) (off + 1) n = slice x off n := rfl

@[simp] theorem slice_leBytes_append (n v : Nat) (y : List Byte) : slice (leBytes n v ++ y) 0 n = leBytes n v :=
  slice_append_of_length _ _ _ (length_leBytes n v)

theorem slice_past_leBytes {m off : Nat} (h : m ≤ off) (v n : Nat) (y : List Byte) :
    slice (leBytes m v ++ y) off n = slice y (off - m) n := by
  rw [slice_append_right _ _ _ _ (by simpa using h), length_leBytes]

/-- In a layout of entries of k bytes each, entry i begins at byte k * i. -/
theorem drop_flatMap_block {α : Type} (enc : α → List Byte) (k : Nat) (henc : ∀ e, (enc e).length = k) (es : List α) (i : Nat)
    (hi : i < es.length) : ∃ rest, (es.flatMap enc).drop (k * i) = enc es[i] ++ rest := by
  induction es generalizing i with
  | nil => exact absurd hi (Nat.not_lt_zero i)
  | cons e es ih =>
    cases i with
    | zero => exact ⟨es.flatMap enc, by simp⟩
    | succ i =>
      obtain ⟨rest, hrest⟩ := ih i (by simpa using hi)
      refine ⟨rest, ?_⟩
      rw [List.flatMap_cons, Nat.mul_succ, Nat.add_comm, ← List.drop_drop, List.drop_left' (henc e), hrest]
      rfl

theorem length_flatMap_block {α : Type} (enc : α → List Byte) (k : Nat) (henc : ∀ e, (enc e).length = k) (es : List α) :
    (es.flatMap enc).length = k * es.length := by
  simp [List.length_flatMap, henc, List.map_const', List.sum_replicate, Nat.mul_comm]

end Sys2Proof.Machine

/-! PROOF. Every downstream TCM is read back from its layout (Tables 3.4 to 3.6): each body field by field, and the header and the TCRC
around it. -/

namespace Sys2Proof.Machine

/-- The entries behind the count byte of a TCM are read back, each from its own bytes. -/
theorem map_range_entries {α : Type} (enc : α → List Byte) (k : Nat) (henc : ∀ e, (enc e).length = k) (pre : List Byte) (es : List α)
    (dec : List Byte → α) (hdec : ∀ e rest, dec (enc e ++ rest) = e) :
    (List.range es.length).map (fun i => dec ((pre ++ es.flatMap enc).drop (pre.length + k * i))) = es := by
  refine List.ext_getElem (by simp) fun i h _ => ?_
  obtain ⟨rest, hrest⟩ := drop_flatMap_block enc k henc es i (by simpa using h)
  simp only [List.getElem_map, List.getElem_range]
  rw [← List.drop_drop, List.drop_left' rfl, hrest, hdec]

theorem getD_drop (bs : List Byte) (i off : Nat) (d : Byte) : (bs.drop i).getD off d = bs.getD (i + off) d := by
  simp [List.getD_eq_getElem?_getD]

theorem toNat_ofNat_count {n : Nat} (h : n ≤ 255) : (BitVec.ofNat 8 n).toNat = n :=
  (BitVec.toNat_ofNat _ _).trans (Nat.mod_eq_of_lt (by omega))

/-- ALLOC.MAP is read back (Table 3.6). -/
theorem tcmBody_allocMap (op : Byte) (es : List AllocMapEntry) (h : es.length ≤ 255) :
    tcmBody 0x08 (DownTcm.body (.allocMap op es)) = some (.allocMap op es) := by
  have hes := map_range_entries (fun e : AllocMapEntry => beBytes 2 e.id.toNat ++ [e.slot.setWidth 8]) 3 (by simp)
    [op, BitVec.ofNat 8 es.length] es (fun b => ⟨BitVec.ofNat 14 (beVal (slice b 0 2)), (b.getD 2 0).setWidth 6⟩)
    fun e rest => by simp [ofNat_beVal_beBytes, BitVec.setWidth_setWidth_of_le]
  have hlen : (DownTcm.body (.allocMap op es)).length = 2 + 3 * es.length :=
    (List.length_append ..).trans (congrArg (2 + ·) (length_flatMap_block _ 3 (by simp) es))
  have hcount : ((DownTcm.body (.allocMap op es)).getD 1 0).toNat = es.length := toNat_ofNat_count h
  have hoff : ∀ i, 4 + 3 * i = 2 + 3 * i + 2 := fun i => by omega
  simp only [slice_drop, getD_drop, List.length_cons, List.length_nil, Nat.add_zero] at hes
  simp only [tcmBody, hlen, hcount, if_true, hoff]
  exact congrArg (fun x => some (DownTcm.allocMap op x)) hes

/-- The three flags of a FLOW.MAP entry are the low bits of its last byte. -/
theorem getLsbD_flowFlags (a b c : Bool) : let g := BitVec.ofNat 8 (4 * a.toNat + 2 * b.toNat + c.toNat)
    g[2] = a ∧ g[1] = b ∧ g[0] = c := by
  revert a b c; decide

/-- FLOW.MAP is read back (Table 3.6). -/
theorem tcmBody_flowMap (op : Byte) (es : List FlowMapEntry) (h : es.length ≤ 255) :
    tcmBody 0x09 (DownTcm.body (.flowMap op es)) = some (.flowMap op es) := by
  have hes := map_range_entries (fun e : FlowMapEntry => beBytes 2 e.tag.toNat ++ [e.fslot,
      BitVec.ofNat 8 (4 * e.up.toNat + 2 * e.down.toNat + e.unicast.toNat)]) 4 (by simp)
    [op, BitVec.ofNat 8 es.length] es (fun b => ⟨BitVec.ofNat 16 (beVal (slice b 0 2)), b.getD 2 0, (b.getD 3 0).getLsbD 2,
      (b.getD 3 0).getLsbD 1, (b.getD 3 0).getLsbD 0⟩)
    fun e rest => by
      obtain ⟨hup, hdown, huni⟩ := getLsbD_flowFlags e.up e.down e.unicast
      simp [ofNat_beVal_beBytes, List.getElem?_append_right, hup, hdown, huni]
  have hlen : (DownTcm.body (.flowMap op es)).length = 2 + 4 * es.length :=
    (List.length_append ..).trans (congrArg (2 + ·) (length_flatMap_block _ 4 (by simp) es))
  have hcount : ((DownTcm.body (.flowMap op es)).getD 1 0).toNat = es.length := toNat_ofNat_count h
  have hslot : ∀ i, 4 + 4 * i = 2 + 4 * i + 2 := fun i => by omega
  have hflags : ∀ i, 5 + 4 * i = 2 + 4 * i + 3 := fun i => by omega
  simp only [slice_drop, getD_drop, List.length_cons, List.length_nil, Nat.add_zero] at hes
  simp only [tcmBody, hlen, hcount, if_true, hslot, hflags]
  exact congrArg (fun x => some (DownTcm.flowMap op x)) hes

/-- GRANT.REVOKE is read back (Table 3.6). -/
theorem tcmBody_grantRevoke (target : BitVec 48) (ids : List (BitVec 16)) (h : ids.length ≤ 255) :
    tcmBody 0x15 (DownTcm.body (.grantRevoke target ids)) = some (.grantRevoke target ids) := by
  have hids := map_range_entries (fun i : BitVec 16 => beBytes 2 i.toNat) 2 (by simp)
    (beBytes 6 target.toNat ++ [BitVec.ofNat 8 ids.length]) ids (fun b => BitVec.ofNat 16 (beVal (slice b 0 2)))
    fun e rest => by simp [ofNat_beVal_beBytes]
  have hlen : (DownTcm.body (.grantRevoke target ids)).length = 7 + 2 * ids.length := by
    rw [DownTcm.body, List.length_append, length_flatMap_block _ 2 (by simp) ids]
    simp
  have hcount : ((DownTcm.body (.grantRevoke target ids)).getD 6 0).toNat = ids.length := by
    rw [DownTcm.body, List.append_assoc, getD_past_beBytes (by decide)]
    exact toNat_ofNat_count h
  have htarget : slice (DownTcm.body (.grantRevoke target ids)) 0 6 = beBytes 6 target.toNat := by
    rw [DownTcm.body, List.append_assoc, slice_beBytes_append]
  simp only [slice_drop, List.length_append, length_beBytes, List.length_cons, List.length_nil, Nat.add_zero] at hids
  simp only [tcmBody, hlen, hcount, if_true, htarget, ofNat_beVal_beBytes 6 48 target (by decide)]
  exact congrArg (fun x => some (DownTcm.grantRevoke target x)) hids

/-- Every body is read back from its layout (Table 3.6). -/
theorem tcmBody_body (m : DownTcm) (h : m.fits = true) : tcmBody m.type m.body = some m := by
  cases m with
  | allocMap op es => exact tcmBody_allocMap op es (by simpa [DownTcm.fits] using h)
  | flowMap op es => exact tcmBody_flowMap op es (by simpa [DownTcm.fits] using h)
  | grantRevoke target ids => exact tcmBody_grantRevoke target ids (by simpa [DownTcm.fits] using h)
  | profile b =>
    have hfec : (BitVec.ofNat 8 b.fec.toNat)[0] = b.fec := by cases b.fec <;> decide
    simp [DownTcm.type, tcmBody, DownTcm.body, ofNat_beVal_beBytes, hfec]
  | timeAnnounce b =>
    have hvalid : (BitVec.ofNat 8 b.valid.toNat)[0] = b.valid := by cases b.valid <;> decide
    simp [DownTcm.type, tcmBody, DownTcm.body, slice_past_beBytes, ofNat_beVal_beBytes, hvalid]
  | keyReq b => simp [DownTcm.type, tcmBody, DownTcm.body]
  | assignId b => simp [DownTcm.type, tcmBody, DownTcm.body, slice_past_beBytes, ofNat_beVal_beBytes]
  | assignEqd eqd eff => simp [DownTcm.type, tcmBody, DownTcm.body, slice_past_beBytes, ofNat_beVal_beBytes]
  | keySwitch b => simp [DownTcm.type, tcmBody, DownTcm.body, ofNat_beVal_beBytes]
  | sleepGrant k start => simp [DownTcm.type, tcmBody, DownTcm.body, slice_past_beBytes, ofNat_beVal_beBytes]
  | wakeReq r => rfl
  | deactivate r => rfl
  | silence serial ch => simp [DownTcm.type, tcmBody, DownTcm.body, ofNat_beVal_beBytes]
  | unsilence serial ch => simp [DownTcm.type, tcmBody, DownTcm.body, ofNat_beVal_beBytes]
  | ack type seq result => rfl

theorem type_mem_downTypes (m : DownTcm) : m.type ∈ downTypes := by
  cases m <;> simp [DownTcm.type, downTypes]

theorem toNat_type (m : DownTcm) : (BitVec.ofNat 8 m.type).toNat = m.type := by cases m <;> rfl

/-- Settles O56: the TCRC is good, TYPE, TID and SEQ stand before the body and the body is read back. -/
theorem messagesAreReadAsLaidOut : Obligations.MessagesAreReadAsLaidOut := by
  intro h m hfits
  let x := [BitVec.ofNat 8 m.type] ++ beBytes 2 h.tid.toNat ++ [h.seq] ++ m.body
  have hx : x.length = 4 + m.body.length := by simp [x]; omega
  have hbytes : tcmBytes h m = x ++ beBytes 4 (crc32 x).toNat := rfl
  have hlen : (tcmBytes h m).length = x.length + 4 := by simp [hbytes]
  have hcrc : slice (tcmBytes h m) x.length 4 = beBytes 4 (crc32 x).toNat := by
    rw [hbytes, slice_append_right _ _ _ _ (Nat.le_refl _), Nat.sub_self, slice_beBytes]
  have htake : (tcmBytes h m).take x.length = x := by rw [hbytes, List.take_left' rfl]
  have hbody : ((tcmBytes h m).drop 4).take (x.length + 4 - 8) = m.body := by
    have : x.length + 4 - 8 = m.body.length := by omega
    rw [this, hbytes]
    simp [x, beBytes, leBytes]
  have htype : (tcmBytes h m).getD 0 0 = BitVec.ofNat 8 m.type := rfl
  have htid : slice (tcmBytes h m) 1 2 = beBytes 2 h.tid.toNat := by simp [hbytes, x]
  have hseq : (tcmBytes h m).getD 3 0 = h.seq := by simp [hbytes, x, beBytes, leBytes]
  simp only [parseTcm, hlen, Nat.add_sub_cancel, htake, hcrc, ofNat_beVal_beBytes 4 32 _ (by decide), ne_eq, not_true_eq_false,
    if_false, htype, toNat_type, List.contains_iff_mem.2 (type_mem_downTypes m), Bool.not_true, Bool.false_eq_true, hbody,
    tcmBody_body m hfits, htid, ofNat_beVal_beBytes 2 16 _ (by decide), hseq]

end Sys2Proof.Machine

/-! PROOF. A command is read back from the units of its ring (Table 17.8); the lengths of what the device writes in return. -/

namespace Sys2Proof.Machine

/-- The reserved bits, which stand in two fields of the header, are read back (Table 17.8). -/
theorem ofNat_reserved (x : BitVec 112) : BitVec.ofNat 112 (x.toNat % 256 ^ 2 + x.toNat / 65536 % 256 ^ 12 * 65536) = x := by
  have hx := x.isLt
  have : x.toNat % 256 ^ 2 + x.toNat / 65536 % 256 ^ 12 * 65536 = x.toNat := by omega
  rw [this, BitVec.ofNat_toNat, BitVec.setWidth_eq]

/-- A command is read back from its image, whatever follows it (R6, R519). -/
theorem ofImage_image_append (c : RawCmd) (rest : List Byte) (h : c.payload.length < 2 ^ 32) :
    RawCmd.ofImage c.hdr.ep (RawCmd.image c ++ rest) = c := by
  have hplen : c.payload.length % 256 ^ 4 = c.payload.length := Nat.mod_eq_of_lt (h.trans_eq (by decide))
  have hpay : slice (c.payload ++ rest) 0 c.payload.length = c.payload := slice_append_of_length _ _ _ rfl
  simp [RawCmd.ofImage, RawCmd.image, u16, u32, List.append_assoc, slice_past_leBytes, ofNat_toNat_mod_pow, leVal_leBytes, -Nat.reducePow,
    ofNat_reserved, hplen, hpay]

/-- Settles O59: the fields of a command stand one behind the other, and the lengths of the records are sums of their fields'. -/
theorem commandsAreReadFromTheRing : Obligations.CommandsAreReadFromTheRing := by
  refine ⟨ofImage_image_append, fun c => ?_, fun e tag epoch status loss => ?_, fun a b c d e epoch => ?_⟩
  · simp [Completion.image, Completion.header]; omega
  · simp [eventImage]; omega
  · simp [indexImage]

end Sys2Proof.Machine

/-! PROOF. What a line lane sends is read back (R384 to R390): the descrambler follows the scrambler, the levels and the bytes are read
back from their bits, and the lanes' shares make up the stream again. -/

namespace Sys2Proof.Machine

/-! ### The scrambler (R386) -/

/-- The scrambler register after one more bit on the lane. -/
def laneShift (r : BitVec 58) (y : Bool) : BitVec 58 := (r <<< 1) ||| (BitVec.ofBool y).setWidth 58

theorem getLsbD_laneShift (r : BitVec 58) (y : Bool) (k : Nat) (hk : k < 58) :
    (laneShift r y).getLsbD k = if k = 0 then y else r.getLsbD (k - 1) := by
  cases k with
  | zero => simp [laneShift]
  | succ k => simp [laneShift, hk, BitVec.getLsbD_eq_getElem (show k < 58 by omega)]

theorem laneDescramble_cons (r : BitVec 58) (y : Bool) (l : List Bool) :
    laneDescramble r (y :: l) = ((y ^^ r.getLsbD 38 ^^ r.getLsbD 57) :: (laneDescramble (laneShift r y) l).1,
      (laneDescramble (laneShift r y) l).2) := rfl

theorem laneScramble_cons (r : BitVec 58) (b : Bool) (l : List Bool) : let y := b ^^ r.getLsbD 38 ^^ r.getLsbD 57
    laneScramble r (b :: l) = (y :: (laneScramble (laneShift r y) l).1, (laneScramble (laneShift r y) l).2) := rfl

theorem laneDescramble_laneScramble (r : BitVec 58) (bits : List Bool) :
    laneDescramble r (laneScramble r bits).1 = (bits, (laneScramble r bits).2) := by
  induction bits generalizing r with
  | nil => rfl
  | cons b l ih =>
    have hbit : ∀ x y z : Bool, ((x ^^ y ^^ z) ^^ y ^^ z) = x := by decide
    rw [laneScramble_cons, laneDescramble_cons, ih, hbit]

theorem length_laneScramble (r : BitVec 58) (bits : List Bool) : (laneScramble r bits).1.length = bits.length := by
  induction bits generalizing r with
  | nil => rfl
  | cons b l ih => rw [laneScramble_cons]; simp [ih]

/-- The bit that stood k places before place j on the lane: one of the bits received, or one of the register. -/
def laneBitBefore (r : BitVec 58) (ys : List Bool) (j k : Nat) : Bool := if k < j then ys.getD (j - 1 - k) false else r.getLsbD (k - j)

theorem laneBitBefore_cons (r : BitVec 58) (y : Bool) (ys : List Bool) (j k : Nat) (hk : k < 58) :
    laneBitBefore r (y :: ys) (j + 1) k = laneBitBefore (laneShift r y) ys j k := by
  unfold laneBitBefore
  rw [getLsbD_laneShift _ _ _ (by omega)]
  rcases Nat.lt_trichotomy k j with h | h | h
  · have : j - k = j - 1 - k + 1 := by omega
    simp [h, Nat.lt_succ_of_lt h, this]
  · simp [h]
  · have h1 : ¬ k < j + 1 := by omega
    have h2 : ¬ k < j := by omega
    have h3 : k - j ≠ 0 := by omega
    simp [h1, h2, h3, Nat.sub_add_eq]

/-- A descrambled bit is the bit received with those 39 and 58 before it. -/
theorem getElem?_laneDescramble (r : BitVec 58) (ys : List Bool) (j : Nat) :
    (laneDescramble r ys).1[j]? = ys[j]?.map fun y => y ^^ laneBitBefore r ys j 38 ^^ laneBitBefore r ys j 57 := by
  induction ys generalizing r j with
  | nil => simp [laneDescramble]
  | cons y l ih =>
    rw [laneDescramble_cons]
    cases j with
    | zero => simp [laneBitBefore]
    | succ j => simp [ih, laneBitBefore_cons]

theorem laneBitBefore_modify (r : BitVec 58) (ys : List Bool) (f : Bool → Bool) (i j k : Nat) (h : j ≠ i + (k + 1)) :
    laneBitBefore r (ys.modify i f) j k = laneBitBefore r ys j k := by
  unfold laneBitBefore
  split
  · have : i ≠ j - 1 - k := by omega
    simp [List.getD_eq_getElem?_getD, List.getElem?_modify, this]
  · rfl

/-- One wrong bit makes no bit wrong but its own and those 39 and 58 further on. -/
theorem getElem?_laneDescramble_modify (r : BitVec 58) (ys : List Bool) (f : Bool → Bool) (i j : Nat) (h0 : j ≠ i) (h39 : j ≠ i + 39)
    (h58 : j ≠ i + 58) : (laneDescramble r (ys.modify i f)).1[j]? = (laneDescramble r ys).1[j]? := by
  have hown : (ys.modify i f)[j]? = ys[j]? := by simp [List.getElem?_modify, Ne.symm h0]
  rw [getElem?_laneDescramble, getElem?_laneDescramble, laneBitBefore_modify _ _ _ _ _ _ h39, laneBitBefore_modify _ _ _ _ _ _ h58, hown]

/-! ### Symbols, levels and bytes (R384, R388) -/

theorem pam4Bits_pam4Level (a b : Bool) : pam4Bits (pam4Level a b) = [a, b] := by cases a <;> cases b <;> rfl

theorem invert_pam4Level (a b : Bool) : 3 - (3 - pam4Level a b) = pam4Level a b := by cases a <;> cases b <;> rfl

/-- The symbols of an even number of bits, inverted twice or not at all, give the bits back. -/
theorem flatMap_pam4Bits_pam4 (inv : Bool) :
    ∀ bits : List Bool, bits.length % 2 = 0 → (invertLevels inv (invertLevels inv (pam4 bits))).flatMap pam4Bits = bits
  | [], _ => by cases inv <;> rfl
  | [_], h => absurd h (by simp)
  | a :: b :: l, h => by
    have ih := flatMap_pam4Bits_pam4 inv l (by simp only [List.length_cons] at h; omega)
    cases inv <;> simp_all [invertLevels, pam4, pam4Bits_pam4Level, invert_pam4Level]

theorem length_pam4 : ∀ bits : List Bool, (pam4 bits).length = bits.length / 2
  | [] => rfl
  | [_] => by simp [pam4]
  | _ :: _ :: l => by simp only [pam4, List.length_cons, length_pam4 l]; omega

theorem packBits_byteBits_append (b : Byte) (l : List Bool) : packBits (byteBits b ++ l) = b :: packBits l := by
  have hb : ∀ b : Byte, BitVec.ofNat 8 ((byteBits b).foldl (fun v x => 2 * v + x.toNat) 0) = b := by decide
  exact congrArg (· :: packBits l) (hb b)

theorem packBits_bitsOf (bytes : List Byte) : packBits (bitsOf bytes) = bytes := by
  induction bytes with
  | nil => rfl
  | cons b l ih => exact (packBits_byteBits_append b (bitsOf l)).trans (congrArg (b :: ·) ih)

theorem length_bitsOf (bytes : List Byte) : (bitsOf bytes).length = 8 * bytes.length := by
  simp [bitsOf, byteBits, List.length_flatMap, List.map_const', List.sum_replicate, Nat.mul_comm]

/-- A block of 16 bytes has 65 symbols, from which its header, its bytes and the register after them are read back. -/
theorem readBlock_laneBlock (m inv : Bool) (r : BitVec 58) (bytes : List Byte) (h : bytes.length = 16) :
    (laneBlock m r bytes).1.length = 65
      ∧ readBlock inv r (invertLevels inv (laneBlock m r bytes).1) = ([m, !m], bytes, (laneBlock m r bytes).2) := by
  have hlen : (blockHeader m ++ (laneScramble r (bitsOf bytes)).1).length = 130 := by
    rw [List.length_append, length_laneScramble, length_bitsOf, h]
    rfl
  have hblock : laneBlock m r bytes = (pam4 (blockHeader m ++ (laneScramble r (bitsOf bytes)).1), (laneScramble r (bitsOf bytes)).2) := rfl
  rw [hblock]
  refine ⟨by rw [length_pam4, hlen], ?_⟩
  simp only [readBlock, flatMap_pam4Bits_pam4 inv _ (by rw [hlen])]
  simp [blockHeader, laneDescramble_laneScramble, packBits_bitsOf]

/-! ### The four lanes (R387) -/

theorem slice_eq_map_range (bs : List Byte) (off n : Nat) : slice bs off n = (List.range n).map fun i => bs.getD (off + i) 0 := by
  refine List.ext_getElem (by simp) fun i h _ => ?_
  have hi : i < n := by simpa using h
  simp only [slice, List.getElem_append, List.length_take, List.length_drop, List.getElem_take, List.getElem_drop,
    List.getElem_replicate, List.getElem_map, List.getElem_range, List.getD_eq_getElem?_getD]
  split
  · rw [List.getElem?_eq_getElem (by omega)]; rfl
  · rw [List.getElem?_eq_none (by omega)]; rfl

theorem slice_append_slice (bs : List Byte) (off m n : Nat) : slice bs off m ++ slice bs (off + m) n = slice bs off (m + n) := by
  simp only [slice_eq_map_range, List.range_add, List.map_append, List.map_map, Nat.add_assoc]
  rfl

/-- Pieces of k bytes, one behind the other, make up the bytes they were cut from. -/
theorem flatMap_slice_range (bs : List Byte) (off k n : Nat) :
    ((List.range n).flatMap fun j => slice bs (off + k * j) k) = slice bs off (k * n) := by
  induction n with
  | zero => simp [slice]
  | succ n ih => rw [List.range_succ, List.flatMap_append, ih, List.flatMap_singleton, slice_append_slice, Nat.mul_succ]

theorem getD_laneShare (l j : Nat) (bytes : List Byte) (h : j < bytes.length / 64) :
    (laneShare l bytes).getD j [] = slice bytes (64 * j + 16 * l) 16 := by
  simp [laneShare, List.getD_eq_getElem?_getD, h]

/-- The shares of the four lanes make up the stream again. -/
theorem joinShares_laneShare (bytes : List Byte) (h : bytes.length % 64 = 0) :
    joinShares ((List.range 4).map fun l => laneShare l bytes) = bytes := by
  have hn : (((List.range 4).map fun l => laneShare l bytes).headD []).length = bytes.length / 64 := by
    simp [List.range_succ, laneShare]
  have hgroup : ∀ j ∈ List.range (bytes.length / 64),
      ((List.range 4).map fun l => laneShare l bytes).flatMap (fun l => l.getD j []) = slice bytes (0 + 64 * j) 64 := by
    intro j hj
    simp only [List.flatMap_map, getD_laneShare _ _ _ (List.mem_range.1 hj)]
    rw [flatMap_slice_range, Nat.zero_add]
  rw [joinShares, hn, List.flatMap_congr hgroup, flatMap_slice_range, Nat.mul_div_cancel' (Nat.dvd_of_mod_eq_zero h), slice_self _ _ rfl]

/-! ### Markers (R390) -/

/-- The first 64 blocks of a span carry the bits of its marker, the highest first, and the others none. -/
theorem markerBit_eq (lane k j : Nat) (h : j < 16384) :
    markerBit lane (16384 * k + j) = if j < 64 then (laneMarkerWord lane k).getLsbD (63 - j) else false := by
  have hdiv : (16384 * k + j) / markerSpan = k := by unfold markerSpan; omega
  have hmod : (16384 * k + j) % markerSpan = j := by unfold markerSpan; omega
  rw [markerBit, hdiv, hmod]
  by_cases hj : j < 64 <;> simp [hj]

/-- Settles O58: blocks, shares, errors and markers one by one. -/
theorem laneBlocksAreReadBack : Obligations.LaneBlocksAreReadBack := by
  refine ⟨readBlock_laneBlock, joinShares_laneShare, fun r bits i j hi hj => ?_, fun lane k j => markerBit_eq lane k j⟩
  by_contra hne
  obtain ⟨h0, h39, h58⟩ : j ≠ i ∧ j ≠ i + 39 ∧ j ≠ i + 58 := by tauto
  rw [getElem?_laneDescramble_modify _ _ _ _ _ h0 h39 h58, laneDescramble_laneScramble] at hj
  exact hj rfl

end Sys2Proof.Machine

/-! PROOF. What reporting leaves as it is: records, completions, events and alarms change the endpoints, what has gone out, the records
kept for READY, the log and the alarm list, and nothing else of the state. -/

namespace Sys2Proof.Machine

/-- What every step of a fold leaves as it is, the fold leaves as it is. -/
theorem view_foldl {σ α β : Type} (view : σ → β) {f : σ → α → σ} (h : ∀ s a, view (f s a) = view s) (l : List α) (s : σ) :
    view (l.foldl f s) = view s := by
  induction l generalizing s with
  | nil => rfl
  | cons a l ih => rw [List.foldl_cons, ih, h]

namespace State

/-- The state without what reporting changes. -/
def plant (s : State) : State := { s with
  eps := [], out := [], recRates := [], fw := { s.fw with kept := [] },
  mgmt := { s.mgmt with log := [], lseq := 0, gasp := [], alarms := [], alarmLost := 0 } }

theorem plant_emit (s : State) (o : Out) : (s.emit o).plant = s.plant := rfl

theorem plant_updEp (s : State) (k : Nat) (f : EpSt → EpSt) : (s.updEp k f).plant = s.plant := rfl

theorem plant_writeIndex (s : State) (k : Nat) : (s.writeIndex k).plant = s.plant := rfl

theorem plant_signalCmp (s : State) (k : Nat) : (s.signalCmp k).plant = s.plant := by
  unfold signalCmp
  simp only []
  split <;> rfl

theorem plant_signalEvt (s : State) (k : Nat) : (s.signalEvt k).plant = s.plant := by
  unfold signalEvt
  simp only []
  split <;> rfl

theorem plant_publishCmp (s : State) (k : Nat) (c : Completion) : (s.publishCmp k c).plant = s.plant := by
  unfold publishCmp
  simp only []
  split
  · rw [plant_writeIndex, plant_updEp, plant_emit]
  · rw [plant_signalCmp, plant_writeIndex, plant_updEp, plant_emit]

theorem plant_finish (s : State) (k : Nat) (c : RawCmd) (st d : Nat) (r : List Byte) : (s.finish k c st d r).plant = s.plant := by
  unfold finish complete
  split
  · exact plant_publishCmp _ _ _
  · rfl

theorem plant_publishEvt (s : State) (k : Nat) (p : EvPost) : (s.publishEvt k p).plant = s.plant := by
  unfold publishEvt
  simp only []
  split
  · rw [plant_signalEvt, plant_writeIndex, plant_updEp, plant_emit]
  · rfl

theorem plant_postNow (s : State) (p : EvPost) : (s.postNow p).plant = s.plant := by
  unfold postNow
  simp only []
  rw [view_foldl plant fun t k => plant_publishEvt t k _]
  split <;> rfl

theorem plant_post (s : State) (p : EvPost) : (s.post p).plant = s.plant := by
  unfold post
  split
  · exact plant_postNow s p
  · split
    · rfl
    · exact view_foldl plant (fun t k => plant_updEp t k _) _ _

theorem plant_event (s : State) (code sev kind idx : Nat) (d : List Byte) (ps : List Nat) (r : Bool) :
    (s.event code sev kind idx d ps r).plant = s.plant := plant_post _ _

theorem plant_raiseAlarm (s : State) (code sev kind idx : Nat) (d : List Byte) (ps : List Nat) :
    (s.raiseAlarm code sev kind idx d ps).plant = s.plant := by
  unfold raiseAlarm
  split
  · rfl
  · exact plant_event _ _ _ _ _ _ _ _

theorem plant_clearAlarm (s : State) (code kind idx : Nat) (d : List Byte) : (s.clearAlarm code kind idx d).plant = s.plant := by
  unfold clearAlarm
  split
  · rfl
  · exact plant_event _ _ _ _ _ _ _ _

theorem plant_writeRecord (s : State) (k : Nat) (ts : Bool) (mk : Bool → Nat → List Byte) : (s.writeRecord k ts mk).plant = s.plant := by
  unfold writeRecord
  extract_lets e r set
  split
  · rfl
  · split
    · rw [plant_emit, plant_writeIndex, plant_updEp, plant_emit]
      rfl
    · rw [plant_updEp]

/-! ### What `event` leaves as it is -/

section
variable (s : State) (code sev kind idx : Nat) (d : List Byte) (ps : List Nat) (r : Bool)

@[simp] theorem chans_event : (s.event code sev kind idx d ps r).chans = s.chans := congrArg (·.chans) (plant_event ..)
@[simp] theorem queues_event : (s.event code sev kind idx d ps r).queues = s.queues := congrArg (·.queues) (plant_event ..)
@[simp] theorem allocs_event : (s.event code sev kind idx d ps r).allocs = s.allocs := congrArg (·.allocs) (plant_event ..)
@[simp] theorem peaks_event : (s.event code sev kind idx d ps r).peaks = s.peaks := congrArg (·.peaks) (plant_event ..)
@[simp] theorem policers_event : (s.event code sev kind idx d ps r).policers = s.policers := congrArg (·.policers) (plant_event ..)
@[simp] theorem rules_event : (s.event code sev kind idx d ps r).rules = s.rules := congrArg (·.rules) (plant_event ..)
@[simp] theorem counters_event : (s.event code sev kind idx d ps r).counters = s.counters := congrArg (·.counters) (plant_event ..)
@[simp] theorem slices_event : (s.event code sev kind idx d ps r).slices = s.slices := congrArg (·.slices) (plant_event ..)
@[simp] theorem bonds_event : (s.event code sev kind idx d ps r).bonds = s.bonds := congrArg (·.bonds) (plant_event ..)
@[simp] theorem lags_event : (s.event code sev kind idx d ps r).lags = s.lags := congrArg (·.lags) (plant_event ..)
@[simp] theorem mem_event : (s.event code sev kind idx d ps r).mem = s.mem := congrArg (·.mem) (plant_event ..)
@[simp] theorem gorse_event : (s.event code sev kind idx d ps r).gorse = s.gorse := congrArg (·.gorse) (plant_event ..)
@[simp] theorem time_event : (s.event code sev kind idx d ps r).time = s.time := congrArg (·.time) (plant_event ..)
@[simp] theorem trib_event : (s.event code sev kind idx d ps r).trib = s.trib := congrArg (·.trib) (plant_event ..)
@[simp] theorem ports_event : (s.event code sev kind idx d ps r).ports = s.ports := congrArg (·.ports) (plant_event ..)
@[simp] theorem macs_event : (s.event code sev kind idx d ps r).macs = s.macs := congrArg (·.macs) (plant_event ..)
@[simp] theorem lanes_event : (s.event code sev kind idx d ps r).lanes = s.lanes := congrArg (·.lanes) (plant_event ..)
@[simp] theorem pwr_event : (s.event code sev kind idx d ps r).pwr = s.pwr := congrArg (·.pwr) (plant_event ..)
@[simp] theorem rst_event : (s.event code sev kind idx d ps r).rst = s.rst := congrArg (·.rst) (plant_event ..)
@[simp] theorem parts_event : (s.event code sev kind idx d ps r).parts = s.parts := congrArg (·.parts) (plant_event ..)
@[simp] theorem now_event : (s.event code sev kind idx d ps r).now = s.now := congrArg (·.now) (plant_event ..)
@[simp] theorem draws_event : (s.event code sev kind idx d ps r).draws = s.draws := congrArg (·.draws) (plant_event ..)
@[simp] theorem nextFrame_event : (s.event code sev kind idx d ps r).nextFrame = s.nextFrame := congrArg (·.nextFrame) (plant_event ..)
@[simp] theorem pending_event : (s.event code sev kind idx d ps r).pending = s.pending := congrArg (·.pending) (plant_event ..)
@[simp] theorem chan_event (j : Nat) : (s.event code sev kind idx d ps r).chan j = s.chan j := congrArg (·.chan j) (plant_event ..)
@[simp] theorem queue_event (j : Nat) : (s.event code sev kind idx d ps r).queue j = s.queue j := congrArg (·.queue j) (plant_event ..)
@[simp] theorem alloc_event (j : Nat) : (s.event code sev kind idx d ps r).alloc j = s.alloc j := congrArg (·.alloc j) (plant_event ..)
@[simp] theorem peak_event (j : Nat) : (s.event code sev kind idx d ps r).peak j = s.peak j := congrArg (·.peak j) (plant_event ..)
@[simp] theorem policer_event (j : Nat) : (s.event code sev kind idx d ps r).policer j = s.policer j := congrArg (·.policer j) (plant_event ..)
@[simp] theorem slice_event (j : Nat) : (s.event code sev kind idx d ps r).slice j = s.slice j := congrArg (·.slice j) (plant_event ..)
@[simp] theorem bond_event (j : Nat) : (s.event code sev kind idx d ps r).bond j = s.bond j := congrArg (·.bond j) (plant_event ..)
@[simp] theorem lag_event (j : Nat) : (s.event code sev kind idx d ps r).lag j = s.lag j := congrArg (·.lag j) (plant_event ..)
@[simp] theorem port_event (j : Nat) : (s.event code sev kind idx d ps r).port j = s.port j := congrArg (·.port j) (plant_event ..)
@[simp] theorem mac_event (j : Nat) : (s.event code sev kind idx d ps r).mac j = s.mac j := congrArg (·.mac j) (plant_event ..)
@[simp] theorem lane_event (j : Nat) : (s.event code sev kind idx d ps r).lane j = s.lane j := congrArg (·.lane j) (plant_event ..)
@[simp] theorem part_event (j : Nat) : (s.event code sev kind idx d ps r).part j = s.part j := congrArg (·.part j) (plant_event ..)
@[simp] theorem pdom_event (j : Nat) : (s.event code sev kind idx d ps r).pdom j = s.pdom j := congrArg (·.pdom j) (plant_event ..)
@[simp] theorem dom_event (j : Nat) : (s.event code sev kind idx d ps r).dom j = s.dom j := congrArg (·.dom j) (plant_event ..)
@[simp] theorem trig_event (j : Nat) : (s.event code sev kind idx d ps r).trig j = s.trig j := congrArg (·.trig j) (plant_event ..)
@[simp] theorem capt_event (j : Nat) : (s.event code sev kind idx d ps r).capt j = s.capt j := congrArg (·.capt j) (plant_event ..)
@[simp] theorem ptp_event (j : Nat) : (s.event code sev kind idx d ps r).ptp j = s.ptp j := congrArg (·.ptp j) (plant_event ..)
@[simp] theorem stream_event (j : Nat) : (s.event code sev kind idx d ps r).stream j = s.stream j := congrArg (·.stream j) (plant_event ..)
@[simp] theorem bank_event (j : Nat) : (s.event code sev kind idx d ps r).bank j = s.bank j := congrArg (·.bank j) (plant_event ..)
@[simp] theorem stack_event (j : Nat) : (s.event code sev kind idx d ps r).stack j = s.stack j := congrArg (·.stack j) (plant_event ..)
@[simp] theorem pin_event (j : Nat) : (s.event code sev kind idx d ps r).pin j = s.pin j := congrArg (·.pin j) (plant_event ..)

end

/-! ### What `raiseAlarm` leaves as it is -/

section
variable (s : State) (code sev kind idx : Nat) (d : List Byte) (ps : List Nat)

@[simp] theorem chans_raiseAlarm : (s.raiseAlarm code sev kind idx d ps).chans = s.chans := congrArg (·.chans) (plant_raiseAlarm ..)
@[simp] theorem queues_raiseAlarm : (s.raiseAlarm code sev kind idx d ps).queues = s.queues := congrArg (·.queues) (plant_raiseAlarm ..)
@[simp] theorem allocs_raiseAlarm : (s.raiseAlarm code sev kind idx d ps).allocs = s.allocs := congrArg (·.allocs) (plant_raiseAlarm ..)
@[simp] theorem peaks_raiseAlarm : (s.raiseAlarm code sev kind idx d ps).peaks = s.peaks := congrArg (·.peaks) (plant_raiseAlarm ..)
@[simp] theorem policers_raiseAlarm : (s.raiseAlarm code sev kind idx d ps).policers = s.policers := congrArg (·.policers) (plant_raiseAlarm ..)
@[simp] theorem rules_raiseAlarm : (s.raiseAlarm code sev kind idx d ps).rules = s.rules := congrArg (·.rules) (plant_raiseAlarm ..)
@[simp] theorem counters_raiseAlarm : (s.raiseAlarm code sev kind idx d ps).counters = s.counters := congrArg (·.counters) (plant_raiseAlarm ..)
@[simp] theorem slices_raiseAlarm : (s.raiseAlarm code sev kind idx d ps).slices = s.slices := congrArg (·.slices) (plant_raiseAlarm ..)
@[simp] theorem bonds_raiseAlarm : (s.raiseAlarm code sev kind idx d ps).bonds = s.bonds := congrArg (·.bonds) (plant_raiseAlarm ..)
@[simp] theorem lags_raiseAlarm : (s.raiseAlarm code sev kind idx d ps).lags = s.lags := congrArg (·.lags) (plant_raiseAlarm ..)
@[simp] theorem mem_raiseAlarm : (s.raiseAlarm code sev kind idx d ps).mem = s.mem := congrArg (·.mem) (plant_raiseAlarm ..)
@[simp] theorem gorse_raiseAlarm : (s.raiseAlarm code sev kind idx d ps).gorse = s.gorse := congrArg (·.gorse) (plant_raiseAlarm ..)
@[simp] theorem time_raiseAlarm : (s.raiseAlarm code sev kind idx d ps).time = s.time := congrArg (·.time) (plant_raiseAlarm ..)
@[simp] theorem trib_raiseAlarm : (s.raiseAlarm code sev kind idx d ps).trib = s.trib := congrArg (·.trib) (plant_raiseAlarm ..)
@[simp] theorem ports_raiseAlarm : (s.raiseAlarm code sev kind idx d ps).ports = s.ports := congrArg (·.ports) (plant_raiseAlarm ..)
@[simp] theorem macs_raiseAlarm : (s.raiseAlarm code sev kind idx d ps).macs = s.macs := congrArg (·.macs) (plant_raiseAlarm ..)
@[simp] theorem lanes_raiseAlarm : (s.raiseAlarm code sev kind idx d ps).lanes = s.lanes := congrArg (·.lanes) (plant_raiseAlarm ..)
@[simp] theorem pwr_raiseAlarm : (s.raiseAlarm code sev kind idx d ps).pwr = s.pwr := congrArg (·.pwr) (plant_raiseAlarm ..)
@[simp] theorem rst_raiseAlarm : (s.raiseAlarm code sev kind idx d ps).rst = s.rst := congrArg (·.rst) (plant_raiseAlarm ..)
@[simp] theorem parts_raiseAlarm : (s.raiseAlarm code sev kind idx d ps).parts = s.parts := congrArg (·.parts) (plant_raiseAlarm ..)
@[simp] theorem now_raiseAlarm : (s.raiseAlarm code sev kind idx d ps).now = s.now := congrArg (·.now) (plant_raiseAlarm ..)
@[simp] theorem draws_raiseAlarm : (s.raiseAlarm code sev kind idx d ps).draws = s.draws := congrArg (·.draws) (plant_raiseAlarm ..)
@[simp] theorem nextFrame_raiseAlarm : (s.raiseAlarm code sev kind idx d ps).nextFrame = s.nextFrame := congrArg (·.nextFrame) (plant_raiseAlarm ..)
@[simp] theorem pending_raiseAlarm : (s.raiseAlarm code sev kind idx d ps).pending = s.pending := congrArg (·.pending) (plant_raiseAlarm ..)
@[simp] theorem chan_raiseAlarm (j : Nat) : (s.raiseAlarm code sev kind idx d ps).chan j = s.chan j := congrArg (·.chan j) (plant_raiseAlarm ..)
@[simp] theorem queue_raiseAlarm (j : Nat) : (s.raiseAlarm code sev kind idx d ps).queue j = s.queue j := congrArg (·.queue j) (plant_raiseAlarm ..)
@[simp] theorem alloc_raiseAlarm (j : Nat) : (s.raiseAlarm code sev kind idx d ps).alloc j = s.alloc j := congrArg (·.alloc j) (plant_raiseAlarm ..)
@[simp] theorem peak_raiseAlarm (j : Nat) : (s.raiseAlarm code sev kind idx d ps).peak j = s.peak j := congrArg (·.peak j) (plant_raiseAlarm ..)
@[simp] theorem policer_raiseAlarm (j : Nat) : (s.raiseAlarm code sev kind idx d ps).policer j = s.policer j := congrArg (·.policer j) (plant_raiseAlarm ..)
@[simp] theorem slice_raiseAlarm (j : Nat) : (s.raiseAlarm code sev kind idx d ps).slice j = s.slice j := congrArg (·.slice j) (plant_raiseAlarm ..)
@[simp] theorem bond_raiseAlarm (j : Nat) : (s.raiseAlarm code sev kind idx d ps).bond j = s.bond j := congrArg (·.bond j) (plant_raiseAlarm ..)
@[simp] theorem lag_raiseAlarm (j : Nat) : (s.raiseAlarm code sev kind idx d ps).lag j = s.lag j := congrArg (·.lag j) (plant_raiseAlarm ..)
@[simp] theorem port_raiseAlarm (j : Nat) : (s.raiseAlarm code sev kind idx d ps).port j = s.port j := congrArg (·.port j) (plant_raiseAlarm ..)
@[simp] theorem mac_raiseAlarm (j : Nat) : (s.raiseAlarm code sev kind idx d ps).mac j = s.mac j := congrArg (·.mac j) (plant_raiseAlarm ..)
@[simp] theorem lane_raiseAlarm (j : Nat) : (s.raiseAlarm code sev kind idx d ps).lane j = s.lane j := congrArg (·.lane j) (plant_raiseAlarm ..)
@[simp] theorem part_raiseAlarm (j : Nat) : (s.raiseAlarm code sev kind idx d ps).part j = s.part j := congrArg (·.part j) (plant_raiseAlarm ..)
@[simp] theorem pdom_raiseAlarm (j : Nat) : (s.raiseAlarm code sev kind idx d ps).pdom j = s.pdom j := congrArg (·.pdom j) (plant_raiseAlarm ..)
@[simp] theorem dom_raiseAlarm (j : Nat) : (s.raiseAlarm code sev kind idx d ps).dom j = s.dom j := congrArg (·.dom j) (plant_raiseAlarm ..)
@[simp] theorem trig_raiseAlarm (j : Nat) : (s.raiseAlarm code sev kind idx d ps).trig j = s.trig j := congrArg (·.trig j) (plant_raiseAlarm ..)
@[simp] theorem capt_raiseAlarm (j : Nat) : (s.raiseAlarm code sev kind idx d ps).capt j = s.capt j := congrArg (·.capt j) (plant_raiseAlarm ..)
@[simp] theorem ptp_raiseAlarm (j : Nat) : (s.raiseAlarm code sev kind idx d ps).ptp j = s.ptp j := congrArg (·.ptp j) (plant_raiseAlarm ..)
@[simp] theorem stream_raiseAlarm (j : Nat) : (s.raiseAlarm code sev kind idx d ps).stream j = s.stream j := congrArg (·.stream j) (plant_raiseAlarm ..)
@[simp] theorem bank_raiseAlarm (j : Nat) : (s.raiseAlarm code sev kind idx d ps).bank j = s.bank j := congrArg (·.bank j) (plant_raiseAlarm ..)
@[simp] theorem stack_raiseAlarm (j : Nat) : (s.raiseAlarm code sev kind idx d ps).stack j = s.stack j := congrArg (·.stack j) (plant_raiseAlarm ..)
@[simp] theorem pin_raiseAlarm (j : Nat) : (s.raiseAlarm code sev kind idx d ps).pin j = s.pin j := congrArg (·.pin j) (plant_raiseAlarm ..)

end

/-! ### What `clearAlarm` leaves as it is -/

section
variable (s : State) (code kind idx : Nat) (d : List Byte)

@[simp] theorem chans_clearAlarm : (s.clearAlarm code kind idx d).chans = s.chans := congrArg (·.chans) (plant_clearAlarm ..)
@[simp] theorem queues_clearAlarm : (s.clearAlarm code kind idx d).queues = s.queues := congrArg (·.queues) (plant_clearAlarm ..)
@[simp] theorem allocs_clearAlarm : (s.clearAlarm code kind idx d).allocs = s.allocs := congrArg (·.allocs) (plant_clearAlarm ..)
@[simp] theorem peaks_clearAlarm : (s.clearAlarm code kind idx d).peaks = s.peaks := congrArg (·.peaks) (plant_clearAlarm ..)
@[simp] theorem policers_clearAlarm : (s.clearAlarm code kind idx d).policers = s.policers := congrArg (·.policers) (plant_clearAlarm ..)
@[simp] theorem rules_clearAlarm : (s.clearAlarm code kind idx d).rules = s.rules := congrArg (·.rules) (plant_clearAlarm ..)
@[simp] theorem counters_clearAlarm : (s.clearAlarm code kind idx d).counters = s.counters := congrArg (·.counters) (plant_clearAlarm ..)
@[simp] theorem slices_clearAlarm : (s.clearAlarm code kind idx d).slices = s.slices := congrArg (·.slices) (plant_clearAlarm ..)
@[simp] theorem bonds_clearAlarm : (s.clearAlarm code kind idx d).bonds = s.bonds := congrArg (·.bonds) (plant_clearAlarm ..)
@[simp] theorem lags_clearAlarm : (s.clearAlarm code kind idx d).lags = s.lags := congrArg (·.lags) (plant_clearAlarm ..)
@[simp] theorem mem_clearAlarm : (s.clearAlarm code kind idx d).mem = s.mem := congrArg (·.mem) (plant_clearAlarm ..)
@[simp] theorem gorse_clearAlarm : (s.clearAlarm code kind idx d).gorse = s.gorse := congrArg (·.gorse) (plant_clearAlarm ..)
@[simp] theorem time_clearAlarm : (s.clearAlarm code kind idx d).time = s.time := congrArg (·.time) (plant_clearAlarm ..)
@[simp] theorem trib_clearAlarm : (s.clearAlarm code kind idx d).trib = s.trib := congrArg (·.trib) (plant_clearAlarm ..)
@[simp] theorem ports_clearAlarm : (s.clearAlarm code kind idx d).ports = s.ports := congrArg (·.ports) (plant_clearAlarm ..)
@[simp] theorem macs_clearAlarm : (s.clearAlarm code kind idx d).macs = s.macs := congrArg (·.macs) (plant_clearAlarm ..)
@[simp] theorem lanes_clearAlarm : (s.clearAlarm code kind idx d).lanes = s.lanes := congrArg (·.lanes) (plant_clearAlarm ..)
@[simp] theorem pwr_clearAlarm : (s.clearAlarm code kind idx d).pwr = s.pwr := congrArg (·.pwr) (plant_clearAlarm ..)
@[simp] theorem rst_clearAlarm : (s.clearAlarm code kind idx d).rst = s.rst := congrArg (·.rst) (plant_clearAlarm ..)
@[simp] theorem parts_clearAlarm : (s.clearAlarm code kind idx d).parts = s.parts := congrArg (·.parts) (plant_clearAlarm ..)
@[simp] theorem now_clearAlarm : (s.clearAlarm code kind idx d).now = s.now := congrArg (·.now) (plant_clearAlarm ..)
@[simp] theorem draws_clearAlarm : (s.clearAlarm code kind idx d).draws = s.draws := congrArg (·.draws) (plant_clearAlarm ..)
@[simp] theorem nextFrame_clearAlarm : (s.clearAlarm code kind idx d).nextFrame = s.nextFrame := congrArg (·.nextFrame) (plant_clearAlarm ..)
@[simp] theorem pending_clearAlarm : (s.clearAlarm code kind idx d).pending = s.pending := congrArg (·.pending) (plant_clearAlarm ..)
@[simp] theorem chan_clearAlarm (j : Nat) : (s.clearAlarm code kind idx d).chan j = s.chan j := congrArg (·.chan j) (plant_clearAlarm ..)
@[simp] theorem queue_clearAlarm (j : Nat) : (s.clearAlarm code kind idx d).queue j = s.queue j := congrArg (·.queue j) (plant_clearAlarm ..)
@[simp] theorem alloc_clearAlarm (j : Nat) : (s.clearAlarm code kind idx d).alloc j = s.alloc j := congrArg (·.alloc j) (plant_clearAlarm ..)
@[simp] theorem peak_clearAlarm (j : Nat) : (s.clearAlarm code kind idx d).peak j = s.peak j := congrArg (·.peak j) (plant_clearAlarm ..)
@[simp] theorem policer_clearAlarm (j : Nat) : (s.clearAlarm code kind idx d).policer j = s.policer j := congrArg (·.policer j) (plant_clearAlarm ..)
@[simp] theorem slice_clearAlarm (j : Nat) : (s.clearAlarm code kind idx d).slice j = s.slice j := congrArg (·.slice j) (plant_clearAlarm ..)
@[simp] theorem bond_clearAlarm (j : Nat) : (s.clearAlarm code kind idx d).bond j = s.bond j := congrArg (·.bond j) (plant_clearAlarm ..)
@[simp] theorem lag_clearAlarm (j : Nat) : (s.clearAlarm code kind idx d).lag j = s.lag j := congrArg (·.lag j) (plant_clearAlarm ..)
@[simp] theorem port_clearAlarm (j : Nat) : (s.clearAlarm code kind idx d).port j = s.port j := congrArg (·.port j) (plant_clearAlarm ..)
@[simp] theorem mac_clearAlarm (j : Nat) : (s.clearAlarm code kind idx d).mac j = s.mac j := congrArg (·.mac j) (plant_clearAlarm ..)
@[simp] theorem lane_clearAlarm (j : Nat) : (s.clearAlarm code kind idx d).lane j = s.lane j := congrArg (·.lane j) (plant_clearAlarm ..)
@[simp] theorem part_clearAlarm (j : Nat) : (s.clearAlarm code kind idx d).part j = s.part j := congrArg (·.part j) (plant_clearAlarm ..)
@[simp] theorem pdom_clearAlarm (j : Nat) : (s.clearAlarm code kind idx d).pdom j = s.pdom j := congrArg (·.pdom j) (plant_clearAlarm ..)
@[simp] theorem dom_clearAlarm (j : Nat) : (s.clearAlarm code kind idx d).dom j = s.dom j := congrArg (·.dom j) (plant_clearAlarm ..)
@[simp] theorem trig_clearAlarm (j : Nat) : (s.clearAlarm code kind idx d).trig j = s.trig j := congrArg (·.trig j) (plant_clearAlarm ..)
@[simp] theorem capt_clearAlarm (j : Nat) : (s.clearAlarm code kind idx d).capt j = s.capt j := congrArg (·.capt j) (plant_clearAlarm ..)
@[simp] theorem ptp_clearAlarm (j : Nat) : (s.clearAlarm code kind idx d).ptp j = s.ptp j := congrArg (·.ptp j) (plant_clearAlarm ..)
@[simp] theorem stream_clearAlarm (j : Nat) : (s.clearAlarm code kind idx d).stream j = s.stream j := congrArg (·.stream j) (plant_clearAlarm ..)
@[simp] theorem bank_clearAlarm (j : Nat) : (s.clearAlarm code kind idx d).bank j = s.bank j := congrArg (·.bank j) (plant_clearAlarm ..)
@[simp] theorem stack_clearAlarm (j : Nat) : (s.clearAlarm code kind idx d).stack j = s.stack j := congrArg (·.stack j) (plant_clearAlarm ..)
@[simp] theorem pin_clearAlarm (j : Nat) : (s.clearAlarm code kind idx d).pin j = s.pin j := congrArg (·.pin j) (plant_clearAlarm ..)

end

/-! ### What `post` leaves as it is -/

section
variable (s : State) (p : EvPost)

@[simp] theorem chans_post : (s.post p).chans = s.chans := congrArg (·.chans) (plant_post ..)
@[simp] theorem queues_post : (s.post p).queues = s.queues := congrArg (·.queues) (plant_post ..)
@[simp] theorem allocs_post : (s.post p).allocs = s.allocs := congrArg (·.allocs) (plant_post ..)
@[simp] theorem peaks_post : (s.post p).peaks = s.peaks := congrArg (·.peaks) (plant_post ..)
@[simp] theorem policers_post : (s.post p).policers = s.policers := congrArg (·.policers) (plant_post ..)
@[simp] theorem rules_post : (s.post p).rules = s.rules := congrArg (·.rules) (plant_post ..)
@[simp] theorem counters_post : (s.post p).counters = s.counters := congrArg (·.counters) (plant_post ..)
@[simp] theorem slices_post : (s.post p).slices = s.slices := congrArg (·.slices) (plant_post ..)
@[simp] theorem bonds_post : (s.post p).bonds = s.bonds := congrArg (·.bonds) (plant_post ..)
@[simp] theorem lags_post : (s.post p).lags = s.lags := congrArg (·.lags) (plant_post ..)
@[simp] theorem mem_post : (s.post p).mem = s.mem := congrArg (·.mem) (plant_post ..)
@[simp] theorem gorse_post : (s.post p).gorse = s.gorse := congrArg (·.gorse) (plant_post ..)
@[simp] theorem time_post : (s.post p).time = s.time := congrArg (·.time) (plant_post ..)
@[simp] theorem trib_post : (s.post p).trib = s.trib := congrArg (·.trib) (plant_post ..)
@[simp] theorem ports_post : (s.post p).ports = s.ports := congrArg (·.ports) (plant_post ..)
@[simp] theorem macs_post : (s.post p).macs = s.macs := congrArg (·.macs) (plant_post ..)
@[simp] theorem lanes_post : (s.post p).lanes = s.lanes := congrArg (·.lanes) (plant_post ..)
@[simp] theorem pwr_post : (s.post p).pwr = s.pwr := congrArg (·.pwr) (plant_post ..)
@[simp] theorem rst_post : (s.post p).rst = s.rst := congrArg (·.rst) (plant_post ..)
@[simp] theorem parts_post : (s.post p).parts = s.parts := congrArg (·.parts) (plant_post ..)
@[simp] theorem now_post : (s.post p).now = s.now := congrArg (·.now) (plant_post ..)
@[simp] theorem draws_post : (s.post p).draws = s.draws := congrArg (·.draws) (plant_post ..)
@[simp] theorem nextFrame_post : (s.post p).nextFrame = s.nextFrame := congrArg (·.nextFrame) (plant_post ..)
@[simp] theorem pending_post : (s.post p).pending = s.pending := congrArg (·.pending) (plant_post ..)
@[simp] theorem chan_post (j : Nat) : (s.post p).chan j = s.chan j := congrArg (·.chan j) (plant_post ..)
@[simp] theorem queue_post (j : Nat) : (s.post p).queue j = s.queue j := congrArg (·.queue j) (plant_post ..)
@[simp] theorem alloc_post (j : Nat) : (s.post p).alloc j = s.alloc j := congrArg (·.alloc j) (plant_post ..)
@[simp] theorem peak_post (j : Nat) : (s.post p).peak j = s.peak j := congrArg (·.peak j) (plant_post ..)
@[simp] theorem policer_post (j : Nat) : (s.post p).policer j = s.policer j := congrArg (·.policer j) (plant_post ..)
@[simp] theorem slice_post (j : Nat) : (s.post p).slice j = s.slice j := congrArg (·.slice j) (plant_post ..)
@[simp] theorem bond_post (j : Nat) : (s.post p).bond j = s.bond j := congrArg (·.bond j) (plant_post ..)
@[simp] theorem lag_post (j : Nat) : (s.post p).lag j = s.lag j := congrArg (·.lag j) (plant_post ..)
@[simp] theorem port_post (j : Nat) : (s.post p).port j = s.port j := congrArg (·.port j) (plant_post ..)
@[simp] theorem mac_post (j : Nat) : (s.post p).mac j = s.mac j := congrArg (·.mac j) (plant_post ..)
@[simp] theorem lane_post (j : Nat) : (s.post p).lane j = s.lane j := congrArg (·.lane j) (plant_post ..)
@[simp] theorem part_post (j : Nat) : (s.post p).part j = s.part j := congrArg (·.part j) (plant_post ..)
@[simp] theorem pdom_post (j : Nat) : (s.post p).pdom j = s.pdom j := congrArg (·.pdom j) (plant_post ..)
@[simp] theorem dom_post (j : Nat) : (s.post p).dom j = s.dom j := congrArg (·.dom j) (plant_post ..)
@[simp] theorem trig_post (j : Nat) : (s.post p).trig j = s.trig j := congrArg (·.trig j) (plant_post ..)
@[simp] theorem capt_post (j : Nat) : (s.post p).capt j = s.capt j := congrArg (·.capt j) (plant_post ..)
@[simp] theorem ptp_post (j : Nat) : (s.post p).ptp j = s.ptp j := congrArg (·.ptp j) (plant_post ..)
@[simp] theorem stream_post (j : Nat) : (s.post p).stream j = s.stream j := congrArg (·.stream j) (plant_post ..)
@[simp] theorem bank_post (j : Nat) : (s.post p).bank j = s.bank j := congrArg (·.bank j) (plant_post ..)
@[simp] theorem stack_post (j : Nat) : (s.post p).stack j = s.stack j := congrArg (·.stack j) (plant_post ..)
@[simp] theorem pin_post (j : Nat) : (s.post p).pin j = s.pin j := congrArg (·.pin j) (plant_post ..)

end

/-! ### What `finish` leaves as it is -/

section
variable (s : State) (k : Nat) (c : RawCmd) (st d : Nat) (r : List Byte)

@[simp] theorem chans_finish : (s.finish k c st d r).chans = s.chans := congrArg (·.chans) (plant_finish ..)
@[simp] theorem queues_finish : (s.finish k c st d r).queues = s.queues := congrArg (·.queues) (plant_finish ..)
@[simp] theorem allocs_finish : (s.finish k c st d r).allocs = s.allocs := congrArg (·.allocs) (plant_finish ..)
@[simp] theorem peaks_finish : (s.finish k c st d r).peaks = s.peaks := congrArg (·.peaks) (plant_finish ..)
@[simp] theorem policers_finish : (s.finish k c st d r).policers = s.policers := congrArg (·.policers) (plant_finish ..)
@[simp] theorem rules_finish : (s.finish k c st d r).rules = s.rules := congrArg (·.rules) (plant_finish ..)
@[simp] theorem counters_finish : (s.finish k c st d r).counters = s.counters := congrArg (·.counters) (plant_finish ..)
@[simp] theorem slices_finish : (s.finish k c st d r).slices = s.slices := congrArg (·.slices) (plant_finish ..)
@[simp] theorem bonds_finish : (s.finish k c st d r).bonds = s.bonds := congrArg (·.bonds) (plant_finish ..)
@[simp] theorem lags_finish : (s.finish k c st d r).lags = s.lags := congrArg (·.lags) (plant_finish ..)
@[simp] theorem mem_finish : (s.finish k c st d r).mem = s.mem := congrArg (·.mem) (plant_finish ..)
@[simp] theorem gorse_finish : (s.finish k c st d r).gorse = s.gorse := congrArg (·.gorse) (plant_finish ..)
@[simp] theorem time_finish : (s.finish k c st d r).time = s.time := congrArg (·.time) (plant_finish ..)
@[simp] theorem trib_finish : (s.finish k c st d r).trib = s.trib := congrArg (·.trib) (plant_finish ..)
@[simp] theorem ports_finish : (s.finish k c st d r).ports = s.ports := congrArg (·.ports) (plant_finish ..)
@[simp] theorem macs_finish : (s.finish k c st d r).macs = s.macs := congrArg (·.macs) (plant_finish ..)
@[simp] theorem lanes_finish : (s.finish k c st d r).lanes = s.lanes := congrArg (·.lanes) (plant_finish ..)
@[simp] theorem pwr_finish : (s.finish k c st d r).pwr = s.pwr := congrArg (·.pwr) (plant_finish ..)
@[simp] theorem rst_finish : (s.finish k c st d r).rst = s.rst := congrArg (·.rst) (plant_finish ..)
@[simp] theorem parts_finish : (s.finish k c st d r).parts = s.parts := congrArg (·.parts) (plant_finish ..)
@[simp] theorem now_finish : (s.finish k c st d r).now = s.now := congrArg (·.now) (plant_finish ..)
@[simp] theorem draws_finish : (s.finish k c st d r).draws = s.draws := congrArg (·.draws) (plant_finish ..)
@[simp] theorem nextFrame_finish : (s.finish k c st d r).nextFrame = s.nextFrame := congrArg (·.nextFrame) (plant_finish ..)
@[simp] theorem pending_finish : (s.finish k c st d r).pending = s.pending := congrArg (·.pending) (plant_finish ..)
@[simp] theorem chan_finish (j : Nat) : (s.finish k c st d r).chan j = s.chan j := congrArg (·.chan j) (plant_finish ..)
@[simp] theorem queue_finish (j : Nat) : (s.finish k c st d r).queue j = s.queue j := congrArg (·.queue j) (plant_finish ..)
@[simp] theorem alloc_finish (j : Nat) : (s.finish k c st d r).alloc j = s.alloc j := congrArg (·.alloc j) (plant_finish ..)
@[simp] theorem peak_finish (j : Nat) : (s.finish k c st d r).peak j = s.peak j := congrArg (·.peak j) (plant_finish ..)
@[simp] theorem policer_finish (j : Nat) : (s.finish k c st d r).policer j = s.policer j := congrArg (·.policer j) (plant_finish ..)
@[simp] theorem slice_finish (j : Nat) : (s.finish k c st d r).slice j = s.slice j := congrArg (·.slice j) (plant_finish ..)
@[simp] theorem bond_finish (j : Nat) : (s.finish k c st d r).bond j = s.bond j := congrArg (·.bond j) (plant_finish ..)
@[simp] theorem lag_finish (j : Nat) : (s.finish k c st d r).lag j = s.lag j := congrArg (·.lag j) (plant_finish ..)
@[simp] theorem port_finish (j : Nat) : (s.finish k c st d r).port j = s.port j := congrArg (·.port j) (plant_finish ..)
@[simp] theorem mac_finish (j : Nat) : (s.finish k c st d r).mac j = s.mac j := congrArg (·.mac j) (plant_finish ..)
@[simp] theorem lane_finish (j : Nat) : (s.finish k c st d r).lane j = s.lane j := congrArg (·.lane j) (plant_finish ..)
@[simp] theorem part_finish (j : Nat) : (s.finish k c st d r).part j = s.part j := congrArg (·.part j) (plant_finish ..)
@[simp] theorem pdom_finish (j : Nat) : (s.finish k c st d r).pdom j = s.pdom j := congrArg (·.pdom j) (plant_finish ..)
@[simp] theorem dom_finish (j : Nat) : (s.finish k c st d r).dom j = s.dom j := congrArg (·.dom j) (plant_finish ..)
@[simp] theorem trig_finish (j : Nat) : (s.finish k c st d r).trig j = s.trig j := congrArg (·.trig j) (plant_finish ..)
@[simp] theorem capt_finish (j : Nat) : (s.finish k c st d r).capt j = s.capt j := congrArg (·.capt j) (plant_finish ..)
@[simp] theorem ptp_finish (j : Nat) : (s.finish k c st d r).ptp j = s.ptp j := congrArg (·.ptp j) (plant_finish ..)
@[simp] theorem stream_finish (j : Nat) : (s.finish k c st d r).stream j = s.stream j := congrArg (·.stream j) (plant_finish ..)
@[simp] theorem bank_finish (j : Nat) : (s.finish k c st d r).bank j = s.bank j := congrArg (·.bank j) (plant_finish ..)
@[simp] theorem stack_finish (j : Nat) : (s.finish k c st d r).stack j = s.stack j := congrArg (·.stack j) (plant_finish ..)
@[simp] theorem pin_finish (j : Nat) : (s.finish k c st d r).pin j = s.pin j := congrArg (·.pin j) (plant_finish ..)

end

/-! ### What `writeRecord` leaves as it is -/

section
variable (s : State) (k : Nat) (ts : Bool) (mk : Bool → Nat → List Byte)

@[simp] theorem chans_writeRecord : (s.writeRecord k ts mk).chans = s.chans := congrArg (·.chans) (plant_writeRecord ..)
@[simp] theorem queues_writeRecord : (s.writeRecord k ts mk).queues = s.queues := congrArg (·.queues) (plant_writeRecord ..)
@[simp] theorem allocs_writeRecord : (s.writeRecord k ts mk).allocs = s.allocs := congrArg (·.allocs) (plant_writeRecord ..)
@[simp] theorem peaks_writeRecord : (s.writeRecord k ts mk).peaks = s.peaks := congrArg (·.peaks) (plant_writeRecord ..)
@[simp] theorem policers_writeRecord : (s.writeRecord k ts mk).policers = s.policers := congrArg (·.policers) (plant_writeRecord ..)
@[simp] theorem rules_writeRecord : (s.writeRecord k ts mk).rules = s.rules := congrArg (·.rules) (plant_writeRecord ..)
@[simp] theorem counters_writeRecord : (s.writeRecord k ts mk).counters = s.counters := congrArg (·.counters) (plant_writeRecord ..)
@[simp] theorem slices_writeRecord : (s.writeRecord k ts mk).slices = s.slices := congrArg (·.slices) (plant_writeRecord ..)
@[simp] theorem bonds_writeRecord : (s.writeRecord k ts mk).bonds = s.bonds := congrArg (·.bonds) (plant_writeRecord ..)
@[simp] theorem lags_writeRecord : (s.writeRecord k ts mk).lags = s.lags := congrArg (·.lags) (plant_writeRecord ..)
@[simp] theorem mem_writeRecord : (s.writeRecord k ts mk).mem = s.mem := congrArg (·.mem) (plant_writeRecord ..)
@[simp] theorem gorse_writeRecord : (s.writeRecord k ts mk).gorse = s.gorse := congrArg (·.gorse) (plant_writeRecord ..)
@[simp] theorem time_writeRecord : (s.writeRecord k ts mk).time = s.time := congrArg (·.time) (plant_writeRecord ..)
@[simp] theorem trib_writeRecord : (s.writeRecord k ts mk).trib = s.trib := congrArg (·.trib) (plant_writeRecord ..)
@[simp] theorem ports_writeRecord : (s.writeRecord k ts mk).ports = s.ports := congrArg (·.ports) (plant_writeRecord ..)
@[simp] theorem macs_writeRecord : (s.writeRecord k ts mk).macs = s.macs := congrArg (·.macs) (plant_writeRecord ..)
@[simp] theorem lanes_writeRecord : (s.writeRecord k ts mk).lanes = s.lanes := congrArg (·.lanes) (plant_writeRecord ..)
@[simp] theorem pwr_writeRecord : (s.writeRecord k ts mk).pwr = s.pwr := congrArg (·.pwr) (plant_writeRecord ..)
@[simp] theorem rst_writeRecord : (s.writeRecord k ts mk).rst = s.rst := congrArg (·.rst) (plant_writeRecord ..)
@[simp] theorem parts_writeRecord : (s.writeRecord k ts mk).parts = s.parts := congrArg (·.parts) (plant_writeRecord ..)
@[simp] theorem now_writeRecord : (s.writeRecord k ts mk).now = s.now := congrArg (·.now) (plant_writeRecord ..)
@[simp] theorem draws_writeRecord : (s.writeRecord k ts mk).draws = s.draws := congrArg (·.draws) (plant_writeRecord ..)
@[simp] theorem nextFrame_writeRecord : (s.writeRecord k ts mk).nextFrame = s.nextFrame := congrArg (·.nextFrame) (plant_writeRecord ..)
@[simp] theorem pending_writeRecord : (s.writeRecord k ts mk).pending = s.pending := congrArg (·.pending) (plant_writeRecord ..)
@[simp] theorem chan_writeRecord (j : Nat) : (s.writeRecord k ts mk).chan j = s.chan j := congrArg (·.chan j) (plant_writeRecord ..)
@[simp] theorem queue_writeRecord (j : Nat) : (s.writeRecord k ts mk).queue j = s.queue j := congrArg (·.queue j) (plant_writeRecord ..)
@[simp] theorem alloc_writeRecord (j : Nat) : (s.writeRecord k ts mk).alloc j = s.alloc j := congrArg (·.alloc j) (plant_writeRecord ..)
@[simp] theorem peak_writeRecord (j : Nat) : (s.writeRecord k ts mk).peak j = s.peak j := congrArg (·.peak j) (plant_writeRecord ..)
@[simp] theorem policer_writeRecord (j : Nat) : (s.writeRecord k ts mk).policer j = s.policer j := congrArg (·.policer j) (plant_writeRecord ..)
@[simp] theorem slice_writeRecord (j : Nat) : (s.writeRecord k ts mk).slice j = s.slice j := congrArg (·.slice j) (plant_writeRecord ..)
@[simp] theorem bond_writeRecord (j : Nat) : (s.writeRecord k ts mk).bond j = s.bond j := congrArg (·.bond j) (plant_writeRecord ..)
@[simp] theorem lag_writeRecord (j : Nat) : (s.writeRecord k ts mk).lag j = s.lag j := congrArg (·.lag j) (plant_writeRecord ..)
@[simp] theorem port_writeRecord (j : Nat) : (s.writeRecord k ts mk).port j = s.port j := congrArg (·.port j) (plant_writeRecord ..)
@[simp] theorem mac_writeRecord (j : Nat) : (s.writeRecord k ts mk).mac j = s.mac j := congrArg (·.mac j) (plant_writeRecord ..)
@[simp] theorem lane_writeRecord (j : Nat) : (s.writeRecord k ts mk).lane j = s.lane j := congrArg (·.lane j) (plant_writeRecord ..)
@[simp] theorem part_writeRecord (j : Nat) : (s.writeRecord k ts mk).part j = s.part j := congrArg (·.part j) (plant_writeRecord ..)
@[simp] theorem pdom_writeRecord (j : Nat) : (s.writeRecord k ts mk).pdom j = s.pdom j := congrArg (·.pdom j) (plant_writeRecord ..)
@[simp] theorem dom_writeRecord (j : Nat) : (s.writeRecord k ts mk).dom j = s.dom j := congrArg (·.dom j) (plant_writeRecord ..)
@[simp] theorem trig_writeRecord (j : Nat) : (s.writeRecord k ts mk).trig j = s.trig j := congrArg (·.trig j) (plant_writeRecord ..)
@[simp] theorem capt_writeRecord (j : Nat) : (s.writeRecord k ts mk).capt j = s.capt j := congrArg (·.capt j) (plant_writeRecord ..)
@[simp] theorem ptp_writeRecord (j : Nat) : (s.writeRecord k ts mk).ptp j = s.ptp j := congrArg (·.ptp j) (plant_writeRecord ..)
@[simp] theorem stream_writeRecord (j : Nat) : (s.writeRecord k ts mk).stream j = s.stream j := congrArg (·.stream j) (plant_writeRecord ..)
@[simp] theorem bank_writeRecord (j : Nat) : (s.writeRecord k ts mk).bank j = s.bank j := congrArg (·.bank j) (plant_writeRecord ..)
@[simp] theorem stack_writeRecord (j : Nat) : (s.writeRecord k ts mk).stack j = s.stack j := congrArg (·.stack j) (plant_writeRecord ..)
@[simp] theorem pin_writeRecord (j : Nat) : (s.writeRecord k ts mk).pin j = s.pin j := congrArg (·.pin j) (plant_writeRecord ..)

end

end State

end Sys2Proof.Machine

/-! PROOF. A step is the front command's (log entry 3); the buckets of shapers and policers (R185, R188, R192). -/

namespace Sys2Proof.Machine

/-- Settles O50: on a queue with a front command, and on an empty one, `step` is its own case. -/
theorem stepRunsTheFrontCommand : Obligations.StepRunsTheFrontCommand := by
  unfold Obligations.StepRunsTheFrontCommand
  refine ⟨fun s c rest h => ?_, fun s h => ?_⟩ <;> simp only [step, h]

/-- A shaper that stays on keeps its bucket up to the new size, and its debt unless CLEAR says otherwise (R188). -/
theorem Shaper.configure_on (h : Shaper) (clear : Bool) (burst rate : Nat) (hen : h.en = true) :
    h.configure true clear burst rate
      = if (burst : Int) < h.count then { en := true, rate, burst, count := burst, frac := 0 }
        else if clear ∧ h.count < 0 then { en := true, rate, burst, count := 0, frac := 0 }
        else { en := true, rate, burst, count := h.count, frac := h.frac } := by
  have hb : ¬ ((burst : Int) < 0) := by omega
  by_cases hlt : (burst : Int) < h.count
  · simp [Shaper.configure, hen, hlt, hb]
  · by_cases hclear : clear ∧ h.count < 0 <;> simp [Shaper.configure, hen, hlt, hclear]

/-- Settles O14: the branches of `Shaper.configure` and of `PolicerSt.meter` at the boundaries of the bucket. -/
theorem shapersApplyAndPolicersMeter : Obligations.ShapersApplyAndPolicersMeter := by
  unfold Obligations.ShapersApplyAndPolicersMeter
  constructor
  · intro h clear burst rate
    refine ⟨by simp [Shaper.configure], fun hoff => by simp [Shaper.configure, hoff], fun hon hlt => ?_, fun hon hle h0 => ?_, fun hon hneg => ?_⟩
    · rw [Shaper.configure_on _ _ _ _ hon, if_pos hlt]
    · rw [Shaper.configure_on _ _ _ _ hon, if_neg (by omega), if_neg (by omega)]
    · rw [Shaper.configure_on _ _ _ _ hon, if_neg (by omega)]
      cases clear <;> simp [hneg]
  · intro p b inc
    refine ⟨fun h => by simp only [PolicerSt.meter, if_pos h], fun hr hp h => ?_, fun hg hp hc => ?_⟩
    · have : ¬ ((if p.aware then inc else .green) = Colour.red ∨ p.tp < b) := by simp [hr, hp]
      simp only [PolicerSt.meter, if_neg this, if_pos h]
    · simp [PolicerSt.meter, hg, Nat.not_lt.2 hp, Nat.not_lt.2 hc]

end Sys2Proof.Machine

/-! PROOF. The tick of the model's clock (R185, R192, R313, R326). -/

namespace Sys2Proof.Machine

/-- A bucket that fills: COUNT gains the whole bytes, up to its size, at which it has no fraction (R185). -/
theorem Shaper.tick_on (h : Shaper) (hen : h.en = true) (hrate : 0 < h.rate) : h.tick = { h with
    count := min (h.burst : Int) (h.count + ((h.frac + h.rate) / 156250000 : Nat))
    frac := if (h.burst : Int) ≤ h.count + ((h.frac + h.rate) / 156250000 : Nat) then 0 else (h.frac + h.rate) % 156250000 } := by
  simp only [Shaper.tick, refill, if_pos (And.intro hen hrate)]
  split_ifs with hfull
  · rw [min_eq_left hfull]
  · rw [min_eq_right (le_of_not_ge hfull)]

theorem Shaper.tick_off (h : Shaper) (hoff : h.en = false ∨ h.rate = 0) : h.tick = h :=
  if_neg fun ⟨hen, hrate⟩ => by rcases hoff with hoff | hoff <;> simp_all

namespace State

/-- What a tick's counting and posting leave as it is: the time, the buckets, the domains, and OFS with what rules its slew. -/
def tickView (s : State) : Nat × (Tab QueueSt × Tab AllocSt × Tab Shaper × Tab PolicerSt) × Tab DomainSt × TimeVal × Bool × Bool × Nat :=
  (s.now, (s.queues, s.allocs, s.peaks, s.policers), s.time.dom, s.time.ofs, s.time.waiting, s.time.held, s.time.slew)

theorem tickView_updMem (s : State) (f : MemSt → MemSt) : (s.updMem f).tickView = s.tickView := rfl

theorem tickView_arbClocks (n : Nat) (s : State) : (arbClocks n s).tickView = s.tickView := by
  induction n generalizing s with
  | zero => rfl
  | succ n ih => exact (ih _).trans (tickView_updMem s _)

theorem tickView_tickLane (s : State) (l : Nat) : (s.tickLane l).tickView = s.tickView := by
  unfold tickLane
  simp only []
  split <;> split <;> rfl

theorem tickView_tickMac (s : State) (m : Nat) : (s.tickMac m).tickView = s.tickView := by
  unfold tickMac
  simp only []
  split <;> split <;> rfl

theorem tickView_writeRecord (s : State) (k : Nat) (ts : Bool) (mk : Bool → Nat → List Byte) :
    (s.writeRecord k ts mk).tickView = s.tickView := 
  (congrArg tickView (plant_writeRecord s k ts mk) : (s.writeRecord k ts mk).plant.tickView = s.plant.tickView)

theorem tickView_postPending (s : State) : s.postPending.tickView = s.tickView := by
  refine view_foldl tickView (fun s i => ?_) _ _
  split
  · exact tickView_writeRecord _ _ _ _
  · rfl

/-- The time counters of both domains advance by 6.4 ns and their corrections (R313). -/
def advanceDoms (s : State) : State := [0, 1].foldl (fun s d => s.updDom d fun x => { x with t := x.t + psT 6400 + 500 * x.corr }) s

/-- OFS moves by a slew step unless a change is held back (R326). -/
def slewOfs (s : State) : State :=
  if s.time.waiting || s.time.held then s else s.updTime fun t => { t with ofs := slewToward t.ofs (slewStep t.slew) }

theorem tickView_advanceDoms (s : State) : s.advanceDoms.tickView
    = (s.now, (s.queues, s.allocs, s.peaks, s.policers), s.advanceDoms.time.dom, s.time.ofs, s.time.waiting, s.time.held, s.time.slew) := rfl

theorem tickView_slewOfs (s : State) : s.slewOfs.tickView
    = (s.now, (s.queues, s.allocs, s.peaks, s.policers), s.time.dom,
        (if s.time.waiting || s.time.held then s.time.ofs else slewToward s.time.ofs (slewStep s.time.slew)),
        s.time.waiting, s.time.held, s.time.slew) := by
  unfold slewOfs
  cases s.time.waiting || s.time.held <;> rfl

/-- Of a tick, the view follows the advance of the domains and the slew of OFS; all else that it does shows nothing there. -/
theorem tickView_doShaperTick (s : State) (h : s.clockRuns .time = true) :
    ∃ u : State, u.tickView = { s.tickBuckets with now := s.now + 6400 }.tickView ∧ s.doShaperTick.tickView = u.advanceDoms.slewOfs.tickView := by
  unfold doShaperTick
  rw [h, Bool.not_true, if_neg Bool.false_ne_true]
  extract_lets s₀ s₁ s₂ s₃ s₄ s₅
  refine ⟨s₂, ?_, ?_⟩
  · show (if s₁.clockRuns .datapath then arbClocks 10 s₁ else s₁).tickView = s₁.tickView
    split
    · exact tickView_arbClocks _ _
    · rfl
  · calc s₅.postPending.tickView = s₅.tickView := tickView_postPending _
      _ = (s₄.macs.foldl (fun t m => t.tickMac m.1) s₄).tickView := view_foldl tickView (fun t (l : Nat × LaneSt) => tickView_tickLane t l.1) _ _
      _ = s₄.tickView := view_foldl tickView (fun t (m : Nat × MacSt) => tickView_tickMac t m.1) _ _

theorem dom_advanceDoms (s : State) (d : Nat) (hd : d < 2) : (s.advanceDoms.dom d).t = (s.dom d).t + psT 6400 + 500 * (s.dom d).corr := by
  interval_cases d <;> simp [advanceDoms, dom, updDom]

end State

/-- Settles O13. -/
theorem ticksRefillAndAdvance : Obligations.TicksRefillAndAdvance := by
  unfold Obligations.TicksRefillAndAdvance
  refine ⟨fun s h => ?_, fun s h => ?_, fun h => ⟨fun hen hrate => ?_, Shaper.tick_off h, ?_⟩⟩
  · show Host.Outcome.next s.doShaperTick = _
    simp [State.doShaperTick, h]
  · obtain ⟨u, hu, ht⟩ := s.tickView_doShaperTick h
    rw [State.tickView_slewOfs] at ht
    simp only [State.tickView, Prod.mk.injEq] at hu ht
    obtain ⟨hnow, ⟨hq, ha, hp, hpo⟩, hdom, hofs, hwait, hheld, hslew⟩ := hu
    obtain ⟨tnow, ⟨tq, ta, tp, tpo⟩, tdom, tofs, -⟩ := ht
    refine ⟨s.doShaperTick, rfl, tnow.trans hnow, tq.trans hq, ta.trans ha, tp.trans hp, tpo.trans hpo, fun d hd => ?_, tofs.trans ?_⟩
    · rw [State.dom, tdom]
      exact (u.dom_advanceDoms d hd).trans (by rw [State.dom, hdom]; rfl)
    · show (if u.time.waiting || u.time.held then u.time.ofs else State.slewToward u.time.ofs (State.slewStep u.time.slew)) = _
      rw [hwait, hheld, hslew, hofs]
      rfl
  · rw [Shaper.tick_on h hen hrate]
    exact ⟨rfl, rfl⟩
  · by_cases hon : h.en = true ∧ 0 < h.rate
    · rw [Shaper.tick_on h hon.1 hon.2]
      exact ⟨rfl, rfl, rfl⟩
    · rw [Shaper.tick, if_neg hon]
      exact ⟨rfl, rfl, rfl⟩

end Sys2Proof.Machine

/-! PROOF. How a host command of chapter 18 is followed: a ring that takes it (`State.Takes`) runs its application on the state in which the
command has been taken, and completes it (R518, R528, R530). -/

namespace Sys2Proof.Machine
namespace State

/-- A command that is done at once completes with OK and its reply. -/
theorem next_hostPost_ok {s t : State} {op : BitVec 16} {hd : CmdHdr} {p : List Byte} {n : Nat} {reply : List Byte}
    (h : s.Takes ⟨op, hd, p⟩ n) (hk : hostApply op.toNat hd p (s.taken ⟨op, hd, p⟩) = some (done t reply))
    (hdom : s.lacksDomain op.toNat p = false) (hlen : reply.length ≤ n) (hstill : t.Still)
    (hop : op ≠ 1 := by decide) (hop2 : op ≠ 2 := by decide) :
    (.next (s.hostPost ⟨op, hd, p⟩) : Host.Outcome State Fault Refusal) = .next (t.okOf ⟨op, hd, p⟩ reply) := by
  refine congrArg Host.Outcome.next (hostPost_ok h hop hop2 hk ?_ hlen hstill)
  rw [← hdom]
  unfold lacksDomain
  simp only [alive_taken, openHeld_taken, pdom_taken, laneHeld_taken]

/-- A command whose operation goes on completes with PENDING_ASYNC. -/
theorem next_hostPost_pending {s t : State} {op : BitVec 16} {hd : CmdHdr} {p : List Byte}
    (h : s.Takes ⟨op, hd, p⟩ 0) (hk : hostApply op.toNat hd p (s.taken ⟨op, hd, p⟩) = some (Machine.pending t))
    (hdom : s.lacksDomain op.toNat p = false) (hstill : t.Still)
    (hop : op ≠ 1 := by decide) (hop2 : op ≠ 2 := by decide) :
    (.next (s.hostPost ⟨op, hd, p⟩) : Host.Outcome State Fault Refusal) = .next (t.pendOf ⟨op, hd, p⟩) := by
  have hdom' : (s.taken ⟨op, hd, p⟩).lacksDomain op.toNat p = false := by
    rw [← hdom]
    unfold lacksDomain
    simp only [alive_taken, openHeld_taken, pdom_taken, laneHeld_taken]
  have hr : (s.taken ⟨op, hd, p⟩).applyCmd ⟨op, hd, p⟩ = Machine.pending t := by
    unfold applyCmd
    rw [hk]
    simp [hdom']
  exact congrArg Host.Outcome.next (hostPost_done h hop hop2 hr (by rw [hk]; rfl) (show stPending ≠ stApplying by decide) (Nat.le_refl 0) hstill)

end State

/-! ### The checks of R528 -/

/-- The checks pass on a payload of the right length, with the right, its fields in range and its reserved bytes zero. -/
theorem checked_pass {s : State} {k : CmdResult} {plen : Bool} {right : Option Nat} {p : List Byte} {fs : List (Bool × Nat)}
    {rsv : List (Nat × Nat)} (hlen : plen = true) (hright : right = none) (hf : ∀ f ∈ fs, f.1 = false) (hr : ZeroAt p rsv) :
    checked s plen right (firstBad p fs rsv) k = k := State.checked_ok s k hlen hright (State.firstBad_none hf hr)

@[simp] theorem own_true (i : Nat) : own true i = none := rfl

@[simp] theorem right0_zero : right0 0 = none := rfl

theorem zeroAt_nil (p : List Byte) : ZeroAt p [] := fun _ h => absurd h List.not_mem_nil

theorem ownsChan_owner {s : State} {k c : Nat} (h : (s.chan c).owner = k) : s.ownsChan k c = none := by simp [State.ownsChan, h]

theorem ownsPort_owner {s : State} {k c : Nat} (h : (s.port c).owner = k) : s.ownsPort k c = none := by simp [State.ownsPort, h]

theorem ownsMac_owner {s : State} {k c : Nat} (h : s.macOwner c = k) : s.ownsMac k c = none := by simp [State.ownsMac, h]

theorem ownsQueue_owner {s : State} {k c : Nat} (h : s.queueOwner c = k) : s.ownsQueue k c = none := by simp [State.ownsQueue, h]

theorem ownsLane_owner {s : State} {k c : Nat} (h : s.laneOwner c = k) : s.ownsLane k c = none := by simp [State.ownsLane, h]

theorem ownsTrig_owner {s : State} {k c : Nat} (h : (s.trig c).owner = k) : s.ownsTrig k c = none := by simp [State.ownsTrig, h]

theorem ownsCapt_owner {s : State} {k c : Nat} (h : (s.capt c).owner = k) : s.ownsCapt k c = none := by simp [State.ownsCapt, h]

theorem ownsBond_owner {s : State} {k c : Nat} (h : (s.bond c).owner = k) : s.ownsBond k c = none := by simp [State.ownsBond, h]

theorem inQuota_lt {s : State} {k item i : Nat} (h : i < s.quota k item) : s.inQuota k item i = none := by simp [State.inQuota, h]

end Sys2Proof.Machine

/-! PROOF. What the channel setters store (Table 18.3). -/

namespace Sys2Proof.Machine
open State

/-- The front-end fields are in range (Table 18.3). -/
theorem feBad_inRange {p : List Byte} (hi : u8 p 0 < 64) (hds : u16 p 2 ≤ 25000) (hus : u16 p 4 ≤ 25000) (hdeb : u16 p 8 ≤ 1000) :
    ∀ f ∈ feBad p, f.1 = false := by
  simp [feBad]
  omega

/-- The timer fields are in range (Table 18.3). -/
theorem timerBad_inRange {p : List Byte} {i : Nat} (hfl : u8 p (i + 1) ≤ 3) (hw : 1 ≤ u16 p (i + 2)) (hw' : u16 p (i + 2) ≤ 1024)
    (hl : 1000 ≤ u32 p (i + 4)) (hl' : u32 p (i + 4) ≤ 60000) (ha : 1 ≤ u32 p (i + 8)) (ha' : u32 p (i + 8) ≤ 1000)
    (hr : 100 ≤ u32 p (i + 12)) (hr' : u32 p (i + 12) ≤ 10000) (hh : 10 ≤ u32 p (i + 16)) (hh' : u32 p (i + 16) ≤ 10000) :
    ∀ f ∈ timerBad p i, f.1 = false := by
  simp [timerBad]
  omega

/-- Settles O4: each setter passes its checks and stores its fields in the channel. -/
theorem channelSettersStoreTheirPayload : Obligations.ChannelSettersStoreTheirPayload := by
  unfold Obligations.ChannelSettersStoreTheirPayload
  refine ⟨fun hd p s => ?_, fun hd p s => ?_, fun hd p s => ?_, fun hd p s => ?_, fun hd p s => ?_, fun hd p s => ?_⟩
  · intro c i ht hheld hlen hi hown hds hus hdeb hz hopen
    rw [← now_taken s c]
    refine next_hostPost_ok ht (congrArg some ((checked_pass (beq_iff_eq.2 hlen) (ownsChan_owner (by simpa using hown))
      (feBad_inRange hi hds hus hdeb) hz).trans (if_neg (by simpa using hopen)))) (by simpa [lacksDomain] using hheld) (Nat.le_refl 0) ?_
    exact still_updChan (still_taken ht.still _) _ _
  · intro c i ht hheld hlen hi hown hfl hw hw' hl hl' ha ha' hr hr' hh hh' hopen
    refine next_hostPost_ok ht (congrArg some ((checked_pass (beq_iff_eq.2 hlen) (ownsChan_owner (by simpa using hown)) ?_ (zeroAt_nil _)).trans
      (if_neg (by simpa using hopen)))) (by simpa [lacksDomain] using hheld) (Nat.le_refl 0) ?_
    · exact List.forall_mem_cons.2 ⟨by simp; omega, timerBad_inRange hfl hw hw' hl hl' ha ha' hr hr' hh hh'⟩
    · exact still_updChan (still_taken ht.still _) _ _
  · intro c i ht hheld hlen hi hown hfl
    refine next_hostPost_ok ht (congrArg some (checked_pass (beq_iff_eq.2 hlen) (ownsChan_owner (by simpa using hown)) ?_ (zeroAt_nil _)))
      (by simpa [lacksDomain] using hheld) (Nat.le_refl 0) ?_
    · simp; omega
    · exact still_updChan (still_taken ht.still _) _ _
  · intro c i ht hheld hlen hi hown hfl hk hk' hidle hidle' hlead hlead'
    refine next_hostPost_ok ht (congrArg some (checked_pass (beq_iff_eq.2 hlen) (ownsChan_owner (by simpa using hown)) ?_ (zeroAt_nil _)))
      (by simpa [lacksDomain] using hheld) (Nat.le_refl 0) ?_
    · simp; omega
    · exact still_updChan (still_taken ht.still _) _ _
  · intro c i en ht hlen hi hown hz hused
    refine next_hostPost_ok ht (congrArg some ((checked_pass (beq_iff_eq.2 hlen) (ownsChan_owner (by simpa using hown)) ?_ hz).trans
      (if_neg ?_))) rfl (Nat.le_refl 0) ?_
    · simp; omega
    · simp only [List.any_eq_true, List.mem_range, not_exists, not_and, Bool.and_eq_true]
      intro f hf hout hheld
      have : f ∈ en := hused f hf (by simpa [flowHeldAt] using hheld)
      simp [en, hf] at this hout
      simp_all
    · exact still_updHeath (still_taken ht.still _) _ _
  · intro c i ht hlen hi hown hpoll haddr
    refine next_hostPost_ok ht (congrArg some (checked_pass (beq_iff_eq.2 hlen) (ownsChan_owner (by simpa using hown)) ?_ (zeroAt_nil _))) rfl
      (Nat.le_refl 0) ?_
    · simp; omega
    · exact still_updChan (still_taken ht.still _) _ _

end Sys2Proof.Machine

/-! PROOF. What a plan in the making leaves as it is. A plan touches the state in two ways only: a head without a flow tag leaves its
queue (R174), and a hold for a suspect key is entered or ended (R298). What both leave alone, every plan leaves alone. -/

namespace Sys2Proof.Machine

/-- A view of the state that neither of the two ways changes. -/
structure PlanKeeps {β : Type} (view : State → β) : Prop where
  noFlow : ∀ (s : State) (q : Nat) (f : Frame), view (s.takeOut q (fun g => g.id == f.id) fun s _ => s.bumpQ q .dropNoflow) = view s
  keyHold : ∀ (s : State) (c q : Nat) (n : BitVec 48) (u : Bool), view (s.keyHold c q n u).2 = view s

theorem s_setDeficits (x : PlanAcc) (d : Drr) : (x.setDeficits d).s = x.s := rfl

theorem s_clearDeficit (x : PlanAcc) (e : PlanFor) (m : Nat) : (x.clearDeficit e m).s = x.s := rfl

namespace PlanKeeps
variable {β : Type} {view : State → β} (h : PlanKeeps view) (e : PlanFor)
include h

theorem head (q k : Nat) (x : PlanAcc) : view (PlanAcc.head e q k x).2.s = view x.s := by
  induction k generalizing x with
  | zero => rfl
  | succ k ih =>
    unfold PlanAcc.head
    split
    · rfl
    · split
      · rfl
      · exact (ih _).trans (h.noFlow _ _ _)

theorem peek (q : Nat) (x : PlanAcc) : view (PlanAcc.peek e q x).2.s = view x.s := by
  have hhead := h.head e q ((x.frames e q).length + 1) x
  unfold PlanAcc.peek
  split
  · next heq => rwa [heq] at hhead
  · next f sp u y heq =>
    rw [heq] at hhead
    split
    · exact hhead
    · have hkey := (h.keyHold y.s e.c q e.frame u).trans hhead
      dsimp only
      split
      · exact hkey
      · split <;> exact hkey

theorem drain (q k : Nat) (x : PlanAcc) : view (PlanAcc.drain e q k x).s = view x.s := by
  induction k generalizing x with
  | zero => rfl
  | succ k ih =>
    have hpeek := h.peek e q x
    unfold PlanAcc.drain
    split
    · next heq =>
      rw [heq] at hpeek
      exact (ih _).trans hpeek
    · next heq => rwa [heq] at hpeek

theorem strict (qs : List Nat) (x : PlanAcc) : view (PlanAcc.strict e qs x).s = view x.s :=
  view_foldl (fun y : PlanAcc => view y.s) (fun y q => h.drain e q _ y) qs x

theorem turn (q m k : Nat) (x : PlanAcc) : view (PlanAcc.turn e q m k x).2.s = view x.s := by
  induction k generalizing x with
  | zero => rfl
  | succ k ih =>
    have hpeek := h.peek e q x
    unfold PlanAcc.turn
    split
    · next heq =>
      rw [heq] at hpeek
      dsimp only
      split
      · exact (ih _).trans hpeek
      · exact hpeek
    · next heq => rwa [heq] at hpeek
    · next heq => rwa [heq] at hpeek

theorem rounds (k : Nat) (w : List (Nat × Nat × Nat)) (x : PlanAcc) : view (PlanAcc.rounds e k w x).s = view x.s := by
  induction k generalizing w x with
  | zero => rfl
  | succ k ih =>
    unfold PlanAcc.rounds
    split
    next ok y heq =>
    have hok : view y.s = view x.s := by
      refine (congrArg (fun acc : List (Nat × Nat × Nat) × PlanAcc => view acc.2.s) heq.symm).trans
        (view_foldl (fun acc : List (Nat × Nat × Nat) × PlanAcc => view acc.2.s) (fun acc m => ?_) w ([], x))
      have hpeek := h.peek e m.1 acc.2
      split <;> next heq => rwa [heq] at hpeek
    split
    · exact hok
    · refine (ih _ _).trans ?_
      rw [s_setDeficits, apply_ite PlanAcc.s, s_clearDeficit, ite_self]
      exact (h.turn e _ _ (_ + 1) _).trans hok

theorem fill (x : PlanAcc) : view (PlanAcc.fill x e).s = view x.s := by
  unfold PlanAcc.fill
  split
  · exact h.strict e _ x
  · dsimp only
    split
    · exact (h.strict e _ _).trans (h.rounds e _ _ _)
    · exact h.strict e _ x

theorem bodies (gs : List Grant) (x : PlanAcc) : view (PlanAcc.bodies e gs x).2.s = view x.s := by
  refine view_foldl (fun acc : List (List PlanSeg) × PlanAcc => view acc.2.s) (fun acc g => ?_) gs ([], x)
  split
  · rfl
  · exact h.fill e _

theorem planBurst (b : Burst) (x : PlanAcc) : view (State.planBurst e b x).2.s = view x.s := h.bodies e b.grants _

end PlanKeeps
end Sys2Proof.Machine

/-! PROOF. What the units leave alone: the fuses burned of the anti-rollback counter (R475) and the commands that each endpoint has
waiting, kept or applying (R519, R522, R525). One lemma per operation of the model, in the order of its files; what an operation does
to a command interface with nothing waiting follows, and so does what it does to the counter. -/

namespace Sys2Proof.Machine

/-- What an endpoint holds of commands: waiting, fetched, kept, applying on its ring and on its mailbox, and waiting for its mailbox. -/
@[simp] abbrev EpSt.held6 (e : EpSt) : List RawCmd × Nat × List RawCmd × Option RawCmd × Option RawCmd × Option RawCmd :=
  (e.waiting, e.fetched, e.kept, e.applying, e.mboxApplying, e.mboxWait)

/-- The fuses burned and the commands held, of the firmware's state and the endpoints'. -/
def cmdViewOf (svn : Nat) (eps : Tab EpSt) : Nat × (Nat → List RawCmd × Nat × List RawCmd × Option RawCmd × Option RawCmd × Option RawCmd) :=
  (svn, fun k => (Tab.get {} eps k).held6)

namespace State

/-- The fuses burned, and the commands that each endpoint holds. -/
def cmdView (s : State) : Nat × (Nat → List RawCmd × Nat × List RawCmd × Option RawCmd × Option RawCmd × Option RawCmd) :=
  cmdViewOf s.fw.svn s.eps

theorem svn_eq_of_cmdView {s t : State} (h : t.cmdView = s.cmdView) : t.fw.svn = s.fw.svn := congrArg Prod.fst h

theorem held6_eq_of_cmdView {s t : State} (h : t.cmdView = s.cmdView) (k : Nat) : (t.ep k).held6 = (s.ep k).held6 :=
  congrFun (congrArg Prod.snd h) k

theorem epIdle_iff_held6 (s : State) (k : Nat) : s.EpIdle k ↔ (s.ep k).held6 = ([], 0, [], none, none, none) := by
  simp [EpIdle, EpSt.held6]

/-- What leaves the commands held alone leaves a still command interface still. -/
theorem still_of_cmdView {s t : State} (hs : s.Still) (h : t.cmdView = s.cmdView) : t.Still := by
  intro k hk
  rw [epIdle_iff_held6, held6_eq_of_cmdView h]
  exact (epIdle_iff_held6 s k).1 (hs k hk)

theorem cmdView_congr {s t : State} (hsvn : t.fw.svn = s.fw.svn) (heps : t.eps = s.eps) : t.cmdView = s.cmdView := by
  rw [cmdView, cmdView, hsvn, heps]

@[simp] theorem cmdView_ite (c : Prop) [Decidable c] (s t : State) : (if c then s else t).cmdView = if c then s.cmdView else t.cmdView :=
  apply_ite cmdView c s t

@[simp] theorem cmdView_foldl {α : Type} {f : State → α → State} (h : ∀ s a, (f s a).cmdView = s.cmdView) (l : List α) (s : State) :
    (l.foldl f s).cmdView = s.cmdView := by
  induction l generalizing s with
  | nil => rfl
  | cons a l ih => rw [List.foldl_cons, ih, h]

/-! The counter alone. -/

@[simp] theorem svn_ite (c : Prop) [Decidable c] (s t : State) :
    (if c then s.cmdView else t.cmdView).1 = if c then s.cmdView.1 else t.cmdView.1 :=
  apply_ite Prod.fst c s.cmdView t.cmdView

@[simp] theorem svn_foldl {α : Type} {f : State → α → State} (h : ∀ s a, (f s a).cmdView.1 = s.cmdView.1) (l : List α) (s : State) :
    (l.foldl f s).cmdView.1 = s.cmdView.1 := by
  induction l generalizing s with
  | nil => rfl
  | cons a l ih => rw [List.foldl_cons, ih, h]

/-! A state written out field by field. -/

@[simp] theorem cmdView_mk (chans queues allocs peaks policers rules counters slices bonds lags mem gorse time trib ports macs lanes pwr rst mgmt parts recRates out now draws nextFrame pending)
    (fw : FwSt) (eps : Tab EpSt) :
    State.cmdView ⟨chans, queues, allocs, peaks, policers, rules, counters, slices, bonds, lags, mem, gorse, time, trib, ports, macs, lanes, pwr, rst, fw, mgmt, parts, eps, recRates, out, now, draws, nextFrame, pending⟩ = cmdViewOf fw.svn eps := (rfl)

@[simp] theorem cmdViewOf_svn_eps (s : State) : cmdViewOf s.fw.svn s.eps = s.cmdView := (rfl)

variable (s : State) (i : Nat)

@[simp] theorem cmdView_updChan (f : ChanSt → ChanSt) : (s.updChan i f).cmdView = s.cmdView := (rfl)
@[simp] theorem cmdView_updQueue (f : QueueSt → QueueSt) : (s.updQueue i f).cmdView = s.cmdView := (rfl)
@[simp] theorem cmdView_updAlloc (f : AllocSt → AllocSt) : (s.updAlloc i f).cmdView = s.cmdView := (rfl)
@[simp] theorem cmdView_updPeak (f : Shaper → Shaper) : (s.updPeak i f).cmdView = s.cmdView := (rfl)
@[simp] theorem cmdView_updPolicer (f : PolicerSt → PolicerSt) : (s.updPolicer i f).cmdView = s.cmdView := (rfl)
@[simp] theorem cmdView_updSlice (f : SliceSt → SliceSt) : (s.updSlice i f).cmdView = s.cmdView := (rfl)
@[simp] theorem cmdView_updBond (f : BondSt → BondSt) : (s.updBond i f).cmdView = s.cmdView := (rfl)
@[simp] theorem cmdView_updLag (f : LagSt → LagSt) : (s.updLag i f).cmdView = s.cmdView := (rfl)
@[simp] theorem cmdView_updPort (f : PortSt → PortSt) : (s.updPort i f).cmdView = s.cmdView := (rfl)
@[simp] theorem cmdView_updMac (f : MacSt → MacSt) : (s.updMac i f).cmdView = s.cmdView := (rfl)
@[simp] theorem cmdView_updLane (f : LaneSt → LaneSt) : (s.updLane i f).cmdView = s.cmdView := (rfl)
@[simp] theorem cmdView_updPart (f : PartSt → PartSt) : (s.updPart i f).cmdView = s.cmdView := (rfl)
@[simp] theorem cmdView_updPdom (f : PwrDom → PwrDom) : (s.updPdom i f).cmdView = s.cmdView := (rfl)
@[simp] theorem cmdView_updDom (f : DomainSt → DomainSt) : (s.updDom i f).cmdView = s.cmdView := (rfl)
@[simp] theorem cmdView_updTrig (f : TrigSt → TrigSt) : (s.updTrig i f).cmdView = s.cmdView := (rfl)
@[simp] theorem cmdView_updCapt (f : CaptSt → CaptSt) : (s.updCapt i f).cmdView = s.cmdView := (rfl)
@[simp] theorem cmdView_updPtp (f : PtpSrc → PtpSrc) : (s.updPtp i f).cmdView = s.cmdView := (rfl)
@[simp] theorem cmdView_updStream (f : StreamSt → StreamSt) : (s.updStream i f).cmdView = s.cmdView := (rfl)
@[simp] theorem cmdView_updBank (f : BankSt → BankSt) : (s.updBank i f).cmdView = s.cmdView := (rfl)
@[simp] theorem cmdView_updStack (f : StackSt → StackSt) : (s.updStack i f).cmdView = s.cmdView := (rfl)
@[simp] theorem cmdView_updPin (f : PinSt → PinSt) : (s.updPin i f).cmdView = s.cmdView := (rfl)
@[simp] theorem cmdView_updRx (f : ChanRx → ChanRx) : (s.updRx i f).cmdView = s.cmdView := (rfl)
@[simp] theorem cmdView_updTc (f : ChanTc → ChanTc) : (s.updTc i f).cmdView = s.cmdView := (rfl)
@[simp] theorem cmdView_updHeath (f : ChanHeath → ChanHeath) : (s.updHeath i f).cmdView = s.cmdView := (rfl)
@[simp] theorem cmdView_updKeys (f : ChanKeys → ChanKeys) : (s.updKeys i f).cmdView = s.cmdView := (rfl)
@[simp] theorem cmdView_updUs (f : ChanUs → ChanUs) : (s.updUs i f).cmdView = s.cmdView := (rfl)
@[simp] theorem cmdView_updTrib (f : ChanTrib → ChanTrib) : (s.updTrib i f).cmdView = s.cmdView := (rfl)
@[simp] theorem cmdView_updCl (f : PartCl → PartCl) : (s.updCl i f).cmdView = s.cmdView := (rfl)
@[simp] theorem cmdView_updMgmt (f : MgmtSt → MgmtSt) : (s.updMgmt f).cmdView = s.cmdView := (rfl)
@[simp] theorem cmdView_updPwr (f : PwrSt → PwrSt) : (s.updPwr f).cmdView = s.cmdView := (rfl)
@[simp] theorem cmdView_updRst (f : RstSt → RstSt) : (s.updRst f).cmdView = s.cmdView := (rfl)
@[simp] theorem cmdView_updMem (f : MemSt → MemSt) : (s.updMem f).cmdView = s.cmdView := (rfl)
@[simp] theorem cmdView_updGorse (f : GorseSt → GorseSt) : (s.updGorse f).cmdView = s.cmdView := (rfl)
@[simp] theorem cmdView_updKwe (f : KweSt → KweSt) : (s.updKwe f).cmdView = s.cmdView := (rfl)
@[simp] theorem cmdView_updTime (f : TimeSt → TimeSt) : (s.updTime f).cmdView = s.cmdView := (rfl)

@[simp] theorem cmdView_updFw (f : FwSt → FwSt) (h : ∀ x, (f x).svn = x.svn) : (s.updFw f).cmdView = s.cmdView :=
  cmdView_congr (h s.fw) rfl

@[simp] theorem cmdView_updEp (f : EpSt → EpSt) (h : ∀ e, (f e).held6 = e.held6) : (s.updEp i f).cmdView = s.cmdView := by
  refine Prod.ext rfl (funext fun k => ?_)
  show ((s.updEp i f).ep k).held6 = (s.ep k).held6
  rw [ep_updEp]
  split
  · next hk => rw [hk, h]
  · rfl

/-- The counter is the firmware's: nothing of an endpoint changes it. -/
@[simp] theorem svn_updEp (f : EpSt → EpSt) : (s.updEp i f).cmdView.1 = s.cmdView.1 := (rfl)

end State

end Sys2Proof.Machine

/-! PROOF. What each operation of the model leaves of the command interfaces and of the fuses (`State.cmdView`): one lemma per operation,
in the order of the model. `cmdView_f` says that f keeps both; `svn_f` that f keeps the fuses, where it moves commands. -/

namespace Sys2Proof.Machine.State
@[simp] theorem cmdView_bump (s : State) (c : Nat) (k : ChanCtr) (n : optParam Nat 1) : (s.bump c k n).cmdView = s.cmdView := by simp [State.bump]
@[simp] theorem cmdView_bumpQ (s : State) (q : Nat) (k : QCtr) (n : optParam Nat 1) : (s.bumpQ q k n).cmdView = s.cmdView := by simp [State.bumpQ]
@[simp] theorem cmdView_bumpPol (s : State) (i : Nat) (k : PolCtr) (n : optParam Nat 1) : (s.bumpPol i k n).cmdView = s.cmdView := by simp [State.bumpPol]
@[simp] theorem cmdView_bumpCl (s : State) (i : Nat) (k : ClCtr) (n : optParam Nat 1) : (s.bumpCl i k n).cmdView = s.cmdView := by simp [State.bumpCl]
@[simp] theorem cmdView_bumpBond (s : State) (g : Nat) (k : BondCtr) (n : optParam Nat 1) : (s.bumpBond g k n).cmdView = s.cmdView := by simp [State.bumpBond]
@[simp] theorem cmdView_bumpMem (s : State) (k : MemCtr) (n : optParam Nat 1) : (s.bumpMem k n).cmdView = s.cmdView := by simp [State.bumpMem]
@[simp] theorem cmdView_bumpTm (s : State) (d : Nat) (k : TmCtr) (n : optParam Nat 1) : (s.bumpTm d k n).cmdView = s.cmdView := by simp [State.bumpTm]
@[simp] theorem cmdView_bumpTrib (s : State) (c : Nat) (k : TribCtr) (n : optParam Nat 1) : (s.bumpTrib c k n).cmdView = s.cmdView := by simp [State.bumpTrib]
@[simp] theorem cmdView_bumpStream (s : State) (i : Nat) (k : StreamCtr) (n : optParam Nat 1) : (s.bumpStream i k n).cmdView = s.cmdView := by simp [State.bumpStream]
@[simp] theorem cmdView_bumpMac (s : State) (m : Nat) (idx : Nat) (n : optParam Nat 1) : (s.bumpMac m idx n).cmdView = s.cmdView := by simp [State.bumpMac]
@[simp] theorem cmdView_bumpLane (s : State) (l : Nat) (k : LaneCtr) (n : optParam Nat 1) : (s.bumpLane l k n).cmdView = s.cmdView := by simp [State.bumpLane]
@[simp] theorem cmdView_emit (s : State) (o : Out) : (s.emit o).cmdView = s.cmdView := by simp [State.emit]
@[simp] theorem cmdView_setPin (s : State) (i : Nat) (st : Nat) : (s.setPin i st).cmdView = s.cmdView := by simp [State.setPin]
@[simp] theorem cmdView_draw (s : State) : (s.draw).2.cmdView = s.cmdView := by simp [State.draw]
@[simp] theorem cmdView_writeIndex (s : State) (k : Nat) : (s.writeIndex k).cmdView = s.cmdView := by simp [State.writeIndex]
@[simp] theorem cmdView_signalCmp (s : State) (k : Nat) : (s.signalCmp k).cmdView = s.cmdView := by simp [State.signalCmp]
@[simp] theorem cmdView_signalEvt (s : State) (k : Nat) : (s.signalEvt k).cmdView = s.cmdView := by simp [State.signalEvt]
@[simp] theorem cmdView_publishCmp (s : State) (k : Nat) (c : Completion) : (s.publishCmp k c).cmdView = s.cmdView := by simp [State.publishCmp]
@[simp] theorem cmdView_complete (s : State) (k : Nat) (c : Completion) : (s.complete k c).cmdView = s.cmdView := by simp [State.complete]
@[simp] theorem cmdView_publishEvt (s : State) (k : Nat) (p : EvPost) : (s.publishEvt k p).cmdView = s.cmdView := by simp [State.publishEvt]
@[simp] theorem cmdView_logAppend (s : State) (r : EvRec) : (s.logAppend r).cmdView = s.cmdView := by simp [State.logAppend]
@[simp] theorem cmdView_gaspAppend (s : State) (r : EvRec) : (s.gaspAppend r).cmdView = s.cmdView := by simp [State.gaspAppend]
@[simp] theorem cmdView_postNow (s : State) (p : EvPost) : (s.postNow p).cmdView = s.cmdView := by simp [State.postNow]
@[simp] theorem cmdView_post (s : State) (p : EvPost) : (s.post p).cmdView = s.cmdView := by simp [State.post]
@[simp] theorem cmdView_event (s : State) (code : Nat) (sev : Nat) (kind : Nat) (idx : Nat) (detail : List Byte) (parts : List Nat) (raised : optParam Bool false) : (s.event code sev kind idx detail parts raised).cmdView = s.cmdView := by simp [State.event]
@[simp] theorem cmdView_enterAlarm (s : State) (code : Nat) (sev : Nat) (kind : Nat) (idx : Nat) (parts : List Nat) : (s.enterAlarm code sev kind idx parts).cmdView = s.cmdView := by simp [State.enterAlarm]
@[simp] theorem cmdView_raiseAlarm (s : State) (code : Nat) (sev : Nat) (kind : Nat) (idx : Nat) (detail : List Byte) (parts : List Nat) : (s.raiseAlarm code sev kind idx detail parts).cmdView = s.cmdView := by simp [State.raiseAlarm]
@[simp] theorem cmdView_clearAlarm (s : State) (code : Nat) (kind : Nat) (idx : Nat) (detail : optParam (List Byte) (List.replicate 8 0)) : (s.clearAlarm code kind idx detail).cmdView = s.cmdView := by unfold State.clearAlarm; split <;> simp
@[simp] theorem cmdView_absentResponse (s : State) (d : Nat) (n : Nat) : (s.absentResponse d n).cmdView = s.cmdView := by simp [State.absentResponse]
@[simp] theorem cmdView_rampUp (s : State) (cls : Nat) (d : Nat) : (s.rampUp cls d).cmdView = s.cmdView := by simp [State.rampUp]
@[simp] theorem cmdView_rampDown (s : State) (d : Nat) : (s.rampDown d).cmdView = s.cmdView := by simp [State.rampDown]
@[simp] theorem cmdView_grantWake (s : State) (cls : Nat) (d : Nat) : (s.grantWake cls d).cmdView = s.cmdView := by simp [State.grantWake]
@[simp] theorem cmdView_queueWake (s : State) (cls : Nat) (d : Nat) : (s.queueWake cls d).cmdView = s.cmdView := by simp [State.queueWake]
@[simp] theorem cmdView_requestWake (s : State) (cls : Nat) (d : Nat) : (s.requestWake cls d).cmdView = s.cmdView := by unfold State.requestWake; split <;> simp
@[simp] theorem cmdView_dropWake (s : State) (d : Nat) : (s.dropWake d).cmdView = s.cmdView := by simp [State.dropWake]
@[simp] theorem cmdView_requestRelease (s : State) (d : Nat) : (s.requestRelease d).cmdView = s.cmdView := by unfold State.requestRelease; split <;> simp
@[simp] theorem cmdView_arbClocks (n : Nat) (s : State) : (arbClocks n s).cmdView = s.cmdView := by
  induction n generalizing s with
  | zero => rfl
  | succ n ih => exact ih _

@[simp] theorem cmdView_askBanks (s : State) (n : Nat) (cells : List Nat) : (s.askBanks n cells).cmdView = s.cmdView := by simp [State.askBanks]
@[simp] theorem cmdView_dropReqs (s : State) (d : Nat) : (s.dropReqs d).cmdView = s.cmdView := by simp [State.dropReqs]
@[simp] theorem cmdView_refuseSpill (s : State) (i : Nat) (q : Option Nat) : (s.refuseSpill i q).cmdView = s.cmdView := by simp [State.refuseSpill]
@[simp] theorem cmdView_acceptSpill (s : State) (i : Nat) : (s.acceptSpill i).cmdView = s.cmdView := by simp [State.acceptSpill]
@[simp] theorem cmdView_trigFree (s : State) (c : Nat) : (s.trigFree c).cmdView = s.cmdView := by simp [State.trigFree]
@[simp] theorem cmdView_trigBoundary (s : State) (c : Nat) (b : TimeVal) (p : TimeVal) : (s.trigBoundary c b p).cmdView = s.cmdView := by
  unfold State.trigBoundary
  refine cmdView_foldl (fun s a => ?_) _ _
  dsimp only
  repeat' split
  all_goals simp
@[simp] theorem cmdView_keepEstimate (before after : State) : (keepEstimate before after).cmdView = after.cmdView := by
  unfold keepEstimate
  split <;> simp

@[simp] theorem cmdView_presentedStep (s : State) (p : TimeVal) : (s.presentedStep p).cmdView = s.cmdView := by simp [presentedStep]

@[simp] theorem cmdView_discontinuity (s : State) (d : TimeVal) : (s.discontinuity d).cmdView = s.cmdView := by
  unfold State.discontinuity
  dsimp only
  repeat' split
  all_goals simp
@[simp] theorem cmdView_setActive (s : State) (d : Nat) : (s.setActive d).cmdView = s.cmdView := by simp [State.setActive]
@[simp] theorem cmdView_reselect (s : State) : (s.reselect).cmdView = s.cmdView := by unfold State.reselect; split <;> simp
@[simp] theorem cmdView_dropLarge (s : State) (d : Nat) : (s.dropLarge d).cmdView = s.cmdView := by simp [State.dropLarge]
@[simp] theorem cmdView_loseSource (s : State) (d : Nat) : (s.loseSource d).cmdView = s.cmdView := by simp [State.loseSource]
@[simp] theorem cmdView_chanLosesTime (s : State) (c : Nat) : (s.chanLosesTime c).cmdView = s.cmdView := by simp [State.chanLosesTime]
theorem cmdView_allocCell {s t : State} {b : Nat} (h : s.allocCell = some (b, t)) : t.cmdView = s.cmdView := by
  unfold allocCell at h
  split at h
  · cases h
  · cases h
    simp
@[simp] theorem cmdView_allocCells (n : Nat) (s : State) : (allocCells n s).2.cmdView = s.cmdView := by
  induction n generalizing s with
  | zero => rfl
  | succ n ih =>
    unfold allocCells
    split
    · rfl
    · next b t h => exact (ih t).trans (cmdView_allocCell h)

@[simp] theorem cmdView_gateIfEmpty (s : State) (b : Nat) : (s.gateIfEmpty b).cmdView = s.cmdView := by simp [State.gateIfEmpty]
@[simp] theorem cmdView_pressureTest (s : State) (q : Nat) : (s.pressureTest q).cmdView = s.cmdView := by simp [State.pressureTest]
@[simp] theorem cmdView_cellsChanged (s : State) : (s.cellsChanged).cmdView = s.cmdView := by simp [State.cellsChanged]
@[simp] theorem cmdView_freeFrame (s : State) (f : Frame) : (s.freeFrame f).cmdView = s.cmdView := by simp [State.freeFrame]
@[simp] theorem cmdView_startWrites (s : State) (i : Nat) : (s.startWrites i).cmdView = s.cmdView := by simp [State.startWrites]
@[simp] theorem cmdView_wakeStack (s : State) (i : Nat) (cls : Nat) : (s.wakeStack i cls).cmdView = s.cmdView := by simp [State.wakeStack]
@[simp] theorem cmdView_askWrite (s : State) (q : Nat) (i : Nat) : (s.askWrite q i).cmdView = s.cmdView := by simp [State.askWrite]
@[simp] theorem cmdView_storePage (s : State) (q : Nat) (mk : Nat → Nat → Page) : (s.storePage q mk).cmdView = s.cmdView := by unfold State.storePage; split <;> simp
@[simp] theorem cmdView_formPages (n q : Nat) (s : State) : (formPages n q s).cmdView = s.cmdView := by
  induction n generalizing s with
  | zero => rfl
  | succ n ih =>
    unfold formPages
    dsimp only
    split <;> simp [ih]

@[simp] theorem cmdView_intoHead (s : State) (q : Nat) (via : Nat) (f : Frame) : (s.intoHead q via f).cmdView = s.cmdView := by simp [State.intoHead]
@[simp] theorem cmdView_joinTail (s : State) (q : Nat) : (s.joinTail q).cmdView = s.cmdView := by simp [State.joinTail]
@[simp] theorem cmdView_occupy (s : State) (m : Nat) (len : Nat) (start : Nat) : (s.occupy m len start).cmdView = s.cmdView := by simp [State.occupy]
@[simp] theorem cmdView_sendPause (s : State) (m : Nat) (prio : Nat) (time : Nat) : (s.sendPause m prio time).cmdView = s.cmdView := by simp [State.sendPause]
@[simp] theorem cmdView_updatePoint (s : State) (m prio : Nat) : (s.updatePoint m prio).cmdView = s.cmdView := by
  unfold updatePoint
  dsimp only
  split
  · rfl
  · split
    · simp
    · split
      · split <;> simp
      · rfl
@[simp] theorem cmdView_queueChanged (s : State) (q : Nat) : (s.queueChanged q).cmdView = s.cmdView := by
  unfold queueChanged
  split <;> simp

@[simp] theorem cmdView_enqTest (s : State) (q : Nat) (l : Nat) (col : Colour) : (s.enqTest q l col).2.cmdView = s.cmdView := by
  unfold State.enqTest
  dsimp only
  repeat' split
  all_goals simp
@[simp] theorem cmdView_notePeak (s : State) (q : Nat) : (s.notePeak q).cmdView = s.cmdView := by simp [State.notePeak]
@[simp] theorem cmdView_place (s : State) (q : Nat) (f : Frame) : (s.place q f).cmdView = s.cmdView := by simp [State.place]
@[simp] theorem cmdView_wakePort (s : State) (p : Nat) (cause : Nat) : (s.wakePort p cause).cmdView = s.cmdView := by simp [State.wakePort]
@[simp] theorem cmdView_removeFrames (s : State) (q : Nat) (sel : Frame → Bool) (count : State → Frame → State)
    (h : ∀ s f, (count s f).cmdView = s.cmdView) : (s.removeFrames q sel count).cmdView = s.cmdView := by
  simp [removeFrames, h]

@[simp] theorem cmdView_countDeq (q : Nat) (s : State) (f : Frame) : (s.countDeq q f).cmdView = s.cmdView := by simp [State.countDeq]
@[simp] theorem cmdView_settleHeads (s : State) (q : Nat) : (s.settleHeads q).cmdView = s.cmdView := by simp [State.settleHeads]
@[simp] theorem cmdView_takeOut (s : State) (q : Nat) (sel : Frame → Bool) (count : State → Frame → State)
    (h : ∀ s f, (count s f).cmdView = s.cmdView) : (s.takeOut q sel count).cmdView = s.cmdView := by
  simp [takeOut, h]

@[simp] theorem cmdView_enqueue (s : State) (q : Nat) (f : Frame) : (s.enqueue q f).cmdView = s.cmdView := by
  have htest := cmdView_enqTest s q f.len f.colour
  unfold enqueue
  split
  · next heq => simpa [heq] using htest
  · next heq =>
    rw [heq] at htest
    dsimp only
    split <;> simpa using htest

@[simp] theorem cmdView_dropPages (s : State) (q : Nat) : (s.dropPages q).cmdView = s.cmdView := by
  unfold dropPages
  dsimp only
  split <;> simp

@[simp] theorem cmdView_flush (s : State) (q : Nat) : (s.flush q).cmdView = s.cmdView := by simp [State.flush]
@[simp] theorem cmdView_loseAll (s : State) (q : Nat) : (s.loseAll q).cmdView = s.cmdView := by simp [State.loseAll]
@[simp] theorem cmdView_loseStream (s : State) (q : Nat) (lo : Nat) (hi : Nat) : (s.loseStream q lo hi).cmdView = s.cmdView := by simp [State.loseStream]
@[simp] theorem cmdView_stageFrames (s : State) (q : Nat) (via : Nat) : (s.stageFrames q via).cmdView = s.cmdView := by
  unfold State.stageFrames
  refine cmdView_foldl (fun s a => ?_) _ _
  split <;> simp
@[simp] theorem cmdView_bondLapse (s : State) (c : Nat) : (s.bondLapse c).cmdView = s.cmdView := by unfold State.bondLapse; split <;> simp
@[simp] theorem cmdView_writeRecord (s : State) (k : Nat) (ts : Bool) (mk : Bool → Nat → List Byte) : (s.writeRecord k ts mk).cmdView = s.cmdView := by unfold State.writeRecord; split <;> simp
@[simp] theorem cmdView_updateHalt (s : State) (q : Nat) : (s.updateHalt q).cmdView = s.cmdView := by
  unfold updateHalt
  extract_lets h x
  split
  · simp
  · split <;> simp

@[simp] theorem cmdView_updateHalts (s : State) (c : Nat) : (s.updateHalts c).cmdView = s.cmdView := by simp [updateHalts]

@[simp] theorem cmdView_updBurst (s : State) (c id : Nat) (f : Burst → Burst) : (s.updBurst c id f).cmdView = s.cmdView := by
  simp [updBurst]
@[simp] theorem cmdView_putCfg (s : State) (q : Nat) (new : QCfg) : (s.putCfg q new).cmdView = s.cmdView := by
  unfold putCfg
  dsimp only
  split
  · split <;> simp
  · simp

@[simp] theorem cmdView_setQueue (s : State) (q : Nat) (new : QCfg) : (s.setQueue q new).cmdView = s.cmdView := by simp [State.setQueue]
@[simp] theorem cmdView_tickBuckets (s : State) : (s.tickBuckets).cmdView = s.cmdView := by simp [State.tickBuckets]
@[simp] theorem cmdView_doQueueSample (q : Nat) (s : State) : (doQueueSample q s).cmdView = s.cmdView := by simp [doQueueSample]
@[simp] theorem cmdView_chanEvent (s : State) (c : Nat) (code : Nat) (sev : Nat) (detail : List Byte) (raised : optParam Bool false) : (s.chanEvent c code sev detail raised).cmdView = s.cmdView := by simp [State.chanEvent]
@[simp] theorem cmdView_postChanState (s : State) (c : Nat) (old : Nat) (new : Nat) (x : Cause) : (s.postChanState c old new x).cmdView = s.cmdView := by simp [State.postChanState]
@[simp] theorem cmdView_leaveOperating (s : State) (c : Nat) : (s.leaveOperating c).cmdView = s.cmdView := by simp [State.leaveOperating]
@[simp] theorem cmdView_setState (s : State) (c : Nat) (new : TState) (x : Cause) : (s.setState c new x).cmdView = s.cmdView := by simp [State.setState]
@[simp] theorem cmdView_fillKeyed (s : State) (c : Nat) : (s.fillKeyed c).cmdView = s.cmdView := by
  refine cmdView_foldl (fun t b => ?_) _ _
  dsimp only
  rw [cmdView_updUs]
  exact cmdView_foldl (fun u g => by simp) _ _

@[simp] theorem cmdView_clearKeys (s : State) (c : Nat) : (s.clearKeys c).cmdView = s.cmdView := by simp [State.clearKeys]
@[simp] theorem cmdView_clearContext (s : State) (c : Nat) : (s.clearContext c).cmdView = s.cmdView := by simp [State.clearContext]
@[simp] theorem cmdView_dropEpochs (s : State) (c : Nat) : (s.dropEpochs c).cmdView = s.cmdView := by simp [State.dropEpochs]
@[simp] theorem cmdView_unclaim (s : State) (q : Nat) (sel : Frame → Bool) : (s.unclaim q sel).cmdView = s.cmdView := by simp [State.unclaim]
@[simp] theorem cmdView_returnSegs (s : State) (b : Burst) : (s.returnSegs b).cmdView = s.cmdView := by simp [State.returnSegs]
@[simp] theorem cmdView_sendStream (s : State) (c : Nat) (bytes : List Byte) : (s.sendStream c bytes).cmdView = s.cmdView := by simp [State.sendStream]
@[simp] theorem cmdView_sendBurst (s : State) (c : Nat) (start : Nat) (bytes : List Byte) : (s.sendBurst c start bytes).cmdView = s.cmdView := by simp [State.sendBurst]
@[simp] theorem cmdView_endActivation (s : State) (c : Nat) : (s.endActivation c).cmdView = s.cmdView := by simp [State.endActivation]
@[simp] theorem cmdView_releaseUs (s : State) (c : Nat) : (s.releaseUs c).cmdView = s.cmdView := by simp [State.releaseUs]
@[simp] theorem cmdView_cancelBursts (s : State) (c : Nat) : (s.cancelBursts c).cmdView = s.cmdView := by simp [State.cancelBursts]
@[simp] theorem cmdView_driveBgate (s : State) (c : Nat) (level : Bool) (t : Nat) : (s.driveBgate c level t).cmdView = s.cmdView := by simp [State.driveBgate]
@[simp] theorem cmdView_cutBurst (s : State) (c : Nat) (b : Burst) : (s.cutBurst c b).cmdView = s.cmdView := by simp [State.cutBurst]
@[simp] theorem cmdView_stopUpstream (s : State) (c : Nat) : (s.stopUpstream c).cmdView = s.cmdView := by simp [State.stopUpstream]
@[simp] theorem cmdView_queueEntry (s : State) (c : Nat) (e : UpEntry) : (s.queueEntry c e).cmdView = s.cmdView := by simp [State.queueEntry]
@[simp] theorem cmdView_queueTcm (s : State) (c : Nat) (m : UpTcm) (ready : Option (BitVec 48)) : (s.queueTcm c m ready).cmdView = s.cmdView := by simp [State.queueTcm]
@[simp] theorem cmdView_ackTcm (s : State) (c : Nat) (type : Nat) (seq : Byte) (result : Nat) (n : BitVec 48) : (s.ackTcm c type seq result n).cmdView = s.cmdView := by simp [State.ackTcm]
@[simp] theorem cmdView_takeTcm (s : State) (c : Nat) (n : BitVec 48) : (s.takeTcm c n).2.cmdView = s.cmdView := by unfold State.takeTcm; split <;> simp
@[simp] theorem cmdView_alarmRpt (s : State) (c : Nat) (code : Nat) (raised : Bool) (detail : Nat) (ready : optParam (Option (BitVec 48)) none) : (s.alarmRpt c code raised detail ready).cmdView = s.cmdView := by simp [State.alarmRpt]
@[simp] theorem cmdView_chanCondition (s : State) (c : Nat) (code : Nat) (detail : Nat) (ready : optParam (Option (BitVec 48)) none) : (s.chanCondition c code detail ready).cmdView = s.cmdView := by simp [State.chanCondition]
@[simp] theorem cmdView_raiseChan (s : State) (c : Nat) (code : Nat) (detail : Nat) : (s.raiseChan c code detail).cmdView = s.cmdView := by simp [State.raiseChan]
@[simp] theorem cmdView_clearChan (s : State) (c : Nat) (code : Nat) (detail : Nat) : (s.clearChan c code detail).cmdView = s.cmdView := by simp [State.clearChan]
@[simp] theorem cmdView_tryLocked (s : State) (c : Nat) : (s.tryLocked c).cmdView = s.cmdView := by simp [State.tryLocked]
@[simp] theorem cmdView_enterListen (s : State) (c : Nat) (x : Cause) : (s.enterListen c x).cmdView = s.cmdView := by simp [State.enterListen]
@[simp] theorem cmdView_enterHoldover (s : State) (c : Nat) (h : HoldInfo) : (s.enterHoldover c h).cmdView = s.cmdView := by simp [State.enterHoldover]
@[simp] theorem cmdView_enterSilenced (s : State) (c : Nat) (x : Cause) : (s.enterSilenced c x).cmdView = s.cmdView := by simp [State.enterSilenced]
@[simp] theorem cmdView_leaveSilenced (s : State) (c : Nat) : (s.leaveSilenced c).cmdView = s.cmdView := by simp [State.leaveSilenced]
@[simp] theorem cmdView_earlyWake (s : State) (c : Nat) (reason : Nat) : (s.earlyWake c reason).cmdView = s.cmdView := by unfold State.earlyWake; split <;> simp
@[simp] theorem cmdView_kweVector (s : State) : (s.kweVector).cmdView = s.cmdView := by simp [State.kweVector]
@[simp] theorem cmdView_kweErr (s : State) (e : Nat) : (s.kweErr e).cmdView = s.cmdView := by simp [State.kweErr]
@[simp] theorem cmdView_kweOut (s : State) (out : List Byte) : (s.kweOut out).cmdView = s.cmdView := by simp [State.kweOut]
@[simp] theorem cmdView_kweGo (s : State) (u : Nat) (op : Nat) (handle : BitVec 12) (users : Bool) (lens : Bool) (err : Nat) (job : Nat × Nat × Nat) : (s.kweGo u op handle users lens err job).cmdView = s.cmdView := by simp [State.kweGo]
@[simp] theorem cmdView_kweCut (s : State) : (s.kweCut).cmdView = s.cmdView := by simp [State.kweCut]
@[simp] theorem cmdView_suspectCheck (s : State) (c : Nat) : (s.suspectCheck c).cmdView = s.cmdView := by simp [State.suspectCheck]
@[simp] theorem cmdView_queueRpts (s : State) (c : Nat) (kdir : Nat) (slot : Nat) (keySeq : Byte) (w : List Byte) (ready : BitVec 48) : (s.queueRpts c kdir slot keySeq w ready).cmdView = s.cmdView := by simp [State.queueRpts]
@[simp] theorem cmdView_serveKeyJobs (s : State) : (s.serveKeyJobs).cmdView = s.cmdView := by
  unfold State.serveKeyJobs
  repeat' split
  all_goals simp
@[simp] theorem cmdView_finishWrap (s : State) (c : Nat) (kdir : Nat) (slot : Nat) (w : List Byte) : (s.finishWrap c kdir slot w).cmdView = s.cmdView := by
  simp only [State.finishWrap]
  split <;> simp
@[simp] theorem cmdView_finishUnwrap (s : State) (c : Nat) (key : Option (BitVec 256)) : (s.finishUnwrap c key).cmdView = s.cmdView := by
  unfold State.finishUnwrap
  repeat' split
  all_goals simp
@[simp] theorem cmdView_doKweOpDone (s : State) : (s.doKweOpDone).cmdView = s.cmdView := by
  unfold State.doKweOpDone
  dsimp only
  repeat' split
  all_goals simp
@[simp] theorem cmdView_kweWriteClaim (s : State) (u : Nat) (v : Nat) : (s.kweWriteClaim u v).cmdView = s.cmdView := by simp [State.kweWriteClaim]
@[simp] theorem cmdView_kweLockRead (s : State) (u : Nat) : (s.kweLockRead u).cmdView = s.cmdView := by simp [State.kweLockRead]
@[simp] theorem cmdView_eraseKeys (s : State) : (s.eraseKeys).cmdView = s.cmdView := by simp [State.eraseKeys]
@[simp] theorem cmdView_noteHigh (s : State) (c : Nat) (sfc : BitVec 48) : (s.noteHigh c sfc).cmdView = s.cmdView := by simp [State.noteHigh]
@[simp] theorem cmdView_suspectTest (s : State) (c : Nat) (sfc : BitVec 48) : (s.suspectTest c sfc).cmdView = s.cmdView := by unfold State.suspectTest; split <;> simp
@[simp] theorem cmdView_emptyUsOld (s : State) (c : Nat) : (s.emptyUsOld c).cmdView = s.cmdView := by unfold State.emptyUsOld; split <;> simp
@[simp] theorem cmdView_emptyRetired (s : State) (c : Nat) (sfc : BitVec 48) : (s.emptyRetired c sfc).cmdView = s.cmdView := by unfold State.emptyRetired; split <;> simp
@[simp] theorem cmdView_applySwitch (s : State) (c : Nat) (f : BitVec 48) (w : KeySwitchPend) : (s.applySwitch c f w).cmdView = s.cmdView := by simp [State.applySwitch]
@[simp] theorem cmdView_applySwitches (s : State) (c : Nat) (sfc : BitVec 48) : (s.applySwitches c sfc).cmdView = s.cmdView := by simp [State.applySwitches]
@[simp] theorem cmdView_keySwitchApply (s : State) (c : Nat) (b : KeySwitchBody) (n : BitVec 48) : (s.keySwitchApply c b n).2.cmdView = s.cmdView := by
  unfold State.keySwitchApply
  dsimp only
  repeat' split
  all_goals simp
@[simp] theorem cmdView_unicastReq (s : State) (c : Nat) (b : KeyReqBody) (seq : Byte) (n : BitVec 48) : (s.unicastReq c b seq n).2.cmdView = s.cmdView := by
  unfold State.unicastReq
  dsimp only
  repeat' split
  all_goals simp
@[simp] theorem cmdView_broadcastReq (s : State) (c : Nat) (b : KeyReqBody) (toTid : Bool) (seq : Byte) (n : BitVec 48) : (s.broadcastReq c b toTid seq n).2.cmdView = s.cmdView := by
  unfold State.broadcastReq
  dsimp only
  repeat' split
  all_goals simp
@[simp] theorem cmdView_keyReqApply (s : State) (c : Nat) (b : KeyReqBody) (toTid : Bool) (seq : Byte) (n : BitVec 48) : (s.keyReqApply c b toTid seq n).2.cmdView = s.cmdView := by
  unfold State.keyReqApply
  repeat' split
  all_goals simp
@[simp] theorem cmdView_doFragCollectionExpiry (s : State) (c : Nat) : (s.doFragCollectionExpiry c).cmdView = s.cmdView := by simp [State.doFragCollectionExpiry]
@[simp] theorem cmdView_announceApply (s : State) (c : Nat) (b : AnnounceBody) (n : BitVec 48) : (s.announceApply c b n).cmdView = s.cmdView := by simp [State.announceApply]
@[simp] theorem cmdView_stepDomain (s : State) (d : Nat) (err : TimeVal) : (s.stepDomain d err).cmdView = s.cmdView := by simp [State.stepDomain]
@[simp] theorem cmdView_steer (s : State) (d : Nat) (err : TimeVal) (frames : Nat) : (s.steer d err frames).cmdView = s.cmdView := by
  simp only [State.steer]
  split <;> simp
@[simp] theorem cmdView_takeError (s : State) (d : Nat) (err : TimeVal) (frames : Nat) : (s.takeError d err frames).cmdView = s.cmdView := by simp [State.takeError]
@[simp] theorem cmdView_measureDom (s : State) (d : Nat) (err : TimeVal) (frames : Nat) (hold : Bool) : (s.measureDom d err frames hold).cmdView = s.cmdView := by
  unfold State.measureDom
  dsimp only
  repeat' split
  all_goals simp
@[simp] theorem cmdView_measure (s : State) (c : Nat) (n : BitVec 48) (off20 : Nat) (hold : Bool) : (s.measure c n off20 hold).cmdView = s.cmdView := by
  unfold measure
  split
  · rfl
  · refine cmdView_foldl (fun t d => ?_) _ _
    split
    · rfl
    · split
      · split <;> simp
      · simp

@[simp] theorem cmdView_doAnnTimeout (s : State) (d : Nat) : (s.doAnnTimeout d).cmdView = s.cmdView := by unfold State.doAnnTimeout; split <;> simp
@[simp] theorem cmdView_doRevertExpiry (s : State) : (s.doRevertExpiry).cmdView = s.cmdView := by simp [State.doRevertExpiry]
@[simp] theorem cmdView_postCapture (s : State) (i : Nat) (r : CaptRec) : (s.postCapture i r).cmdView = s.cmdView := by simp [State.postCapture]
@[simp] theorem cmdView_postPending (s : State) : (s.postPending).cmdView = s.cmdView := by
  unfold State.postPending
  refine cmdView_foldl (fun s a => ?_) _ _
  split <;> simp
@[simp] theorem cmdView_tickLane (s : State) (l : Nat) : (s.tickLane l).cmdView = s.cmdView := by simp [State.tickLane]
@[simp] theorem cmdView_tickMac (s : State) (m : Nat) : (s.tickMac m).cmdView = s.cmdView := by simp [State.tickMac]
@[simp] theorem cmdView_doShaperTick (s : State) : (s.doShaperTick).cmdView = s.cmdView := by simp [State.doShaperTick]
@[simp] theorem cmdView_doPpsEdge (s : State) : s.doPpsEdge.cmdView = s.cmdView := by
  unfold doPpsEdge
  extract_lets t width s1
  split <;> simp [s1]

@[simp] theorem cmdView_doTodMessage (s : State) : (s.doTodMessage).cmdView = s.cmdView := by simp [State.doTodMessage]
@[simp] theorem cmdView_doTriggerPulse (s : State) (i : Nat) : (s.doTriggerPulse i).cmdView = s.cmdView := by
  unfold doTriggerPulse
  extract_lets s1 x
  have h1 : s1.cmdView = s.cmdView := by simp [s1]
  split
  · exact h1
  · simpa using h1

@[simp] theorem cmdView_doCaptureEdge (s : State) (i : Nat) (rising : Bool) (off100 : Nat) : (s.doCaptureEdge i rising off100).cmdView = s.cmdView := by simp [State.doCaptureEdge]
@[simp] theorem cmdView_postStamp (s : State) (m : Nat) (rx : Bool) (p : PtpMsg) (t : TimeVal) : (s.postStamp m rx p t).cmdView = s.cmdView := by simp [State.postStamp]
@[simp] theorem cmdView_stampRx (s : State) (m : Nat) (bytes : List Byte) (off100 : Nat) : (s.stampRx m bytes off100).cmdView = s.cmdView := by
  unfold State.stampRx
  repeat' split
  all_goals simp
@[simp] theorem cmdView_stampTx (s : State) (m : Nat) (bytes : List Byte) (off100 : Nat) : (s.stampTx m bytes off100).2.cmdView = s.cmdView := by
  unfold State.stampTx
  dsimp only
  repeat' split
  all_goals simp
@[simp] theorem cmdView_doPtpSync (s : State) (i : Nat) : (s.doPtpSync i).cmdView = s.cmdView := by simp [State.doPtpSync]
@[simp] theorem cmdView_doPtpAnnounce (s : State) (i : Nat) : (s.doPtpAnnounce i).cmdView = s.cmdView := by simp [State.doPtpAnnounce]
@[simp] theorem cmdView_answerDelayReq (s : State) (m : Nat) (bytes : List Byte) (off100 : Nat) : (s.answerDelayReq m bytes off100).cmdView = s.cmdView := by unfold State.answerDelayReq; split <;> simp
@[simp] theorem cmdView_doGateSwitch (s : State) (m : Nat) : (s.doGateSwitch m).cmdView = s.cmdView := by unfold State.doGateSwitch; split <;> simp
@[simp] theorem cmdView_doGateEntryStart (s : State) (m : Nat) : (s.doGateEntryStart m).cmdView = s.cmdView := by unfold State.doGateEntryStart; split <;> simp
@[simp] theorem cmdView_police (s : State) (k : Nat) (a : ActionSet) (x : Parsed) (b : Nat) (incoming : Option Colour) (bs : List Byte) : (s.police k a x b incoming bs).1.cmdView = s.cmdView := by
  simp only [State.police]
  split <;> simp
@[simp] theorem cmdView_mirror (s : State) (sl : Nat) (src : Nat) (cluster : Nat) (bs : List Byte) : (s.mirror sl src cluster bs).cmdView = s.cmdView := by simp [State.mirror]
@[simp] theorem cmdView_countPkt (s : State) (k : Nat) (i : Nat) (b : Nat) : (s.countPkt k i b).cmdView = s.cmdView := by simp [State.countPkt]
@[simp] theorem cmdView_takeSlot (s : State) (sl : Nat) : (s.takeSlot sl).cmdView = s.cmdView := by simp [State.takeSlot]
@[simp] theorem cmdView_applyPass (s : State) (k sl src : Nat) (x : Parsed) (b : Nat) (f : Found) (bs : List Byte) :
    (applyPass s k sl src x b f bs).state.cmdView = s.cmdView := by
  unfold applyPass
  extract_lets pol drop bs' s1
  have hpol : pol.state.cmdView = s.cmdView := view_foldl (fun o : PassOut => o.state.cmdView) (fun o a => by simp) _ _
  have h1 : s1.cmdView = s.cmdView := (cmdView_foldl (fun t i => by simp) _ _).trans hpol
  show (if f.act.has 8 then s1.mirror sl src f.act.mirror bs' else s1).cmdView = s.cmdView
  simp [h1]

@[simp] theorem cmdView_classify (s : State) (p : Pkt) : (s.classify p).2.cmdView = s.cmdView := by
  unfold classify
  extract_lets k v sl cfg b opts pass x1 s1 hit s2 f1 o1 last finish
  have hopts : ∀ t x, (opts t x).cmdView = t.cmdView := fun t x => by simp [opts]
  have hpass : ∀ t, (pass t).cmdView = t.cmdView := fun t => by simp [pass]
  have hfinish : ∀ t x a bs d c, (finish t x a bs d c).2.cmdView = t.cmdView := fun t x a bs d c => by
    simp only [finish, last]
    split <;> simp
  have hs2 : s2.cmdView = s.cmdView := by
    have hs1 : s1.cmdView = s.cmdView := (hopts _ _).trans (hpass _)
    simp [s2, hs1]
  have ho1 : o1.state.cmdView = s.cmdView := (cmdView_applyPass ..).trans hs2
  split
  · rw [hfinish, ho1]
  · split
    · rw [hfinish, cmdView_bumpCl, ho1]
    · extract_lets x2 s3
      have hs3 : s3.cmdView = s.cmdView := (hopts _ _).trans ((cmdView_bumpCl ..).trans ((hpass _).trans ho1))
      split
      · rw [hfinish, hs3]
      · rw [hfinish, cmdView_applyPass]
        simp [hs3]

@[simp] theorem cmdView_bondReweigh (s : State) (c : Nat) : (s.bondReweigh c).cmdView = s.cmdView := by unfold State.bondReweigh; split <;> simp
@[simp] theorem cmdView_enqueueUp (s : State) (q : Nat) (f : Frame) : (s.enqueueUp q f).cmdView = s.cmdView := by simp [State.enqueueUp]
@[simp] theorem cmdView_bondSpread (s : State) (g : Nat) (l : Nat) (f : Frame) (x : Parsed) : (s.bondSpread g l f x).cmdView = s.cmdView := by
  unfold State.bondSpread
  dsimp only
  repeat' split
  all_goals simp
@[simp] theorem cmdView_bondMemberDown (s : State) (c : Nat) : (s.bondMemberDown c).cmdView = s.cmdView := by unfold State.bondMemberDown; split <;> simp
@[simp] theorem cmdView_deliverHeld (s : State) (g : Nat) (h : Held) : (s.deliverHeld g h).cmdView = s.cmdView := by unfold State.deliverHeld; split <;> simp
@[simp] theorem cmdView_drainHeld (g n : Nat) (s : State) : (drainHeld g n s).cmdView = s.cmdView := by
  induction n generalizing s with
  | zero => rfl
  | succ n ih =>
    unfold drainHeld
    split
    · rfl
    · split
      · rfl
      · simp [ih]

@[simp] theorem cmdView_forceNext (s : State) (g : Nat) (k : BondCtr) : (s.forceNext g k).cmdView = s.cmdView := by
  unfold State.forceNext
  dsimp only
  repeat' split
  all_goals simp
@[simp] theorem cmdView_takeArrival (g seq q : Nat) (f : Option Frame) (n : Nat) (s : State) : (takeArrival g seq q f n s).cmdView = s.cmdView := by
  induction n generalizing s with
  | zero => rfl
  | succ n ih =>
    unfold takeArrival
    dsimp only
    split
    · cases f <;> simp
    · split
      · cases f <;> simp
      · rw [ih]
        split <;> simp

@[simp] theorem cmdView_reorder (s : State) (g : Nat) (seq : Nat) (q : Nat) (f : Option Frame) : (s.reorder g seq q f).cmdView = s.cmdView := by
  unfold State.reorder
  dsimp only
  repeat' split
  all_goals simp
@[simp] theorem cmdView_doReorderTimeout (s : State) (g : Nat) : (s.doReorderTimeout g).cmdView = s.cmdView := by simp [State.doReorderTimeout]
@[simp] theorem cmdView_releaseAll (s : State) (g : Nat) : (s.releaseAll g).cmdView = s.cmdView := by simp [State.releaseAll]
@[simp] theorem cmdView_toUpstream (s : State) (sl : Nat) (r : Classified) : (s.toUpstream sl r).cmdView = s.cmdView := by
  unfold State.toUpstream
  repeat' split
  all_goals simp
theorem cmdView_fifoEnter {s t : State} {sl src n : Nat} (h : s.fifoEnter sl src n = some t) : t.cmdView = s.cmdView := by
  unfold fifoEnter at h
  split at h
  · cases h
  · cases h
    rfl
@[simp] theorem cmdView_sliceRun (s : State) (sl : Nat) (p : Pkt) : (s.sliceRun sl p).2.cmdView = s.cmdView := by
  unfold sliceRun
  split
  · simp
  · next t h => exact (cmdView_classify t p).trans (cmdView_fifoEnter h)

@[simp] theorem cmdView_sliceLost (s : State) (sl : Nat) : (s.sliceLost sl).cmdView = s.cmdView := by simp [State.sliceLost]
@[simp] theorem cmdView_classifyHost (s : State) (m : Nat) (bytes : List Byte) : (s.classifyHost m bytes).cmdView = s.cmdView := by
  have hrun := cmdView_sliceRun s (sliceOf (64 + m / 8)) { src := 64 + m / 8, macIn := m, bytes }
  unfold classifyHost
  dsimp only
  split
  · simp
  · split
    · next heq => simpa [heq] using hrun
    · next heq => simpa [heq] using hrun

@[simp] theorem cmdView_skipToken (s : State) (c : Nat) (flow : Nat) (seq : Option Nat) : (s.skipToken c flow seq).cmdView = s.cmdView := by unfold State.skipToken; split <;> simp
@[simp] theorem cmdView_classifyLine (s : State) (p : Pkt) (seq : Option Nat) : (s.classifyLine p seq).cmdView = s.cmdView := by
  have hrun := cmdView_sliceRun s (sliceOf p.src) p
  unfold classifyLine
  dsimp only
  split
  · simp
  · split
    · next heq => simpa [heq] using hrun
    · next heq =>
      rw [heq] at hrun
      split
      · simpa using hrun
      · split
        · split <;> simpa using hrun
        · simpa using hrun

@[simp] theorem cmdView_doVersionDrained (s : State) (k : Nat) : (s.doVersionDrained k).cmdView = s.cmdView := by
  unfold doVersionDrained
  dsimp only
  split <;> simp

@[simp] theorem cmdView_unstaged (s : State) (k h : Nat) : (s.unstaged k h).cmdView = s.cmdView := by simp [unstaged]

@[simp] theorem cmdView_applyEdit (k v : Nat) (s : State) (e : Edit) : (applyEdit k v s e).cmdView = s.cmdView := by
  cases e <;> simp [applyEdit]

@[simp] theorem cmdView_toListen (s : State) (c : Nat) (x : Cause) : (s.toListen c x).cmdView = s.cmdView := by simp [State.toListen]
@[simp] theorem cmdView_toSilenced (s : State) (c : Nat) (x : Cause) : (s.toSilenced c x).cmdView = s.cmdView := by simp [State.toSilenced]
@[simp] theorem cmdView_addProfile (s : State) (c : Nat) (b : ProfileBody) : (s.addProfile c b).cmdView = s.cmdView := by
  simp only [State.addProfile]
  split <;> simp
@[simp] theorem cmdView_takeId (s : State) (c : Nat) (b : AssignIdBody) (n : BitVec 48) : (s.takeId c b n).cmdView = s.cmdView := by simp [State.takeId]
@[simp] theorem cmdView_eqdApply (s : State) (c : Nat) (eqd : BitVec 24) (eff : BitVec 48) (n : BitVec 48) : (s.eqdApply c eqd eff n).2.cmdView = s.cmdView := by
  unfold State.eqdApply
  dsimp only
  repeat' split
  all_goals simp
@[simp] theorem cmdView_allocApply (s : State) (c : Nat) (op : Byte) (es : List AllocMapEntry) (n : BitVec 48) : (s.allocApply c op es n).2.cmdView = s.cmdView := by
  unfold State.allocApply
  repeat' split
  all_goals simp
@[simp] theorem cmdView_flowApply (s : State) (c : Nat) (op : Byte) (es : List FlowMapEntry) (n : BitVec 48) : (s.flowApply c op es n).2.cmdView = s.cmdView := by
  unfold State.flowApply
  repeat' split
  all_goals simp
@[simp] theorem cmdView_revokeApply (s : State) (c : Nat) (target : BitVec 48) (ids : List (BitVec 16)) (n : BitVec 48) : (s.revokeApply c target ids n).cmdView = s.cmdView := by simp [State.revokeApply]
@[simp] theorem cmdView_sleepApply (s : State) (c : Nat) (k : BitVec 16) (start : BitVec 48) : (s.sleepApply c k start).2.cmdView = s.cmdView := by
  unfold State.sleepApply
  repeat' split
  all_goals simp
@[simp] theorem cmdView_headWake (s : State) (c : Nat) : (s.headWake c).cmdView = s.cmdView := by simp [State.headWake]
@[simp] theorem cmdView_deactivated (s : State) (c : Nat) (reason : Byte) : (s.deactivated c reason).cmdView = s.cmdView := by
  simp only [State.deactivated]
  split <;> simp
@[simp] theorem cmdView_silenced (s : State) (c : Nat) : (s.silenced c).cmdView = s.cmdView := by simp [State.silenced]
@[simp] theorem cmdView_unsilenced (s : State) (c : Nat) : (s.unsilenced c).cmdView = s.cmdView := by simp [State.unsilenced]
@[simp] theorem cmdView_ackRx (s : State) (c : Nat) (type : Byte) (seq : Byte) : (s.ackRx c type seq).cmdView = s.cmdView := by simp [State.ackRx]
@[simp] theorem cmdView_tcmApply (s : State) (c : Nat) (h : TcmHdr) (m : DownTcm) (n : BitVec 48) : (s.tcmApply c h m n).2.cmdView = s.cmdView := by
  cases m with
  | keyReq b =>
    have hreq := cmdView_keyReqApply s c b (h.tid != 0xFFFE) h.seq n
    unfold tcmApply
    dsimp only
    split <;> next heq =>
      rw [heq] at hreq
      simpa using hreq
  | _ => simp [tcmApply]

@[simp] theorem cmdView_duplicate (s : State) (c : Nat) (h : TcmHdr) (type : Nat) (d : DupRec) (n : BitVec 48) : (s.duplicate c h type d n).cmdView = s.cmdView := by
  unfold State.duplicate
  dsimp only
  repeat' split
  all_goals simp
@[simp] theorem cmdView_tcmAccept (s : State) (c : Nat) (h : TcmHdr) (m : DownTcm) (n : BitVec 48) : (s.tcmAccept c h m n).cmdView = s.cmdView := by
  unfold tcmAccept
  extract_lets toTid
  split
  · simp
  · next s1 _ _ =>
    have h1 : s1.cmdView = s.cmdView := by simp [s1]
    have happ := (cmdView_tcmApply s1 c h m n).trans h1
    split
    · next heq =>
      rw [heq] at happ
      split <;> simpa using happ
    · next heq => simpa [heq] using happ

@[simp] theorem cmdView_tcm (s : State) (c : Nat) (h : TcmHdr) (m : DownTcm) (n : BitVec 48) : (s.tcm c h m n).cmdView = s.cmdView := by
  unfold State.tcm
  repeat' split
  all_goals simp
@[simp] theorem cmdView_tcmRow (s : State) (c : Nat) (h : TcmHdr) (m : DownTcm) : (s.tcmRow c h m).cmdView = s.cmdView := by unfold State.tcmRow; split <;> simp
@[simp] theorem cmdView_tcmBytes (s : State) (c : Nat) (flowTag : BitVec 16) (p : List Byte) (n : BitVec 48) : (s.tcmBytes c flowTag p n).cmdView = s.cmdView := by unfold State.tcmBytes; split <;> simp
@[simp] theorem cmdView_doLockTimeout (s : State) (c : Nat) : (s.doLockTimeout c).cmdView = s.cmdView := by simp [State.doLockTimeout]
@[simp] theorem cmdView_doAnnounceTimeout (s : State) (c : Nat) : (s.doAnnounceTimeout c).cmdView = s.cmdView := by simp [State.doAnnounceTimeout]
@[simp] theorem cmdView_doRangeTimeout (s : State) (c : Nat) : (s.doRangeTimeout c).cmdView = s.cmdView := by simp [State.doRangeTimeout]
@[simp] theorem cmdView_doHoldTimeout (s : State) (c : Nat) : (s.doHoldTimeout c).cmdView = s.cmdView := by simp [State.doHoldTimeout]
@[simp] theorem cmdView_giveUp (s : State) (c : Nat) (e : UpEntry) : (s.giveUp c e).cmdView = s.cmdView := by simp [State.giveUp]
@[simp] theorem cmdView_doTcmResend (s : State) (c : Nat) : (s.doTcmResend c).cmdView = s.cmdView := by unfold State.doTcmResend; split <;> simp
@[simp] theorem cmdView_tribPower (s : State) : (s.tribPower).cmdView = s.cmdView := by simp [State.tribPower]
@[simp] theorem cmdView_pageSwitch (s : State) (c : Nat) (f : BitVec 48) : (s.pageSwitch c f).cmdView = s.cmdView := by simp [State.pageSwitch]
@[simp] theorem cmdView_pageTest (s : State) (c : Nat) (f : BitVec 48) : (s.pageTest c f).cmdView = s.cmdView := by simp [State.pageTest]
@[simp] theorem cmdView_tribDesc (s : State) (c : Nat) (n : BitVec 48) (d : TribDesc) : (s.tribDesc c n d).cmdView = s.cmdView := by simp [State.tribDesc]
@[simp] theorem cmdView_tribBoundary (s : State) (c : Nat) (n : BitVec 48) (b : Option TimeVal) : (s.tribBoundary c n b).cmdView = s.cmdView := by simp [State.tribBoundary]
@[simp] theorem cmdView_passSlots (s : State) (c : Nat) (n : BitVec 48) (slots : List (Nat × Bool × List Byte)) : (s.passSlots c n slots).cmdView = s.cmdView := by simp [State.passSlots]
@[simp] theorem cmdView_odcPass (s : State) (c : Nat) (tds : Nat) (bytes : List Byte) : (s.odcPass c tds bytes).cmdView = s.cmdView := by simp [State.odcPass]
@[simp] theorem cmdView_enqueuePart (s : State) (i : Nat) (p : Nat) (w : WholeMf) (free : Bool) (t : TimeVal) : (s.enqueuePart i p w free t).cmdView = s.cmdView := by simp [State.enqueuePart]
@[simp] theorem cmdView_enqueueParts (s : State) (c : Nat) (w : WholeMf) (free : Bool) : (s.enqueueParts c w free).cmdView = s.cmdView := by
  simp only [State.enqueueParts]
  split <;> simp
@[simp] theorem cmdView_doTribParts (s : State) (c : Nat) : (s.doTribParts c).cmdView = s.cmdView := by
  unfold State.doTribParts
  dsimp only
  repeat' split
  all_goals simp
@[simp] theorem cmdView_doTribFrame (s : State) (m : Nat) (f : TribFrame) : (s.doTribFrame m f).cmdView = s.cmdView := by
  unfold State.doTribFrame
  dsimp only
  repeat' split
  all_goals simp
@[simp] theorem cmdView_tribBody (s : State) (c : Nat) (b : TribBind) (n : BitVec 48) (words : Nat) : (s.tribBody c b n words).2.cmdView = s.cmdView := by
  unfold State.tribBody
  dsimp only
  repeat' split
  all_goals simp
@[simp] theorem cmdView_tribNoGrant (s : State) (c : Nat) (granted : List Nat) : (s.tribNoGrant c granted).cmdView = s.cmdView := by
  unfold tribNoGrant
  split
  · refine cmdView_foldl (fun t b => ?_) _ _
    split
    · split <;> simp
    · rfl
  · rfl

@[simp] theorem cmdView_odcTake (s : State) (c : Nat) : (s.odcTake c).2.cmdView = s.cmdView := by
  unfold State.odcTake
  repeat' split
  all_goals simp
@[simp] theorem cmdView_odcGive (s : State) (c : Nat) (bs : List Byte) : (s.odcGive c bs).cmdView = s.cmdView := by simp [State.odcGive]
@[simp] theorem cmdView_doOdcFrame (s : State) (k : Nat) (di : List Byte) : (s.doOdcFrame k di).cmdView = s.cmdView := by
  unfold doOdcFrame
  split
  · rfl
  · rw [cmdView_emit]
    exact view_foldl (fun acc : List Byte × State => acc.2.cmdView) (fun acc j => by simp) _ _

@[simp] theorem cmdView_openWindows (s : State) (c : Nat) (n : BitVec 48) (t0 : Nat) (epoch : Byte) (gs : List Grant) : (s.openWindows c n t0 epoch gs).cmdView = s.cmdView := by simp [State.openWindows]
@[simp] theorem cmdView_doGuardTrip (s : State) (c : Nat) (t : Nat) : (s.doGuardTrip c t).cmdView = s.cmdView := by simp [State.doGuardTrip]
@[simp] theorem cmdView_cutRange (s : State) (c : Nat) (gs : List Grant) : (s.cutRange c gs).2.cmdView = s.cmdView := by
  refine view_foldl (fun acc : List Grant × State => acc.2.cmdView) (fun acc g => ?_) _ _
  split
  · simp
  · split <;> simp

@[simp] theorem cmdView_cutOverlap (s : State) (c : Nat) (n : BitVec 48) (gs : List Grant) : (s.cutOverlap c n gs).2.cmdView = s.cmdView := by
  refine view_foldl (fun acc : List Grant × State => acc.2.cmdView) (fun acc g => ?_) _ _
  split <;> simp

@[simp] theorem cmdView_burstsOf (s : State) (c : Nat) (gs : List Grant) : (s.burstsOf c gs).2.cmdView = s.cmdView := by simp [State.burstsOf]
@[simp] theorem cmdView_identGrant (s : State) (c : Nat) (p : Profile) (g : Grant) : (s.identGrant c p g).2.cmdView = s.cmdView := by
  unfold State.identGrant
  dsimp only
  repeat' split
  all_goals simp
@[simp] theorem cmdView_dropPast (s : State) (c t0 busy : Nat) (gs : List Grant) : (s.dropPast c t0 busy gs).2.cmdView = s.cmdView := by
  induction gs generalizing s with
  | nil => rfl
  | cons g gs ih =>
    unfold dropPast
    split
    · rfl
    · simp [ih]

@[simp] theorem cmdView_putBurst (s : State) (c : Nat) (n : BitVec 48) (t0 : Nat) (epoch : Byte) (p : Profile) (kind : BurstKind) (gs : List Grant) (rand : Nat) (engines : Bool) : (s.putBurst c n t0 epoch p kind gs rand engines).cmdView = s.cmdView := by
  simp only [State.putBurst]
  split <;> simp
@[simp] theorem cmdView_formBurst (s : State) (c : Nat) (n : BitVec 48) (t0 : Nat) (epoch : Byte) (engines : Bool) (gs : List Grant) :
    (s.formBurst c n t0 epoch engines gs).cmdView = s.cmdView := by
  -- how grants are dropped and bursts laid out does not matter here: both functions are left opaque
  obtain ⟨trim, htrim⟩ : ∃ f, f = @dropPast := ⟨_, rfl⟩
  obtain ⟨put, hput⟩ : ∃ f, f = @putBurst := ⟨_, rfl⟩
  have hview (t : State) (gs : List Grant) : (trim t c t0 0 gs).2.cmdView = t.cmdView := htrim ▸ cmdView_dropPast t c t0 0 gs
  have hbuilt (t : State) (p : Profile) (k : BurstKind) (gs : List Grant) (r : Nat) : (put t c n t0 epoch p k gs r engines).cmdView = t.cmdView :=
    hput ▸ cmdView_putBurst t c n t0 epoch p k gs r engines
  unfold formBurst
  rw [← htrim, ← hput]
  split
  · rfl
  · next g l =>
    split
    · rfl
    · next p _ =>
      split
      · have hident := cmdView_identGrant s c p g
        split
        · next heq => rwa [heq] at hident
        · next g' r t heq =>
          rw [heq] at hident
          have hdrop := (hview t [g']).trans hident
          split
          · next heq' => rwa [heq'] at hdrop
          · next heq' =>
            rw [heq'] at hdrop
            exact (hbuilt ..).trans hdrop
      · have hdrop := hview s (g :: l)
        split
        · next heq' => rwa [heq'] at hdrop
        · next heq' =>
          rw [heq'] at hdrop
          split
          · exact hdrop
          · exact (hbuilt ..).trans hdrop

@[simp] theorem cmdView_releaseReserved (s : State) (c : Nat) : (s.releaseReserved c).cmdView = s.cmdView := by simp [State.releaseReserved]
@[simp] theorem cmdView_resolvePreds (s : State) (c : Nat) (n : BitVec 48) (granted : List (BitVec 14)) : (s.resolvePreds c n granted).cmdView = s.cmdView := by simp [State.resolvePreds]
@[simp] theorem cmdView_reserveHeads (s : State) (c : Nat) (a : Nat) : (s.reserveHeads c a).cmdView = s.cmdView := by
  unfold State.reserveHeads
  refine cmdView_foldl (fun s a => ?_) _ _
  dsimp only
  repeat' split
  all_goals simp
@[simp] theorem cmdView_doPrediction (s : State) (c : Nat) (p : Prediction) : (s.doPrediction c p).cmdView = s.cmdView := by
  unfold doPrediction
  dsimp only
  split
  · rfl
  · split
    · rfl
    · split
      · refine (cmdView_foldl (fun u a => ?_) _ _).trans (by simp)
        split <;> simp
      · simp

@[simp] theorem cmdView_applyService (s : State) (c : Nat) (n : BitVec 48) : (s.applyService c n).cmdView = s.cmdView := by
  unfold applyService
  refine (cmdView_foldl (fun t a => ?_) _ _).trans (cmdView_foldl (fun t l => ?_) _ _)
  · split <;> simp
  · dsimp only
    split <;> simp

@[simp] theorem cmdView_noMap (s : State) (c : Nat) (n : BitVec 48) : (s.noMap c n).cmdView = s.cmdView := by simp [State.noMap]
@[simp] theorem cmdView_handOff (s : State) (c : Nat) (n : BitVec 48) (tds : Nat) (epoch : Byte) (own : List Grant) : (s.handOff c n tds epoch own).cmdView = s.cmdView := by simp [State.handOff]
@[simp] theorem cmdView_keyHold (s : State) (c : Nat) (q : Nat) (n : BitVec 48) (ukey : Bool) : (s.keyHold c q n ukey).2.cmdView = s.cmdView := by simp [State.keyHold]
/-- A plan in the making leaves the command interface alone. -/
theorem planKeeps_cmdView : PlanKeeps cmdView := ⟨fun s q f => by simp, fun s c q n u => by simp⟩

@[simp] theorem cmdView_doPlanStart (s : State) (c w : Nat) : (s.doPlanStart c w).cmdView = s.cmdView := by
  unfold doPlanStart
  split
  · next n next _ _ _ =>
    split
    · rfl
    · extract_lets s1 s2 mine e
      have h2 : s2.cmdView = s.cmdView := by simp [s2, s1]
      refine (view_foldl (fun x : PlanAcc => x.s.cmdView) (fun x b => ?_) _ _).trans ?_
      · exact (cmdView_updBurst ..).trans (planKeeps_cmdView.planBurst e b _)
      · exact h2
  · rfl

@[simp] theorem cmdView_doPlanComplete (s : State) (c : Nat) (w : Nat) : (s.doPlanComplete c w).cmdView = s.cmdView := by unfold State.doPlanComplete; split <;> simp
@[simp] theorem cmdView_enginesGone (s : State) (c : Nat) : (s.enginesGone c).cmdView = s.cmdView := by simp [State.enginesGone]
@[simp] theorem cmdView_holAlarm (s : State) (q : Nat) (raised : Bool) : (s.holAlarm q raised).cmdView = s.cmdView := by simp [State.holAlarm]
@[simp] theorem cmdView_endHold (s : State) (q : Nat) : (s.endHold q).cmdView = s.cmdView := by simp [State.endHold]
@[simp] theorem cmdView_holQueue (s : State) (c q : Nat) (n : BitVec 48) (at_ : Nat) (recs : List Nat) : (s.holQueue c q n at_ recs).cmdView = s.cmdView := by
  unfold holQueue
  dsimp only
  split
  · simp
  · split
    · rfl
    · split
      · simp
      · split
        · rfl
        · next sp u _ =>
          have hkey := cmdView_keyHold s c q (n + 1) u
          split
          · next heq => rwa [heq] at hkey
          · next heq =>
            rw [heq] at hkey
            split
            · simpa using hkey
            · split
              · simpa using hkey
              · split <;> simpa using hkey

@[simp] theorem cmdView_holTick (s : State) (c : Nat) (n : BitVec 48) (at_ : Nat) : (s.holTick c n at_).cmdView = s.cmdView := by
  unfold State.holTick
  refine cmdView_foldl (fun s a => ?_) _ _
  dsimp only
  repeat' split
  all_goals simp
@[simp] theorem cmdView_holTicks (s : State) (c : Nat) (n : BitVec 48) : (s.holTicks c n).cmdView = s.cmdView := by simp [State.holTicks]
@[simp] theorem cmdView_claimable (s : State) (c : Nat) (n : BitVec 48) (room : Nat) (q : Nat) : (s.claimable c n room q).2.cmdView = s.cmdView := by
  unfold State.claimable
  dsimp only
  repeat' split
  all_goals simp
@[simp] theorem cmdView_claimSeg (s : State) (c a : Nat) (n : BitVec 48) (slot room : Nat) (p : PlanSeg) :
    (s.claimSeg c a n slot room p).2.cmdView = s.cmdView := by
  have hcl := cmdView_claimable s c n room p.q
  unfold claimSeg
  split
  · next heq => simpa [heq] using hcl
  · next heq =>
    rw [heq] at hcl
    simpa using hcl

@[simp] theorem cmdView_claimAll (s : State) (c : Nat) (n : BitVec 48) (slot : Nat) (l : List (Grant × List PlanSeg)) :
    (s.claimAll c n slot l).2.cmdView = s.cmdView := by
  refine view_foldl (fun acc : List (List TxSeg) × State => acc.2.cmdView) (fun acc gp => ?_) _ _
  refine view_foldl (fun acc : List TxSeg × State => acc.2.cmdView) (fun a p => ?_) _ _
  have hseg := cmdView_claimSeg a.2 c gp.1.ctx n slot (16 * (gp.1.body - 1) - (a.1.map (·.span)).sum) p
  split <;> next heq => simpa [heq] using hseg

@[simp] theorem cmdView_tribBodies (s : State) (c : Nat) (b : Burst) : (s.tribBodies c b).2.cmdView = s.cmdView := by
  refine view_foldl (fun acc : List (Nat × List Byte) × State => acc.2.cmdView) (fun acc i => ?_) _ _
  dsimp only
  split
  · rfl
  · split <;> simp

@[simp] theorem cmdView_applyDrr (s : State) (c : Nat) (d : List (Nat × Nat × List DrrStep)) : (s.applyDrr c d).cmdView = s.cmdView := by
  unfold State.applyDrr
  refine cmdView_foldl (fun s a => ?_) _ _
  dsimp only
  simp
@[simp] theorem cmdView_dropBurst (s : State) (c : Nat) (id : Nat) : (s.dropBurst c id).cmdView = s.cmdView := by simp [State.dropBurst]
@[simp] theorem cmdView_commit (s : State) (c : Nat) (b : Burst) (p : Plan) (fallback : Bool) : (s.commit c b p fallback).cmdView = s.cmdView := by
  unfold commit
  split <;> simp

@[simp] theorem cmdView_shedPast (s : State) (c : Nat) (b : Burst) : (s.shedPast c b).2.cmdView = s.cmdView := by
  unfold shedPast
  extract_lets busy
  have hdrop := cmdView_dropPast s c b.tLane busy b.grants
  split
  · rfl
  · split
    · next heq => simpa [heq] using hdrop
    · next heq =>
      rw [heq] at hdrop
      split
      · simpa using hdrop
      · dsimp only
        split <;> simpa using hdrop

@[simp] theorem cmdView_askFallback (c : Nat) (s : State) (b : Burst) : (doPlanDeadline.askFallback c s b).cmdView = s.cmdView := by
  simp [doPlanDeadline.askFallback]

@[simp] theorem cmdView_doPlanDeadline (s : State) (c id : Nat) : (s.doPlanDeadline c id).cmdView = s.cmdView := by
  unfold doPlanDeadline
  split
  · rfl
  · next b _ =>
    have hshed := cmdView_shedPast s c b
    split
    · next heq => simpa [heq] using hshed
    · next heq =>
      rw [heq] at hshed
      split
      · split <;> simpa using hshed
      · simpa using hshed
      · simpa using hshed



@[simp] theorem cmdView_doFallbackPlan (s : State) (c id : Nat) : (s.doFallbackPlan c id).cmdView = s.cmdView := by
  unfold doFallbackPlan
  split
  · rfl
  · exact (cmdView_commit ..).trans (planKeeps_cmdView.planBurst _ _ _)

@[simp] theorem cmdView_doWakeRequest (s : State) (c id : Nat) : (s.doWakeRequest c id).cmdView = s.cmdView := by
  unfold doWakeRequest
  split <;> simp

@[simp] theorem cmdView_fillSeg (s : State) (c : Nat) (slot : Nat) (i : Nat) (faults : List (Nat × Bool)) (g : TxSeg) : (s.fillSeg c slot i faults g).2.cmdView = s.cmdView := by
  unfold State.fillSeg
  dsimp only
  repeat' split
  all_goals simp
@[simp] theorem cmdView_fillSegs (s : State) (c : Nat) (b : Burst) (faults : List (Nat × Bool)) : (s.fillSegs c b faults).2.cmdView = s.cmdView := by
  refine view_foldl (fun acc : List (List TxSeg) × Nat × State => acc.2.2.cmdView) (fun acc body => ?_) _ _
  exact view_foldl (fun acc : List TxSeg × Nat × State => acc.2.2.cmdView) (fun a g => by simp) _ _

@[simp] theorem cmdView_controlTcm (s : State) (c : Nat) (b : Burst) : (s.controlTcm c b).2.cmdView = s.cmdView := by
  unfold State.controlTcm
  repeat' split
  all_goals simp
@[simp] theorem cmdView_activateLanes (s : State) (c : Nat) (b : Burst) : (s.activateLanes c b).cmdView = s.cmdView := by simp [State.activateLanes]
@[simp] theorem cmdView_doAssembly (s : State) (c id : Nat) (faults : List (Nat × Bool)) : (s.doAssembly c id faults).cmdView = s.cmdView := by
  unfold doAssembly
  split
  · rfl
  · split <;> simp

@[simp] theorem cmdView_countBurst (s : State) (c : Nat) (b : Burst) : (s.countBurst c b).cmdView = s.cmdView := by
  simp only [State.countBurst]
  split <;> simp
@[simp] theorem cmdView_recordBodies (s : State) (c : Nat) (b : Burst) : (s.recordBodies c b).cmdView = s.cmdView := by
  unfold State.recordBodies
  refine cmdView_foldl (fun s a => ?_) _ _
  dsimp only
  simp
@[simp] theorem cmdView_afterBurst (s : State) (c : Nat) (fin : Nat) : (s.afterBurst c fin).cmdView = s.cmdView := by simp [State.afterBurst]
@[simp] theorem cmdView_sleepAfterBurst (s : State) (c : Nat) : (s.sleepAfterBurst c).cmdView = s.cmdView := by simp [State.sleepAfterBurst]
@[simp] theorem cmdView_bgateAfter (s : State) (c : Nat) (b : Burst) : (s.bgateAfter c b).cmdView = s.cmdView := by unfold State.bgateAfter; split <;> simp
@[simp] theorem cmdView_doBurstEnd (s : State) (c : Nat) (id : Nat) : (s.doBurstEnd c id).cmdView = s.cmdView := by unfold State.doBurstEnd; split <;> simp
@[simp] theorem cmdView_syncLost (s : State) (c : Nat) (h : HoldInfo) : (s.syncLost c h).cmdView = s.cmdView := by
  unfold State.syncLost
  repeat' split
  all_goals simp
@[simp] theorem cmdView_dropMap (s : State) (c : Nat) : (s.dropMap c).cmdView = s.cmdView := by unfold State.dropMap; split <;> simp
@[simp] theorem cmdView_loseLock (s : State) (c : Nat) (h : HoldInfo) : (s.loseLock c h).cmdView = s.cmdView := by simp [State.loseLock]
@[simp] theorem cmdView_lineLost (s : State) (c : Nat) : (s.lineLost c).cmdView = s.cmdView := by simp [State.lineLost]
@[simp] theorem cmdView_goToSleep (s : State) (c : Nat) (k : Nat) (start : BitVec 48) (n : BitVec 48) : (s.goToSleep c k start n).cmdView = s.cmdView := by simp [State.goToSleep]
@[simp] theorem cmdView_endDoze (s : State) (c : Nat) : (s.endDoze c).cmdView = s.cmdView := by simp [State.endDoze]
@[simp] theorem cmdView_doDozeWake (s : State) (c : Nat) : (s.doDozeWake c).cmdView = s.cmdView := by simp [State.doDozeWake]
@[simp] theorem cmdView_doDozeIdle (s : State) (c : Nat) : (s.doDozeIdle c).cmdView = s.cmdView := by simp [State.doDozeIdle]
@[simp] theorem cmdView_enterWatch (s : State) (c : Nat) (x : Cause) : (s.enterWatch c x).cmdView = s.cmdView := by simp [State.enterWatch]
@[simp] theorem cmdView_takeDue (s : State) (c : Nat) (n : BitVec 48) (tds : Nat) : (s.takeDue c n tds).cmdView = s.cmdView := by simp [State.takeDue]
@[simp] theorem cmdView_holdReturn (s : State) (c : Nat) (n : BitVec 48) (tds : Nat) : (s.holdReturn c n tds).cmdView = s.cmdView := by unfold State.holdReturn; split <;> simp
@[simp] theorem cmdView_termFrame (s : State) (c : Nat) (n : BitVec 48) (tds : Nat) : (s.termFrame c n tds).1.cmdView = s.cmdView := by
  unfold State.termFrame
  dsimp only
  repeat' split
  all_goals simp
@[simp] theorem cmdView_sdTest (s : State) (c : Nat) (corrected : Nat) : (s.sdTest c corrected).cmdView = s.cmdView := by
  unfold State.sdTest
  dsimp only
  repeat' split
  all_goals simp
@[simp] theorem cmdView_countWords (s : State) (c : Nat) (errs : List (Nat × Nat)) : (s.countWords c errs).cmdView = s.cmdView := by simp [State.countWords]
@[simp] theorem cmdView_mapTests (s : State) (c : Nat) (n : BitVec 48) (tds : Nat) (m : MapFields) (lcrc : Bool) (usable : Bool) : (s.mapTests c n tds m lcrc usable).cmdView = s.cmdView := by simp [State.mapTests]
@[simp] theorem cmdView_frameUnits (s : State) (c : Nat) (n : BitVec 48) (f : DsFrame) (ws : List (Nat × RxWord)) (payload : Bool) (t : Option TribDesc) : (s.frameUnits c n f ws payload t).cmdView = s.cmdView := by
  unfold State.frameUnits
  dsimp only
  repeat' split
  all_goals simp
@[simp] theorem cmdView_frameBegins (s : State) (c : Nat) (n : BitVec 48) (tds : Nat) (f : DsFrame) : (s.frameBegins c n tds f).cmdView = s.cmdView := by
  unfold State.frameBegins
  dsimp only
  repeat' split
  all_goals simp
@[simp] theorem cmdView_lockFrame (s : State) (c : Nat) (f : DsFrame) (tds : Nat) : (s.lockFrame c f tds).cmdView = s.cmdView := by
  unfold lockFrame
  extract_lets h r hold s1 s2 s3 s4 s5 s6 s7 s8 s9
  have h6 : s6.cmdView = s.cmdView := by simp [s6, s5, s4, s3, s2, s1]
  have h7 : s7.cmdView = s.cmdView := by
    rw [← h6]
    simp only [s7]
    split
    · split <;> simp
    · rfl
  have h9 : s9.cmdView = s.cmdView := by simp [s9, s8, h7]
  split
  · simpa using h9
  · next s10 _ =>
    have h10 : s10.cmdView = s.cmdView := by simp [s10, h9]
    split <;> simpa using h10

@[simp] theorem cmdView_dozeFrame (s : State) (c : Nat) (d : DozeInfo) (f : DsFrame) (tds : Nat) : (s.dozeFrame c d f tds).cmdView = s.cmdView := by simp [State.dozeFrame]
@[simp] theorem cmdView_doFrame (s : State) (c : Nat) (f : DsFrame) : (s.doFrame c f).cmdView = s.cmdView := by
  unfold State.doFrame
  dsimp only
  repeat' split
  all_goals simp
@[simp] theorem cmdView_doSyncMatch (s : State) (c : Nat) (pos : Nat) (bits : BitVec 64) : (s.doSyncMatch c pos bits).cmdView = s.cmdView := by simp [State.doSyncMatch]
@[simp] theorem cmdView_doCandidate (s : State) (c : Nat) (pos : Nat) (f : DsFrame) : (s.doCandidate c pos f).cmdView = s.cmdView := by
  unfold State.doCandidate
  repeat' split
  all_goals simp
@[simp] theorem cmdView_doMapHandOff (s : State) (c : Nat) (entries : List (BitVec 64)) (crc : BitVec 32) : (s.doMapHandOff c entries crc).cmdView = s.cmdView := by unfold State.doMapHandOff; split <;> simp
@[simp] theorem cmdView_deliverSeg (s : State) (c : Nat) (pos : Nat) (n : BitVec 48) (d : State.SegDest) (h : SegHdr) (bs : List Byte) (seq : Option Nat) : (s.deliverSeg c pos n d h bs seq).cmdView = s.cmdView := by
  unfold State.deliverSeg
  dsimp only
  repeat' split
  all_goals simp
@[simp] theorem cmdView_acceptSeg (s : State) (c : Nat) (pos : Nat) (n : BitVec 48) (h : SegHdr) (bs : List Byte) : (s.acceptSeg c pos n h bs).cmdView = s.cmdView := by
  unfold State.acceptSeg
  repeat' split
  all_goals simp
@[simp] theorem cmdView_beginSearch (s : State) (c : Nat) (f : CurFrame) (bs : List Byte) (at_ : Nat) : (s.beginSearch c f bs at_).cmdView = s.cmdView := by simp [State.beginSearch]
@[simp] theorem cmdView_doSegment (s : State) (c : Nat) (bs : List Byte) : (s.doSegment c bs).cmdView = s.cmdView := by
  unfold State.doSegment
  dsimp only
  repeat' split
  all_goals simp
@[simp] theorem cmdView_linkDown (s : State) (m : Nat) : (s.linkDown m).cmdView = s.cmdView := by simp [State.linkDown]
@[simp] theorem cmdView_linksDown (s : State) (p : Nat) : (s.linksDown p).cmdView = s.cmdView := by simp [State.linksDown]
@[simp] theorem cmdView_doLinkChange (s : State) (m : Nat) (up : Bool) : (s.doLinkChange m up).cmdView = s.cmdView := by simp [State.doLinkChange]
@[simp] theorem cmdView_pauseClass (s : State) (m : Nat) (k : Nat) (q : Nat) : (s.pauseClass m k q).cmdView = s.cmdView := by simp [State.pauseClass]
@[simp] theorem cmdView_macControl (s : State) (m : Nat) (bytes : List Byte) : (s.macControl m bytes).cmdView = s.cmdView := by simp [State.macControl]
@[simp] theorem cmdView_doHostFrame (s : State) (m : Nat) (f : HostFrame) : (s.doHostFrame m f).cmdView = s.cmdView := by
  unfold State.doHostFrame
  repeat' split
  all_goals simp
@[simp] theorem cmdView_doPauseExpiry (s : State) (m : Nat) (k : Nat) : (s.doPauseExpiry m k).cmdView = s.cmdView := by simp [State.doPauseExpiry]
@[simp] theorem cmdView_doPauseRefresh (s : State) (m : Nat) (k : Nat) : (s.doPauseRefresh m k).cmdView = s.cmdView := by simp [State.doPauseRefresh]
@[simp] theorem cmdView_doEgressTake (s : State) (m : Nat) (cellErr : Bool) (off100 : Nat) : (s.doEgressTake m cellErr off100).cmdView = s.cmdView := by
  unfold State.doEgressTake
  dsimp only
  repeat' split
  all_goals simp
@[simp] theorem cmdView_portAwake (s : State) (p : Nat) : (s.portAwake p).cmdView = s.cmdView := by simp [State.portAwake]
@[simp] theorem cmdView_portPowered (s : State) (p : Nat) : (s.portPowered p).cmdView = s.cmdView := by simp [State.portPowered]
@[simp] theorem cmdView_doQuietEnd (s : State) (p : Nat) : (s.doQuietEnd p).cmdView = s.cmdView := by simp [State.doQuietEnd]
@[simp] theorem cmdView_doWakeDetected (s : State) (p : Nat) : (s.doWakeDetected p).cmdView = s.cmdView := by simp [State.doWakeDetected]
@[simp] theorem cmdView_doPatternEnd (s : State) (p : Nat) : (s.doPatternEnd p).cmdView = s.cmdView := by simp [State.doPatternEnd]
@[simp] theorem cmdView_setMode (s : State) (p : Nat) (mode : Nat) : (s.setMode p mode).cmdView = s.cmdView := by simp [State.setMode]
@[simp] theorem cmdView_restartPoints (s : State) (m : Nat) : (s.restartPoints m).cmdView = s.cmdView := by simp [restartPoints]

@[simp] theorem cmdView_alignLost (s : State) (c : Nat) : (s.alignLost c).cmdView = s.cmdView := by simp [State.alignLost]
@[simp] theorem cmdView_doBlockLock (s : State) (l : Nat) (inverted : Bool) : (s.doBlockLock l inverted).cmdView = s.cmdView := by simp [State.doBlockLock]
@[simp] theorem cmdView_blockLost (s : State) (l : Nat) (headers : Nat) : (s.blockLost l headers).cmdView = s.cmdView := by simp [State.blockLost]
@[simp] theorem cmdView_doBlockLockLoss (s : State) (l : Nat) : (s.doBlockLockLoss l).cmdView = s.cmdView := by simp [State.doBlockLockLoss]
@[simp] theorem cmdView_markerSet (s : State) (c : Nat) (set : List (Nat × Nat × Nat)) : (s.markerSet c set).cmdView = s.cmdView := by
  unfold State.markerSet
  dsimp only
  repeat' split
  all_goals simp
@[simp] theorem cmdView_collectMarker (s : State) (l : Nat) (m : BitVec 64) (arrival : Nat) : (s.collectMarker l m arrival).cmdView = s.cmdView := by simp [State.collectMarker]
@[simp] theorem cmdView_doLaneMarker (s : State) (l : Nat) (raw : BitVec 64) (arrival : Nat) : (s.doLaneMarker l raw arrival).cmdView = s.cmdView := by simp [State.doLaneMarker]
@[simp] theorem cmdView_lanesOff (s : State) (c : Nat) : (s.lanesOff c).cmdView = s.cmdView := by
  unfold State.lanesOff
  refine cmdView_foldl (fun s a => ?_) _ _
  simp
@[simp] theorem cmdView_laneDetect (s : State) (l : Nat) (detector : Nat) (on : Bool) : (s.laneDetect l detector on).cmdView = s.cmdView := by simp [State.laneDetect]
@[simp] theorem cmdView_laneFails (s : State) (l : Nat) : (s.laneFails l).cmdView = s.cmdView := by simp [State.laneFails]
@[simp] theorem cmdView_doDetect (s : State) (l : Nat) (detector : Nat) (on : Bool) : (s.doDetect l detector on).cmdView = s.cmdView := by simp [State.doDetect]
@[simp] theorem cmdView_doFelos (s : State) (c : Nat) (on : Bool) : (s.doFelos c on).cmdView = s.cmdView := by
  unfold State.doFelos
  dsimp only
  repeat' split
  all_goals simp
@[simp] theorem cmdView_doPrbsLock (s : State) (l : Nat) : (s.doPrbsLock l).cmdView = s.cmdView := by simp [State.doPrbsLock]
@[simp] theorem cmdView_doPrbsLoss (s : State) (l : Nat) : (s.doPrbsLoss l).cmdView = s.cmdView := by simp [State.doPrbsLoss]
@[simp] theorem cmdView_testPower (s : State) (c : Nat) (was : Bool) : (s.testPower c was).cmdView = s.cmdView := by simp [State.testPower]
@[simp] theorem cmdView_doEyeDone (s : State) (l : Nat) (counts : List Nat) : (s.doEyeDone l counts).cmdView = s.cmdView := by unfold State.doEyeDone; split <;> simp
@[simp] theorem cmdView_doFePoll (s : State) (c : Nat) (code : Byte) (mismatch : Bool) (txFault : Byte) : (s.doFePoll c code mismatch txFault).cmdView = s.cmdView := by simp [State.doFePoll]
@[simp] theorem cmdView_doFeRelease (s : State) (k : Nat) : (s.doFeRelease k).cmdView = s.cmdView := by simp [State.doFeRelease]
@[simp] theorem cmdView_linkErrors (s : State) (i : Nat) (n : Nat) : (s.linkErrors i n).cmdView = s.cmdView := by simp [State.linkErrors]
@[simp] theorem cmdView_freeWritten (s : State) (q : Nat) (hi : Nat) : (s.freeWritten q hi).cmdView = s.cmdView := by simp [State.freeWritten]
@[simp] theorem cmdView_doPageWriteDone (s : State) (q : Nat) (n : Nat) : (s.doPageWriteDone q n).cmdView = s.cmdView := by unfold State.doPageWriteDone; split <;> simp
@[simp] theorem cmdView_doPageReadIssue (s : State) (q : Nat) : (s.doPageReadIssue q).cmdView = s.cmdView := by
  simp only [State.doPageReadIssue]
  split <;> simp
@[simp] theorem cmdView_freePage (s : State) (q : Nat) (p : Page) : (s.freePage q p).cmdView = s.cmdView := by simp [State.freePage]
@[simp] theorem cmdView_doPageReadDone (s : State) (q : Nat) (n : Nat) (damage : Option Nat) : (s.doPageReadDone q n damage).cmdView = s.cmdView := by
  unfold State.doPageReadDone
  repeat' split
  all_goals simp
@[simp] theorem cmdView_losePages (s : State) (i : Nat) (q : Nat) : (s.losePages i q).cmdView = s.cmdView := by simp [State.losePages]
@[simp] theorem cmdView_doStackFailed (s : State) (i : Nat) : (s.doStackFailed i).cmdView = s.cmdView := by simp [State.doStackFailed]
@[simp] theorem cmdView_doStackSelfRefresh (s : State) (i : Nat) : (s.doStackSelfRefresh i).cmdView = s.cmdView := by simp [State.doStackSelfRefresh]
@[simp] theorem cmdView_doSpillPortRetry (s : State) (i : Nat) (refused : Bool) : (s.doSpillPortRetry i refused).cmdView = s.cmdView := by
  unfold State.doSpillPortRetry
  dsimp only
  repeat' split
  all_goals simp
@[simp] theorem cmdView_doPatrolScrub (s : State) (i : Nat) (n : Nat) (bad : Nat) : (s.doPatrolScrub i n bad).cmdView = s.cmdView := by simp [State.doPatrolScrub]
@[simp] theorem cmdView_doStackLinkRetrained (s : State) (i : Nat) : (s.doStackLinkRetrained i).cmdView = s.cmdView := by simp [State.doStackLinkRetrained]
@[simp] theorem cmdView_cellError (s : State) (fid : Nat) : (s.cellError fid).cmdView = s.cmdView := by unfold State.cellError; split <;> simp
@[simp] theorem cmdView_doBackgroundScrub (s : State) (x1 : ScrubFinding) : (s.doBackgroundScrub x1).cmdView = s.cmdView := by unfold State.doBackgroundScrub; split <;> simp
@[simp] theorem cmdView_pinReset (s : State) (cold : Bool) (i : Nat) : (s.pinReset cold i).cmdView = s.cmdView := by simp [State.pinReset]
@[simp] theorem cmdView_pinsReset (s : State) (cold : Bool) (l : List Nat) : (s.pinsReset cold l).cmdView = s.cmdView := by simp [State.pinsReset]
@[simp] theorem cmdView_queueReset (s : State) (q : Nat) : (s.queueReset q).cmdView = s.cmdView := by
  unfold queueReset
  dsimp only
  split <;> simp

@[simp] theorem cmdView_bankLost (s : State) (b : Nat) : (s.bankLost b).cmdView = s.cmdView := by simp [State.bankLost]
@[simp] theorem cmdView_stackLost (s : State) (i : Nat) : (s.stackLost i).cmdView = s.cmdView := by simp [State.stackLost]
@[simp] theorem cmdView_spineLost (s : State) : (s.spineLost).cmdView = s.cmdView := by simp [State.spineLost]
@[simp] theorem cmdView_tribLost (s : State) : (s.tribLost).cmdView = s.cmdView := by simp [State.tribLost]
@[simp] theorem cmdView_clusterGone (s : State) (k : Nat) : (s.clusterGone k).cmdView = s.cmdView := by simp [State.clusterGone]
@[simp] theorem cmdView_epFaults (s : State) (n : Nat) : (s.epFaults n).cmdView = s.cmdView := by simp [State.epFaults]
@[simp] theorem cmdView_mgmtLost (s : State) : (s.mgmtLost).cmdView = s.cmdView := by simp [State.mgmtLost]
@[simp] theorem cmdView_gorseLost (s : State) : (s.gorseLost).cmdView = s.cmdView := by simp [State.gorseLost]
/-- The loss of a domain but the PCIe endpoints' leaves the command interface alone. -/
theorem cmdView_domLost (s : State) (d : Nat) (hd : d ≠ 3) : (s.domLost d).cmdView = s.cmdView := by
  unfold domLost
  dsimp only
  repeat' split
  all_goals simp_all

@[simp] theorem svn_domLost (s : State) (d : Nat) : (s.domLost d).cmdView.1 = s.cmdView.1 := by
  by_cases hd : d = 3
  · subst hd
    calc (s.domLost 3).cmdView.1 = (s.dropReqs 3).cmdView.1 := rfl
      _ = s.cmdView.1 := by rw [cmdView_dropReqs]
  · rw [cmdView_domLost s d hd]

@[simp] theorem cmdView_enterReset (s : State) (us : Nat) (ds : List Nat) : (s.enterReset us ds).cmdView = s.cmdView := by simp [State.enterReset]
@[simp] theorem cmdView_freeDoms (s : State) (ds : List Nat) : (s.freeDoms ds).cmdView = s.cmdView := by simp [State.freeDoms]
@[simp] theorem cmdView_recordCause (s : State) (reach : Nat) (src : Nat) : (s.recordCause reach src).cmdView = s.cmdView := by simp [State.recordCause]
@[simp] theorem cmdView_driveResetN (s : State) (src : Nat) : (s.driveResetN src).cmdView = s.cmdView := by simp [State.driveResetN]
@[simp] theorem cmdView_enterRecovery (s : State) : (s.enterRecovery).cmdView = s.cmdView := by simp [State.enterRecovery]
@[simp] theorem cmdView_bootBegin (s : State) : (s.bootBegin).cmdView = s.cmdView := by
  unfold State.bootBegin
  repeat' split
  all_goals simp
@[simp] theorem cmdView_gorseStart (s : State) : (s.gorseStart).cmdView = s.cmdView := by simp [State.gorseStart]
@[simp] theorem cmdView_loadFuses (s : State) : (s.loadFuses).cmdView = s.cmdView := by simp [State.loadFuses]
@[simp] theorem cmdView_leaveReset (s : State) (d : Nat) : (s.leaveReset d).cmdView = s.cmdView := by simp [State.leaveReset]
@[simp] theorem cmdView_turns (s : State) : (s.turns).cmdView = s.cmdView := by simp [State.turns]
@[simp] theorem cmdView_doStretchEnd (s : State) (d : Nat) (x : StrapSample) : (s.doStretchEnd d x).cmdView = s.cmdView := by simp [State.doStretchEnd]
@[simp] theorem cmdView_chanReset (s : State) (c : Nat) : (s.chanReset c).cmdView = s.cmdView := by simp [State.chanReset]
@[simp] theorem cmdView_portReset (s : State) (p : Nat) : (s.portReset p).cmdView = s.cmdView := by simp [State.portReset]
@[simp] theorem cmdView_epReset (s : State) (k : Nat) : (s.epReset k).cmdView = s.cmdView := by simp [State.epReset]
@[simp] theorem cmdView_rulesReset (s : State) (k : Nat) : (s.rulesReset k).cmdView = s.cmdView := by simp [State.rulesReset]
@[simp] theorem cmdView_groupsReset (s : State) (k : Nat) : (s.groupsReset k).cmdView = s.cmdView := by simp [State.groupsReset]
@[simp] theorem cmdView_partReset (s : State) (k : Nat) : (s.partReset k).cmdView = s.cmdView := by
  unfold partReset
  extract_lets chs pts s1 s2 s3 s4 s5 pins time trib s6 s7 dropScan s8 ds
  have h1 : s1.cmdView = s.cmdView := by
    refine cmdView_foldl (fun t c => ?_) _ _
    dsimp only
    rw [cmdView_updPeak]
    refine (cmdView_foldl (fun u a => by simp) _ _).trans ((cmdView_foldl (fun u l => by simp) _ _).trans ?_)
    simp
  have h5 : s5.cmdView = s.cmdView := by simp [s5, s4, s3, s2, h1]
  have h6 : s6.cmdView = s.cmdView := by simp [s6, time, pins, h5]
  rw [cmdView_freeDoms, cmdView_enterReset]
  simp [s8, s7, h6]

@[simp] theorem cmdView_chanResetCmd (s : State) (c : Nat) (hold : Bool) : (s.chanResetCmd c hold).cmdView = s.cmdView := by
  unfold chanResetCmd
  extract_lets s1 s2
  have h2 : s2.cmdView = s.cmdView := by simp [s2, s1]
  rw [cmdView_freeDoms, cmdView_enterReset, h2]

@[simp] theorem cmdView_mgmtReset (s : State) (src : Nat) : (s.mgmtReset src).cmdView = s.cmdView := by
  unfold mgmtReset
  extract_lets s1 s2 s3 s4 s5
  have h2 : s2.cmdView = s.cmdView := by simp [s2, s1]
  have h4 : s4.cmdView = s.cmdView := by simp [s4, s3, h2]
  rw [cmdView_freeDoms]
  simp [s5, h4]

@[simp] theorem cmdView_domReset (s : State) (d : Nat) : (s.domReset d).cmdView = s.cmdView := by
  unfold domReset
  extract_lets s1 s2
  have h1 : s1.cmdView = s.cmdView := by
    simp only [s1]
    split
    · exact cmdView_domLost s d (by omega)
    · rfl
  rw [cmdView_freeDoms, cmdView_enterReset]
  simp [s2, h1]

@[simp] theorem cmdView_securityReset (s : State) : s.securityReset.cmdView = s.cmdView := by simp [securityReset]

/-- The pins of the device are driven as at reset, whatever those of the list are. -/
theorem cmdView_pinsClear (s : State) (cold : Bool) (pins : List Nat) :
    ((s.chans.foldl (fun s p => (s.stopUpstream p.1).chanLosesTime p.1) s).pinsReset cold pins).cmdView = s.cmdView := by
  rw [cmdView_pinsReset]
  exact cmdView_foldl (fun t p => by simp) _ _

@[simp] theorem svn_wideClear (s : State) (cold : Bool) : (s.wideClear cold).cmdView.1 = s.cmdView.1 := by
  have h := svn_eq_of_cmdView (cmdView_pinsClear s cold (List.range 50))
  unfold wideClear
  generalize List.range 50 = pins at h ⊢
  exact h

@[simp] theorem cmdView_stageDown (s : State) : (s.stageDown).cmdView = s.cmdView := by simp [State.stageDown]
@[simp] theorem svn_wideApply (s : State) (us : Nat) (cold : Bool) : (s.wideApply us cold).cmdView.1 = s.cmdView.1 := by simp [State.wideApply]
@[simp] theorem svn_wideReset (s : State) (src us : Nat) (cold stays : Bool) :
    (s.wideReset src us cold stays).cmdView.1 = s.cmdView.1 := by
  unfold wideReset
  extract_lets s1 s2
  have h2 : s2.cmdView = s.cmdView := by simp [s2, s1]
  split <;> simp [h2]

@[simp] theorem cmdView_releaseSources (s : State) (l : List Nat) : (s.releaseSources l).cmdView = s.cmdView := by simp [State.releaseSources]
@[simp] theorem cmdView_endThermLock (s : State) : (s.endThermLock).cmdView = s.cmdView := by simp [State.endThermLock]
@[simp] theorem svn_doPowerOn (s : State) : s.doPowerOn.cmdView.1 = s.cmdView.1 := by
  unfold doPowerOn
  dsimp only
  rw [cmdView_enterReset, cmdView_driveResetN, svn_wideClear]
  rfl

@[simp] theorem cmdView_powerOnTest (s : State) : (s.powerOnTest).cmdView = s.cmdView := by simp [State.powerOnTest]
@[simp] theorem svn_doResetNLow (s : State) : s.doResetNLow.cmdView.1 = s.cmdView.1 := by
  unfold doResetNLow
  split <;> simp

@[simp] theorem cmdView_doResetNHigh (s : State) : (s.doResetNHigh).cmdView = s.cmdView := by simp [State.doResetNHigh]
@[simp] theorem svn_doResetNHeld (s : State) : s.doResetNHeld.cmdView.1 = s.cmdView.1 := by
  unfold doResetNHeld
  split <;> simp

@[simp] theorem cmdView_doDriveEnd (s : State) : (s.doDriveEnd).cmdView = s.cmdView := by simp [State.doDriveEnd]
@[simp] theorem svn_doBlankingEnd (s : State) (low : Bool) : (s.doBlankingEnd low).cmdView.1 = s.cmdView.1 := by
  unfold doBlankingEnd
  dsimp only
  split
  · rfl
  · split
    · simp
    · split <;> simp

@[simp] theorem cmdView_grantNow (s : State) (cls : Nat) (d : Nat) : (s.grantNow cls d).cmdView = s.cmdView := by simp [State.grantNow]
@[simp] theorem cmdView_doGrant (s : State) (d : Nat) : (s.doGrant d).cmdView = s.cmdView := by simp [State.doGrant]
@[simp] theorem cmdView_doWaitLimit (s : State) (d : Nat) : (s.doWaitLimit d).cmdView = s.cmdView := by simp [State.doWaitLimit]
@[simp] theorem cmdView_releaseFreed (s : State) (d : Nat) : (s.releaseFreed d).cmdView = s.cmdView := by
  unfold State.releaseFreed
  refine cmdView_foldl (fun s a => ?_) _ _
  split <;> simp
@[simp] theorem cmdView_domUp (s : State) (d : Nat) : (s.domUp d).cmdView = s.cmdView := by simp [State.domUp]
@[simp] theorem svn_domDown (s : State) (d : Nat) : (s.domDown d).cmdView.1 = s.cmdView.1 := by
  unfold domDown
  split
  · simp
  · split <;> simp

@[simp] theorem svn_doRampEnd (s : State) (d : Nat) : (s.doRampEnd d).cmdView.1 = s.cmdView.1 := by
  unfold doRampEnd
  split <;> simp

@[simp] theorem cmdView_closeBanks (s : State) : (s.closeBanks).cmdView = s.cmdView := by simp [State.closeBanks]
@[simp] theorem cmdView_doOverBudget (s : State) (measured : Nat) : (s.doOverBudget measured).cmdView = s.cmdView := by simp [State.doOverBudget]
@[simp] theorem cmdView_addEnergy (s : State) (d : Nat) (n : Nat) : (s.addEnergy d n).cmdView = s.cmdView := by simp [State.addEnergy]
@[simp] theorem cmdView_shareRail (s : State) (r : Nat) (uj : Nat) : (s.shareRail r uj).cmdView = s.cmdView := by simp [State.shareRail]
@[simp] theorem cmdView_doEnergy (s : State) (nj : List Nat) : (s.doEnergy nj).cmdView = s.cmdView := by simp [State.doEnergy]
@[simp] theorem cmdView_startEmergency (s : State) : (s.startEmergency).cmdView = s.cmdView := by simp [State.startEmergency]
@[simp] theorem svn_emergencyOff (s : State) (d : Nat) : (s.emergencyOff d).cmdView.1 = s.cmdView.1 := by
  unfold emergencyOff
  split <;> simp

@[simp] theorem cmdView_latentReach (s : State) (ds : List Nat) : (s.latentReach ds).cmdView = s.cmdView := by
  unfold latentReach
  split <;> simp

@[simp] theorem svn_endEmergency (s : State) : s.endEmergency.cmdView.1 = s.cmdView.1 := by
  unfold endEmergency
  extract_lets s1
  split <;> simp [s1]

@[simp] theorem svn_doEmergencyStep (s : State) : (s.doEmergencyStep).cmdView.1 = s.cmdView.1 := by unfold State.doEmergencyStep; split <;> simp
@[simp] theorem cmdView_railsRelease (s : State) : (s.railsRelease).cmdView = s.cmdView := by simp [State.railsRelease]
@[simp] theorem cmdView_doSeated (s : State) : (s.doSeated).cmdView = s.cmdView := by simp [State.doSeated]
@[simp] theorem svn_doWithdrawal (s : State) : s.doWithdrawal.cmdView.1 = s.cmdView.1 := by
  unfold doWithdrawal
  extract_lets s1 s2
  have h2 : s2.cmdView = s.cmdView := (cmdView_foldl (fun t c => by simp) _ _).trans (by simp [s1])
  split
  · rfl
  · simp [h2]

@[simp] theorem cmdView_release (s : State) (by_ : Nat) : (s.release by_).cmdView = s.cmdView := by simp [State.release]
@[simp] theorem svn_doRailLoss (s : State) (r : Nat) : (s.doRailLoss r).cmdView.1 = s.cmdView.1 := by
  unfold doRailLoss
  dsimp only
  split
  · simp
  · split <;> simp

@[simp] theorem cmdView_doRailGood (s : State) (r : Nat) : (s.doRailGood r).cmdView = s.cmdView := by simp [State.doRailGood]
@[simp] theorem svn_doOvercurrent (s : State) (r : Nat) : (s.doOvercurrent r).cmdView.1 = s.cmdView.1 := by simp [State.doOvercurrent]
@[simp] theorem svn_doTrip (s : State) (sensor : Nat) : (s.doTrip sensor).cmdView.1 = s.cmdView.1 := by
  unfold doTrip
  extract_lets s1 s2 s3
  have h3 : s3.cmdView = s.cmdView := by simp [s3, s2, s1]
  simp [h3]

@[simp] theorem cmdView_doThermRestart (s : State) : (s.doThermRestart).cmdView = s.cmdView := by
  simp only [State.doThermRestart]
  split <;> simp
@[simp] theorem cmdView_doXaon (s : State) : (s.doXaon).cmdView = s.cmdView := by simp [State.doXaon]
@[simp] theorem cmdView_doErasure (s : State) (src : Nat) : (s.doErasure src).cmdView = s.cmdView := by simp [State.doErasure]
@[simp] theorem cmdView_tempAlarm (s : State) (code : Nat) (sev : Nat) (thr : Nat) : (s.tempAlarm code sev thr).cmdView = s.cmdView := by
  unfold State.tempAlarm
  repeat' split
  all_goals simp
@[simp] theorem cmdView_doSensorSample (s : State) (temps : List Int) : (s.doSensorSample temps).cmdView = s.cmdView := by simp [State.doSensorSample]
@[simp] theorem cmdView_doTempClear (s : State) (major : Bool) : (s.doTempClear major).cmdView = s.cmdView := by
  unfold State.doTempClear
  dsimp only
  repeat' split
  all_goals simp
@[simp] theorem cmdView_railAlarm (s : State) (r : Nat) (code : Nat) (sev : Nat) (run : Nat) (reading : Nat) : (s.railAlarm r code sev run reading).cmdView = s.cmdView := by simp [State.railAlarm]
@[simp] theorem cmdView_railTake (s : State) (r : Nat) (x : RailReading) : (s.railTake r x).cmdView = s.cmdView := by simp [State.railTake]
@[simp] theorem cmdView_overTest (s : State) : (s.overTest).cmdView = s.cmdView := by simp [State.overTest]
@[simp] theorem cmdView_doRailSample (s : State) (vs : List RailReading) : (s.doRailSample vs).cmdView = s.cmdView := by simp [State.doRailSample]
@[simp] theorem cmdView_doRailClear (s : State) (r : Nat) (current : Bool) : (s.doRailClear r current).cmdView = s.cmdView := by simp [State.doRailClear]
@[simp] theorem cmdView_flashFailed (s : State) : (s.flashFailed).cmdView = s.cmdView := by simp [State.flashFailed]
@[simp] theorem cmdView_doFlashWrite (s : State) (ok : Bool) : (s.doFlashWrite ok).cmdView = s.cmdView := by
  unfold State.doFlashWrite
  repeat' split
  all_goals simp
@[simp] theorem cmdView_result (s : State) (code : Nat) (hd : CmdHdr) (status : Nat) (detail : List Byte) : (s.result code hd status detail).cmdView = s.cmdView := by simp [State.result]
@[simp] theorem cmdView_coresRun (s : State) (g : PackageInfo) (slot : Nat) (pushed : Bool) : (s.coresRun g slot pushed).cmdView = s.cmdView := by simp [State.coresRun]
@[simp] theorem cmdView_reject (s : State) (slot : Nat) (code : Nat) : (s.reject slot code).cmdView = s.cmdView := by simp [State.reject]
@[simp] theorem cmdView_recordCandidate (s : State) (slot : Nat) (code : Nat) : (s.recordCandidate slot code).cmdView = s.cmdView := by simp [State.recordCandidate]
@[simp] theorem cmdView_doVerified (s : State) (readOk : Bool) (img : PkgImage) : (s.doVerified readOk img).cmdView = s.cmdView := by unfold State.doVerified; split <;> simp
@[simp] theorem cmdView_startOp (s : State) (op : Nat) (hd : CmdHdr) (arg : List Byte) : (s.startOp op hd arg).cmdView = s.cmdView := by simp [State.startOp]
@[simp] theorem cmdView_setImage (s : State) (k : Nat) (g : Option PackageInfo) : (s.setImage k g).cmdView = s.cmdView := by simp [State.setImage]
theorem svn_writeHeader (f : FwSt) (prefB : Bool) : (f.writeHeader prefB).svn = f.svn := by
  unfold FwSt.writeHeader
  split
  · dsimp only
    split <;> rfl
  · rfl

@[simp] theorem cmdView_activateEnd (s : State) : s.activateEnd.cmdView = s.cmdView := by
  unfold activateEnd
  extract_lets slot s1
  have h1 : s1.cmdView = s.cmdView := by
    simp only [s1]
    split
    · exact cmdView_updFw _ _ fun x => svn_writeHeader x _
    · rfl
  simp [h1]

@[simp] theorem cmdView_activateNext (n : Nat) (s : State) : (activateNext n s).cmdView = s.cmdView := by
  induction n generalizing s with
  | zero => rfl
  | succ n ih =>
    unfold activateNext
    split
    · simp
    · split <;> simp [ih]

@[simp] theorem cmdView_activateStop (s : State) : (s.activateStop).cmdView = s.cmdView := by simp [State.activateStop]
@[simp] theorem cmdView_doClusterReady (s : State) (k : Nat) (ok : Bool) : (s.doClusterReady k ok).cmdView = s.cmdView := by simp [State.doClusterReady]
@[simp] theorem cmdView_activate (s : State) (mgmt : Bool) (persist : Bool) (clusters : List Nat) : (s.activate mgmt persist clusters).cmdView = s.cmdView := by simp [State.activate]
@[simp] theorem cmdView_rollBack (s : State) : (s.rollBack).cmdView = s.cmdView := by simp [State.rollBack]
@[simp] theorem cmdView_doRestartTimeout (s : State) : (s.doRestartTimeout).cmdView = s.cmdView := by simp [State.doRestartTimeout]
@[simp] theorem cmdView_mgmtActivated (s : State) : (s.mgmtActivated).cmdView = s.cmdView := by simp [State.mgmtActivated]
@[simp] theorem cmdView_postKept (s : State) : (s.postKept).cmdView = s.cmdView := by simp [State.postKept]
@[simp] theorem cmdView_doReady (s : State) : (s.doReady).cmdView = s.cmdView := by simp [State.doReady]
@[simp] theorem cmdView_doWatchdog (s : State) : (s.doWatchdog).cmdView = s.cmdView := by simp [State.doWatchdog]
@[simp] theorem cmdView_doDrbgFail (s : State) (test : Nat) : (s.doDrbgFail test).cmdView = s.cmdView := by simp [State.doDrbgFail]
@[simp] theorem cmdView_doDrbgRestart (s : State) : (s.doDrbgRestart).cmdView = s.cmdView := by simp [State.doDrbgRestart]
@[simp] theorem cmdView_doDrbgReseed (s : State) : (s.doDrbgReseed).cmdView = s.cmdView := by simp [State.doDrbgReseed]
/-- An operation that ends with OK burns fuses only as FUSE.SVN.ADVANCE (R475). -/
theorem svn_opEffect_le (s : State) (o : AsyncOp) (reason : Nat) (g : PackageInfo) :
    s.fw.svn ≤ (s.opEffect o reason g).fw.svn ∧ (o.opcode.toNat ≠ opSvn → (s.opEffect o reason g).fw.svn = s.fw.svn) := by
  unfold opEffect
  dsimp only
  split
  · split <;> simp
  · split
    · split <;> simp
    · split
      · next h => exact ⟨le_max_left _ _, fun hne => absurd h hne⟩
      · split <;> simp

/-- One that is interrupted burns fuses only as FUSE.SVN.ADVANCE. -/
theorem svn_opBroken_le (s : State) (o : AsyncOp) :
    s.fw.svn ≤ (s.opBroken o).fw.svn ∧ (o.opcode.toNat ≠ opSvn → (s.opBroken o).fw.svn = s.fw.svn) := by
  unfold opBroken
  split
  · split <;> simp
  · split
    · next h => exact ⟨Nat.le_add_right _ _, fun hne => absurd h hne⟩
    · simp



@[simp] theorem cmdView_pushVerified (s : State) (slot : Nat) (x : PushSt) (sigOk : Bool) : (s.pushVerified slot x sigOk).2.cmdView = s.cmdView := by simp [State.pushVerified]
@[simp] theorem cmdView_openChan (s : State) (c : Nat) (cfg : ChanCfg) (felosDebUs : Nat) : (s.openChan c cfg felosDebUs).cmdView = s.cmdView := by simp [State.openChan]
@[simp] theorem cmdView_closeChan (s : State) (c : Nat) : (s.closeChan c).cmdView = s.cmdView := by simp [State.closeChan]
@[simp] theorem cmdView_moveSource (s : State) (src : Nat) (old : Nat) (new : Nat) : (s.moveSource src old new).cmdView = s.cmdView := by simp [State.moveSource]
@[simp] theorem cmdView_splitStreams (s : State) : (s.splitStreams).cmdView = s.cmdView := by simp [State.splitStreams]
@[simp] theorem cmdView_assignChan (s : State) (c : Nat) (k : Nat) : (s.assignChan c k).cmdView = s.cmdView := by simp [State.assignChan]
@[simp] theorem cmdView_assignPort (s : State) (p : Nat) (k : Nat) : (s.assignPort p k).cmdView = s.cmdView := by simp [State.assignPort]
@[simp] theorem cmdView_assign (s : State) (kind : Nat) (i : Nat) (k : Nat) : (s.assign kind i k).cmdView = s.cmdView := by unfold State.assign; split <;> simp
@[simp] theorem cmdView_abandon (s : State) (k : Nat) (c : RawCmd) : (s.abandon k c).cmdView = s.cmdView := by simp [State.abandon]
@[simp] theorem svn_abandonAll (s : State) (k : Nat) : (s.abandonAll k).cmdView.1 = s.cmdView.1 := by
  unfold abandonAll
  exact (svn_foldl (fun t c => by simp) _ _).trans (svn_updEp ..)

@[simp] theorem svn_resetPart (s : State) (k : Nat) : (s.resetPart k).cmdView.1 = s.cmdView.1 := by simp [State.resetPart]
@[simp] theorem cmdView_finish (s : State) (k : Nat) (c : RawCmd) (status : Nat) (detail : Nat) (reply : List Byte) : (s.finish k c status detail reply).cmdView = s.cmdView := by simp [State.finish]
@[simp] theorem svn_fetch (s : State) (k : Nat) : (s.fetch k).cmdView.1 = s.cmdView.1 := by
  unfold fetch
  dsimp only
  split <;> simp

@[simp] theorem svn_fetchIf (s : State) (k : Nat) : (s.fetchIf k).cmdView.1 = s.cmdView.1 := by simp [State.fetchIf]


@[simp] theorem svn_mboxReply (s : State) (k result : Nat) (reply : List Byte) : (s.mboxReply k result reply).cmdView.1 = s.cmdView.1 := by
  simp [mboxReply]









@[simp] theorem svn_stopRings (s : State) (k : Nat) (orphan : Bool) : (s.stopRings k orphan).cmdView.1 = s.cmdView.1 := svn_updEp ..

@[simp] theorem svn_ringError (s : State) (k : Nat) : (s.ringError k).cmdView.1 = s.cmdView.1 := by simp [State.ringError]








@[simp] theorem svn_abandonMbox (s : State) (k : Nat) : (s.abandonMbox k).cmdView.1 = s.cmdView.1 := by
  unfold abandonMbox
  dsimp only
  rw [svn_updEp]
  split
  · split <;> simp
  · rfl

@[simp] theorem svn_epRegsReset (s : State) (k : Nat) : (s.epRegsReset k).cmdView.1 = s.cmdView.1 := by
  unfold epRegsReset
  extract_lets s1 s2
  have h1 : s1.cmdView.1 = s.cmdView.1 := by simp [s1]
  rw [svn_updEp]
  simp only [s2]
  split <;> simp [h1]

@[simp] theorem svn_doFlr (s : State) (k : Nat) : (s.doFlr k).cmdView.1 = s.cmdView.1 := by simp [State.doFlr]
@[simp] theorem svn_doLinkLost (s : State) (k : Nat) : (s.doLinkLost k).cmdView.1 = s.cmdView.1 := by simp [State.doLinkLost]
@[simp] theorem cmdView_doLinkUp (s : State) (k : Nat) : (s.doLinkUp k).cmdView = s.cmdView := by simp [State.doLinkUp]
@[simp] theorem cmdView_doHoldExpiry (s : State) (k : Nat) (evt : Bool) : (s.doHoldExpiry k evt).cmdView = s.cmdView := by simp [State.doHoldExpiry]
@[simp] theorem cmdView_mboxRequest (s : State) (k : Nat) (op : Nat) (req : List Byte) : (s.mboxRequest k op req).cmdView = s.cmdView := by simp [State.mboxRequest]




@[simp] theorem svn_doDevResetAssert (s : State) : s.doDevResetAssert.cmdView.1 = s.cmdView.1 := by
  unfold doDevResetAssert
  split <;> simp











@[simp] theorem cmdView_sbRefuse (s : State) : (s.sbRefuse).cmdView = s.cmdView := by simp [State.sbRefuse]


@[simp] theorem cmdView_sbReply (s : State) (result : Nat) (reply : List Byte) : (s.sbReply result reply).cmdView = s.cmdView := by
  simp [sbReply]

theorem cmdView_sbOp (s : State) (op : Nat) (run : State → Nat × List Byte × State) (h : ∀ s, (run s).2.2.cmdView = s.cmdView) :
    (s.sbOp op run).cmdView = s.cmdView := by
  unfold sbOp
  dsimp only
  split
  · rfl
  · split <;> simp [h]

@[simp] theorem cmdView_sbPushBegin (s : State) (req : List Byte) : (s.sbPushBegin req).cmdView = s.cmdView := by
  refine cmdView_sbOp s _ _ fun t => ?_
  split
  · rfl
  · split <;> simp

@[simp] theorem cmdView_sbPushData (s : State) (req : List Byte) : (s.sbPushData req).cmdView = s.cmdView := by
  refine cmdView_sbOp s _ _ fun t => ?_
  split
  · rfl
  · split <;> simp

@[simp] theorem cmdView_sbPushEnd (s : State) (req : List Byte) (sigOk : Bool) : (s.sbPushEnd req sigOk).cmdView = s.cmdView := by
  refine cmdView_sbOp s _ _ fun t => ?_
  split
  · rfl
  · split
    · rfl
    · split <;> simp

@[simp] theorem cmdView_sbFlog (s : State) (req : List Byte) : (s.sbFlog req).cmdView = s.cmdView := cmdView_sbOp s _ _ fun _ => rfl

@[simp] theorem cmdView_sbBootrec (s : State)  : (s.sbBootrec ).cmdView = s.cmdView := cmdView_sbOp s _ _ fun _ => rfl

@[simp] theorem cmdView_sbAlarm (s : State) (req : List Byte) : (s.sbAlarm req).cmdView = s.cmdView := cmdView_sbOp s _ _ fun _ => rfl

@[simp] theorem cmdView_sbRelease (s : State) : (s.sbRelease).cmdView = s.cmdView := by simp [State.sbRelease]
@[simp] theorem svn_sbReset (s : State) (cold : Bool) : (s.sbReset cold).cmdView.1 = s.cmdView.1 := by
  unfold sbReset
  split <;> simp

@[simp] theorem cmdView_writeKwe (s : State) (k : Nat) (off : Nat) (v : BitVec 32) : (s.writeKwe k off v).cmdView = s.cmdView := by
  unfold State.writeKwe
  repeat' split
  all_goals simp




@[simp] theorem cmdView_clearSeen (s : State) (v : BitVec 32) : (s.clearSeen v).cmdView = s.cmdView := by simp [State.clearSeen]
@[simp] theorem svn_writeSideband (s : State) (off : Nat) (v : BitVec 32) : (s.writeSideband off v).cmdView.1 = s.cmdView.1 := by
  unfold writeSideband
  split
  · rfl
  · split
    case h_10 =>
      dsimp only
      split
      · rw [cmdView_sbOp _ _ _ fun _ => rfl]
        simp
      · simp
    all_goals repeat' split
    all_goals simp



@[simp] theorem cmdView_withFetchWord (s : State) (nbits : Nat) (w : Nat) : (s.withFetchWord nbits w).cmdView = s.cmdView := by unfold State.withFetchWord; split <;> simp
end Sys2Proof.Machine.State

/-! PROOF. What a command comes to (R527): one lemma per command of chapter 18 that its application burns no fuse, and that a refusal
leaves the state as it was, with no reply. -/

namespace Sys2Proof.Machine

/-- A command applied in state s burns no fuse, and when it is refused it changes nothing and replies nothing. -/
structure Lawful (s : State) (r : CmdResult) : Prop where
  svn : r.state.cmdView.1 = s.cmdView.1
  refused : r.status ≠ stOk → r.status ≠ stPending → r.status ≠ stApplying → r.state = s ∧ r.reply = []

@[simp] theorem lawful_fail (s : State) (code detail : Nat) : Lawful s (fail s code detail) := ⟨rfl, fun _ _ _ => ⟨rfl, rfl⟩⟩

@[simp] theorem lawful_done (s t : State) (reply : List Byte) : Lawful s (done t reply) ↔ t.cmdView.1 = s.cmdView.1 :=
  ⟨Lawful.svn, fun h => ⟨h, fun hne => absurd rfl hne⟩⟩

@[simp] theorem lawful_pending (s t : State) : Lawful s (pending t) ↔ t.cmdView.1 = s.cmdView.1 :=
  ⟨Lawful.svn, fun h => ⟨h, fun _ hne => absurd rfl hne⟩⟩

@[simp] theorem lawful_applying (s t : State) (d : Nat) (reply : List Byte) :
    Lawful s ⟨t, stApplying, d, reply⟩ ↔ t.cmdView.1 = s.cmdView.1 := ⟨Lawful.svn, fun h => ⟨h, fun _ _ hne => absurd rfl hne⟩⟩

@[simp] theorem lawful_ite (s : State) (c : Prop) [Decidable c] (a b : CmdResult) :
    Lawful s (if c then a else b) ↔ if c then Lawful s a else Lawful s b := by split <;> rfl

/-- The checks of R528 only refuse. -/
theorem lawful_checked {s : State} {k : CmdResult} (plen : Bool) (right bad : Option Nat) (h : Lawful s k) :
    Lawful s (checked s plen right bad k) := by
  unfold checked
  split
  · simp
  · split
    · simp
    · split
      · simp
      · exact h

end Sys2Proof.Machine

namespace Sys2Proof.Machine
open State

@[simp] theorem lawful_ringSet (ts : Bool) (k : Nat) (p : List Byte) (s : State) : Lawful s (ringSet ts k p s) := by
  unfold ringSet
  dsimp only
  refine lawful_checked _ _ _ ?_
  repeat' split
  all_goals simp

@[simp] theorem lawful_applySampleRingSet (k : Nat) (p : List Byte) (s : State) : Lawful s (applySampleRingSet k p s) := lawful_ringSet ..

@[simp] theorem lawful_applyQueueSet (k : Nat) (p : List Byte) (s : State) : Lawful s (applyQueueSet k p s) := by
  refine lawful_checked _ _ _ ?_
  simp

@[simp] theorem lawful_applyQueueShaperSet (k : Nat) (p : List Byte) (s : State) : Lawful s (applyQueueShaperSet k p s) := by
  refine lawful_checked _ _ _ ?_
  simp

@[simp] theorem lawful_applyAllocShaperSet (k : Nat) (p : List Byte) (s : State) : Lawful s (applyAllocShaperSet k p s) := by
  refine lawful_checked _ _ _ ?_
  simp

@[simp] theorem lawful_applyChanPeakSet (k : Nat) (p : List Byte) (s : State) : Lawful s (applyChanPeakSet k p s) := by
  refine lawful_checked _ _ _ ?_
  simp

@[simp] theorem lawful_applyQueueDropSet (k : Nat) (p : List Byte) (s : State) : Lawful s (applyQueueDropSet k p s) := by
  refine lawful_checked _ _ _ ?_
  simp

@[simp] theorem lawful_applyQueueSampleSet (k : Nat) (p : List Byte) (s : State) : Lawful s (applyQueueSampleSet k p s) := by
  refine lawful_checked _ _ _ ?_
  simp

@[simp] theorem lawful_applyQueueSpillSet (k : Nat) (p : List Byte) (s : State) : Lawful s (applyQueueSpillSet k p s) := by
  refine lawful_checked _ _ _ ?_
  simp

@[simp] theorem lawful_applyQueueFcSet (k : Nat) (p : List Byte) (s : State) : Lawful s (applyQueueFcSet k p s) := by
  unfold applyQueueFcSet
  dsimp only
  refine lawful_checked _ _ _ ?_
  repeat' split
  all_goals simp

@[simp] theorem lawful_applyQueueFlush (k : Nat) (p : List Byte) (s : State) : Lawful s (applyQueueFlush k p s) := by
  refine lawful_checked _ _ _ ?_
  simp

@[simp] theorem lawful_applyQueueGet (k : Nat) (p : List Byte) (s : State) : Lawful s (applyQueueGet k p s) := by
  refine lawful_checked _ _ _ ?_
  simp

@[simp] theorem lawful_applyQueueStatsGet (k : Nat) (p : List Byte) (s : State) : Lawful s (applyQueueStatsGet k p s) := by
  refine lawful_checked _ _ _ ?_
  simp

@[simp] theorem lawful_applyQueueLatGet (k : Nat) (p : List Byte) (s : State) : Lawful s (applyQueueLatGet k p s) := by
  refine lawful_checked _ _ _ ?_
  simp

@[simp] theorem lawful_applyAllocSet (k : Nat) (p : List Byte) (s : State) : Lawful s (applyAllocSet k p s) := by
  refine lawful_checked _ _ _ ?_
  simp

@[simp] theorem lawful_applyAllocGet (k : Nat) (p : List Byte) (s : State) : Lawful s (applyAllocGet k p s) := by
  refine lawful_checked _ _ _ ?_
  simp

@[simp] theorem lawful_applyPolicerSet (k : Nat) (p : List Byte) (s : State) : Lawful s (applyPolicerSet k p s) := by
  refine lawful_checked _ _ _ ?_
  simp

@[simp] theorem lawful_applyPolicerStatsGet (k : Nat) (p : List Byte) (s : State) : Lawful s (applyPolicerStatsGet k p s) := by
  refine lawful_checked _ _ _ ?_
  simp

@[simp] theorem lawful_applyKeyChanSet (k : Nat) (p : List Byte) (s : State) : Lawful s (applyKeyChanSet k p s) := by
  refine lawful_checked _ _ _ ?_
  simp

@[simp] theorem lawful_applyKeyStateGet (k : Nat) (p : List Byte) (s : State) : Lawful s (applyKeyStateGet k p s) := by
  refine lawful_checked _ _ _ ?_
  simp

@[simp] theorem lawful_applyTimeDomainBind (k : Nat) (p : List Byte) (s : State) : Lawful s (applyTimeDomainBind k p s) := by
  refine lawful_checked _ _ _ ?_
  simp

@[simp] theorem lawful_applyTimeDomainSet (k : Nat) (p : List Byte) (s : State) : Lawful s (applyTimeDomainSet k p s) := by
  refine lawful_checked _ _ _ ?_
  simp

@[simp] theorem lawful_applyTimeSelectSet (k : Nat) (p : List Byte) (s : State) : Lawful s (applyTimeSelectSet k p s) := by
  refine lawful_checked _ _ _ ?_
  simp

@[simp] theorem lawful_applyTimeResolve (k : Nat) (p : List Byte) (s : State) : Lawful s (applyTimeResolve k p s) := by
  refine lawful_checked _ _ _ ?_
  simp

@[simp] theorem lawful_applyTimeSet (k : Nat) (p : List Byte) (s : State) : Lawful s (applyTimeSet k p s) := by
  refine lawful_checked _ _ _ ?_
  simp

@[simp] theorem lawful_applyTimeGet (k : Nat) (p : List Byte) (s : State) : Lawful s (applyTimeGet k p s) := by
  unfold applyTimeGet
  exact lawful_checked _ _ _ (by simp)

@[simp] theorem lawful_applyTimeStatsGet (k : Nat) (p : List Byte) (s : State) : Lawful s (applyTimeStatsGet k p s) := by
  refine lawful_checked _ _ _ ?_
  split <;> simp

@[simp] theorem lawful_applyPpsSet (k : Nat) (p : List Byte) (s : State) : Lawful s (applyPpsSet k p s) := by
  refine lawful_checked _ _ _ ?_
  simp

@[simp] theorem lawful_applyTodSet (k : Nat) (p : List Byte) (s : State) : Lawful s (applyTodSet k p s) := by
  refine lawful_checked _ _ _ ?_
  simp

@[simp] theorem lawful_applyTrigSet (k : Nat) (p : List Byte) (s : State) : Lawful s (applyTrigSet k p s) := by
  refine lawful_checked _ _ _ ?_
  simp

@[simp] theorem lawful_applyCaptSet (k : Nat) (p : List Byte) (s : State) : Lawful s (applyCaptSet k p s) := by
  refine lawful_checked _ _ _ ?_
  simp

@[simp] theorem lawful_applyPtpPortSet (k : Nat) (p : List Byte) (s : State) : Lawful s (applyPtpPortSet k p s) := by
  refine lawful_checked _ _ _ ?_
  simp

@[simp] theorem lawful_applyPtpSourceSet (k : Nat) (p : List Byte) (s : State) : Lawful s (applyPtpSourceSet k p s) := by
  refine lawful_checked _ _ _ ?_
  simp

@[simp] theorem lawful_applyTsRingSet (k : Nat) (p : List Byte) (s : State) : Lawful s (applyTsRingSet k p s) := lawful_ringSet ..

@[simp] theorem lawful_applyGateSet (k : Nat) (p : List Byte) (s : State) : Lawful s (applyGateSet k p s) := by
  refine lawful_checked _ _ _ ?_
  simp

@[simp] theorem lawful_applyGateGet (k : Nat) (p : List Byte) (s : State) : Lawful s (applyGateGet k p s) := by
  unfold applyGateGet
  dsimp only
  refine lawful_checked _ _ _ ?_
  repeat' split
  all_goals simp

@[simp] theorem lawful_applyRuleAdd (k : Nat) (p : List Byte) (s : State) : Lawful s (applyRuleAdd k p s) := by
  refine lawful_checked _ _ _ ?_
  simp

@[simp] theorem lawful_applyRuleMod (k : Nat) (p : List Byte) (s : State) : Lawful s (applyRuleMod k p s) := by
  refine lawful_checked _ _ _ ?_
  simp

@[simp] theorem lawful_applyRuleDel (k : Nat) (p : List Byte) (s : State) : Lawful s (applyRuleDel k p s) := by
  unfold applyRuleDel
  dsimp only
  refine lawful_checked _ _ _ ?_
  simp

@[simp] theorem lawful_applyRuleGet (k : Nat) (p : List Byte) (s : State) : Lawful s (applyRuleGet k p s) := by
  unfold applyRuleGet
  split <;> exact lawful_checked _ _ _ (by simp)

@[simp] theorem lawful_applyRuleCommit (k : Nat) (p : List Byte) (s : State) : Lawful s (applyRuleCommit k p s) := by
  unfold applyRuleCommit
  dsimp only
  refine lawful_checked _ _ _ ?_
  repeat' split
  all_goals simp

@[simp] theorem lawful_applyRuleAbort (k : Nat) (p : List Byte) (s : State) : Lawful s (applyRuleAbort k p s) := by
  refine lawful_checked _ _ _ ?_
  simp

@[simp] theorem lawful_applyClProfileSet (k : Nat) (p : List Byte) (s : State) : Lawful s (applyClProfileSet k p s) := by
  refine lawful_checked _ _ _ ?_
  simp

@[simp] theorem lawful_applyClSourceSet (k : Nat) (p : List Byte) (s : State) : Lawful s (applyClSourceSet k p s) := by
  refine lawful_checked _ _ _ ?_
  simp

@[simp] theorem lawful_applyCounterGet (k : Nat) (p : List Byte) (s : State) : Lawful s (applyCounterGet k p s) := by
  refine lawful_checked _ _ _ ?_
  simp

@[simp] theorem lawful_applyClStatsGet (k : Nat) (p : List Byte) (s : State) : Lawful s (applyClStatsGet k p s) := by
  refine lawful_checked _ _ _ ?_
  simp

@[simp] theorem lawful_applyBondSet (k : Nat) (p : List Byte) (s : State) : Lawful s (applyBondSet k p s) := by
  refine lawful_checked _ _ _ ?_
  simp

@[simp] theorem lawful_applyBondTableSet (k : Nat) (p : List Byte) (s : State) : Lawful s (applyBondTableSet k p s) := by
  refine lawful_checked _ _ _ ?_
  simp

@[simp] theorem lawful_applyBondStatsGet (k : Nat) (p : List Byte) (s : State) : Lawful s (applyBondStatsGet k p s) := by
  refine lawful_checked _ _ _ ?_
  simp

@[simp] theorem lawful_applyLagSet (k : Nat) (p : List Byte) (s : State) : Lawful s (applyLagSet k p s) := by
  refine lawful_checked _ _ _ ?_
  simp

@[simp] theorem lawful_applyLagTableSet (k : Nat) (p : List Byte) (s : State) : Lawful s (applyLagTableSet k p s) := by
  refine lawful_checked _ _ _ ?_
  simp

@[simp] theorem lawful_applyTribAllocSet (k : Nat) (p : List Byte) (s : State) : Lawful s (applyTribAllocSet k p s) := by
  refine lawful_checked _ _ _ ?_
  simp

@[simp] theorem lawful_applyTribStreamSet (k : Nat) (p : List Byte) (s : State) : Lawful s (applyTribStreamSet k p s) := by
  refine lawful_checked _ _ _ ?_
  simp

@[simp] theorem lawful_applyTribConnSet (k : Nat) (p : List Byte) (s : State) : Lawful s (applyTribConnSet k p s) := by
  refine lawful_checked _ _ _ ?_
  simp

@[simp] theorem lawful_applyTribConnGet (k : Nat) (p : List Byte) (s : State) : Lawful s (applyTribConnGet k p s) := by
  refine lawful_checked _ _ _ ?_
  simp

@[simp] theorem lawful_applyTribPageArm (k : Nat) (p : List Byte) (s : State) : Lawful s (applyTribPageArm k p s) := by
  refine lawful_checked _ _ _ ?_
  split <;> simp

@[simp] theorem lawful_applyTribPageDisarm (k : Nat) (p : List Byte) (s : State) : Lawful s (applyTribPageDisarm k p s) := by
  refine lawful_checked _ _ _ ?_
  simp

@[simp] theorem lawful_applyTribStatsGet (k : Nat) (p : List Byte) (s : State) : Lawful s (applyTribStatsGet k p s) := by
  refine lawful_checked _ _ _ ?_
  simp

@[simp] theorem lawful_applyOdcPortSet (k : Nat) (p : List Byte) (s : State) : Lawful s (applyOdcPortSet k p s) := by
  refine lawful_checked _ _ _ ?_
  simp

@[simp] theorem lawful_applyOdcStatsGet (k : Nat) (p : List Byte) (s : State) : Lawful s (applyOdcStatsGet k p s) := by
  refine lawful_checked _ _ _ ?_
  simp

@[simp] theorem lawful_applyHportModeSet (k : Nat) (p : List Byte) (s : State) : Lawful s (applyHportModeSet k p s) := by
  refine lawful_checked _ _ _ ?_
  simp

@[simp] theorem lawful_applyHportSet (k : Nat) (p : List Byte) (s : State) : Lawful s (applyHportSet k p s) := by
  refine lawful_checked _ _ _ ?_
  simp

@[simp] theorem lawful_applyHportSleepSet (k : Nat) (p : List Byte) (s : State) : Lawful s (applyHportSleepSet k p s) := by
  refine lawful_checked _ _ _ ?_
  simp

@[simp] theorem lawful_applyHportSleep (k : Nat) (p : List Byte) (s : State) : Lawful s (applyHportSleep k p s) := by
  refine lawful_checked _ _ _ ?_
  simp

@[simp] theorem lawful_applyHportWake (k : Nat) (p : List Byte) (s : State) : Lawful s (applyHportWake k p s) := by
  refine lawful_checked _ _ _ ?_
  split <;> simp

@[simp] theorem lawful_applyHportStatusGet (k : Nat) (p : List Byte) (s : State) : Lawful s (applyHportStatusGet k p s) := by
  refine lawful_checked _ _ _ ?_
  simp

@[simp] theorem lawful_applyHportStatsGet (k : Nat) (p : List Byte) (s : State) : Lawful s (applyHportStatsGet k p s) := by
  unfold applyHportStatsGet
  dsimp only
  refine lawful_checked _ _ _ ?_
  simp

@[simp] theorem lawful_applyLaneStatusGet (k : Nat) (p : List Byte) (s : State) : Lawful s (applyLaneStatusGet k p s) := by
  refine lawful_checked _ _ _ ?_
  simp

@[simp] theorem lawful_applyLaneTxSet (k : Nat) (p : List Byte) (s : State) : Lawful s (applyLaneTxSet k p s) := by
  refine lawful_checked _ _ _ ?_
  simp

@[simp] theorem lawful_applyLaneRxSet (k : Nat) (p : List Byte) (s : State) : Lawful s (applyLaneRxSet k p s) := by
  refine lawful_checked _ _ _ ?_
  simp

@[simp] theorem lawful_applyLaneTestSet (k : Nat) (p : List Byte) (s : State) : Lawful s (applyLaneTestSet k p s) := by
  refine lawful_checked _ _ _ ?_
  simp

@[simp] theorem lawful_applyLaneInject (k : Nat) (p : List Byte) (s : State) : Lawful s (applyLaneInject k p s) := by
  unfold applyLaneInject
  dsimp only
  refine lawful_checked _ _ _ ?_
  repeat' split
  all_goals simp

@[simp] theorem lawful_applyLaneEyeGet (hd : CmdHdr) (p : List Byte) (s : State) : Lawful s (applyLaneEyeGet hd p s) := by
  refine lawful_checked _ _ _ ?_
  simp

@[simp] theorem lawful_applyLaneStatsGet (k : Nat) (p : List Byte) (s : State) : Lawful s (applyLaneStatsGet k p s) := by
  refine lawful_checked _ _ _ ?_
  simp

@[simp] theorem lawful_applyArbPrioSet (k : Nat) (p : List Byte) (s : State) : Lawful s (applyArbPrioSet k p s) := by
  refine lawful_checked _ _ _ ?_
  simp

@[simp] theorem lawful_applyArbCommit (k : Nat) (p : List Byte) (s : State) : Lawful s (applyArbCommit k p s) := by
  refine lawful_checked _ _ _ ?_
  simp

@[simp] theorem lawful_applyArbGet (k : Nat) (p : List Byte) (s : State) : Lawful s (applyArbGet k p s) := by
  refine lawful_checked _ _ _ ?_
  simp

@[simp] theorem lawful_applyMemBankSet (k : Nat) (p : List Byte) (s : State) : Lawful s (applyMemBankSet k p s) := by
  unfold applyMemBankSet
  dsimp only
  refine lawful_checked _ _ _ ?_
  repeat' split
  all_goals simp

@[simp] theorem lawful_applyMemStatsGet (k : Nat) (p : List Byte) (s : State) : Lawful s (applyMemStatsGet k p s) := by
  refine lawful_checked _ _ _ ?_
  simp

@[simp] theorem lawful_applyPwrBudgetSet (k : Nat) (p : List Byte) (s : State) : Lawful s (applyPwrBudgetSet k p s) := by
  refine lawful_checked _ _ _ ?_
  simp

@[simp] theorem lawful_applyPwrRelease (k : Nat) (p : List Byte) (s : State) : Lawful s (applyPwrRelease k p s) := by
  refine lawful_checked _ _ _ ?_
  simp

@[simp] theorem lawful_applyPwrEnergyGet (k : Nat) (p : List Byte) (s : State) : Lawful s (applyPwrEnergyGet k p s) := by
  refine lawful_checked _ _ _ ?_
  simp

@[simp] theorem lawful_applyPwrStateGet (_k : Nat) (p : List Byte) (s : State) : Lawful s (applyPwrStateGet _k p s) := by
  refine lawful_checked _ _ _ ?_
  simp

@[simp] theorem lawful_applyDomainReset (k : Nat) (p : List Byte) (s : State) : Lawful s (applyDomainReset k p s) := by
  refine lawful_checked _ _ _ ?_
  simp

@[simp] theorem lawful_applySensorGet (k : Nat) (p : List Byte) (s : State) : Lawful s (applySensorGet k p s) := by
  unfold applySensorGet
  dsimp only
  refine lawful_checked _ _ _ ?_
  repeat' split
  all_goals simp

@[simp] theorem lawful_applyAlarmThreshSet (k : Nat) (p : List Byte) (s : State) : Lawful s (applyAlarmThreshSet k p s) := by
  refine lawful_checked _ _ _ ?_
  simp

@[simp] theorem lawful_applyAlarmAck (k : Nat) (p : List Byte) (s : State) : Lawful s (applyAlarmAck k p s) := by
  refine lawful_checked _ _ _ ?_
  simp

@[simp] theorem lawful_applyLogRead (k : Nat) (p : List Byte) (s : State) : Lawful s (applyLogRead k p s) := by
  unfold applyLogRead
  dsimp only
  refine lawful_checked _ _ _ ?_
  simp

@[simp] theorem lawful_applyFlogRead (k : Nat) (p : List Byte) (s : State) : Lawful s (applyFlogRead k p s) := by
  refine lawful_checked _ _ _ ?_
  simp

@[simp] theorem lawful_applyWdogSet (k : Nat) (p : List Byte) (s : State) : Lawful s (applyWdogSet k p s) := by
  refine lawful_checked _ _ _ ?_
  simp

@[simp] theorem lawful_applyFwStage (hd : CmdHdr) (p : List Byte) (s : State) : Lawful s (applyFwStage hd p s) := by
  refine lawful_checked _ _ _ ?_
  simp

@[simp] theorem lawful_applyFwVerify (hd : CmdHdr) (p : List Byte) (s : State) : Lawful s (applyFwVerify hd p s) := by
  refine lawful_checked _ _ _ ?_
  simp

@[simp] theorem lawful_applyFwActivate (hd : CmdHdr) (p : List Byte) (s : State) : Lawful s (applyFwActivate hd p s) := by
  refine lawful_checked _ _ _ ?_
  split <;> simp

@[simp] theorem lawful_applyFwStatusGet (_k : Nat) (p : List Byte) (s : State) : Lawful s (applyFwStatusGet _k p s) := by
  unfold applyFwStatusGet
  dsimp only
  refine lawful_checked _ _ _ ?_
  repeat' split
  all_goals simp

@[simp] theorem lawful_applyFuseSvnAdvance (hd : CmdHdr) (p : List Byte) (s : State) : Lawful s (applyFuseSvnAdvance hd p s) := by
  refine lawful_checked _ _ _ ?_
  simp

@[simp] theorem lawful_applyFusePinmapBurn (k : Nat) (p : List Byte) (s : State) : Lawful s (applyFusePinmapBurn k p s) := by
  refine lawful_checked _ _ _ ?_
  simp

@[simp] theorem lawful_applyAttestQuote (hd : CmdHdr) (p : List Byte) (s : State) : Lawful s (applyAttestQuote hd p s) := by
  refine lawful_checked _ _ _ ?_
  simp

@[simp] theorem lawful_applyAttestCertGet (_k : Nat) (p : List Byte) (s : State) : Lawful s (applyAttestCertGet _k p s) := by
  refine lawful_checked _ _ _ ?_
  simp

@[simp] theorem lawful_applyChanOpen (k : Nat) (p : List Byte) (s : State) : Lawful s (applyChanOpen k p s) := by
  refine lawful_checked _ _ _ ?_
  split
  · simp
  · split
    · simp
    · refine ⟨by simp, fun hok _ hgo => ?_⟩
      dsimp only at hok hgo
      split at hok <;> simp_all

@[simp] theorem lawful_applyChanClose (k : Nat) (p : List Byte) (s : State) : Lawful s (applyChanClose k p s) := by
  refine lawful_checked _ _ _ ?_
  simp

@[simp] theorem lawful_applyChanFeSet (k : Nat) (p : List Byte) (s : State) : Lawful s (applyChanFeSet k p s) := by
  refine lawful_checked _ _ _ ?_
  simp

@[simp] theorem lawful_applyChanTimerSet (k : Nat) (p : List Byte) (s : State) : Lawful s (applyChanTimerSet k p s) := by
  refine lawful_checked _ _ _ ?_
  simp

@[simp] theorem lawful_applyChanStatsGet (k : Nat) (p : List Byte) (s : State) : Lawful s (applyChanStatsGet k p s) := by
  refine lawful_checked _ _ _ ?_
  simp

@[simp] theorem lawful_applyChanGuardClear (k : Nat) (p : List Byte) (s : State) : Lawful s (applyChanGuardClear k p s) := by
  refine lawful_checked _ _ _ ?_
  simp

@[simp] theorem lawful_applyChanWake (k : Nat) (p : List Byte) (s : State) : Lawful s (applyChanWake k p s) := by
  refine lawful_checked _ _ _ ?_
  simp

@[simp] theorem lawful_applyChanPlanSet (k : Nat) (p : List Byte) (s : State) : Lawful s (applyChanPlanSet k p s) := by
  refine lawful_checked _ _ _ ?_
  simp

@[simp] theorem lawful_applyChanDozeSet (k : Nat) (p : List Byte) (s : State) : Lawful s (applyChanDozeSet k p s) := by
  refine lawful_checked _ _ _ ?_
  simp

@[simp] theorem lawful_applyChanReset (k : Nat) (p : List Byte) (s : State) : Lawful s (applyChanReset k p s) := by
  refine lawful_checked _ _ _ ?_
  simp

@[simp] theorem lawful_applyFlowCtxSet (k : Nat) (p : List Byte) (s : State) : Lawful s (applyFlowCtxSet k p s) := by
  refine lawful_checked _ _ _ ?_
  simp

@[simp] theorem lawful_applyFeMgmtSet (k : Nat) (p : List Byte) (s : State) : Lawful s (applyFeMgmtSet k p s) := by
  refine lawful_checked _ _ _ ?_
  simp

@[simp] theorem lawful_applyDevInfo (_k : Nat) (p : List Byte) (s : State) : Lawful s (applyDevInfo _k p s) := by
  refine lawful_checked _ _ _ ?_
  simp

@[simp] theorem lawful_applyDevReset (k : Nat) (p : List Byte) (s : State) : Lawful s (applyDevReset k p s) := by
  refine lawful_checked _ _ _ ?_
  simp

@[simp] theorem lawful_applyDevCauseClear (k : Nat) (p : List Byte) (s : State) : Lawful s (applyDevCauseClear k p s) := by
  refine lawful_checked _ _ _ ?_
  simp

@[simp] theorem lawful_applyRstPolicySet (k : Nat) (p : List Byte) (s : State) : Lawful s (applyRstPolicySet k p s) := by
  refine lawful_checked _ _ _ ?_
  simp

@[simp] theorem lawful_applySummaryGet (k : Nat) (p : List Byte) (s : State) : Lawful s (applySummaryGet k p s) := by
  refine lawful_checked _ _ _ ?_
  simp

@[simp] theorem lawful_applyPartAssign (k : Nat) (p : List Byte) (s : State) : Lawful s (applyPartAssign k p s) := by
  refine lawful_checked _ _ _ ?_
  simp

@[simp] theorem lawful_applyPartQuotaSet (k : Nat) (p : List Byte) (s : State) : Lawful s (applyPartQuotaSet k p s) := by
  refine lawful_checked _ _ _ ?_
  simp

@[simp] theorem lawful_applyPartReset (k : Nat) (p : List Byte) (s : State) : Lawful s (applyPartReset k p s) := by
  refine lawful_checked _ _ _ ?_
  simp

@[simp] theorem lawful_applyPartGet (k : Nat) (p : List Byte) (s : State) : Lawful s (applyPartGet k p s) := by
  refine lawful_checked _ _ _ ?_
  simp

end Sys2Proof.Machine

/-! PROOF. Processing commands burns no fuse: on a ring (R519 to R530), on a mailbox (R511), and through the registers. -/

namespace Sys2Proof.Machine
open State

theorem lawful_hostApply {op : Nat} {hd : CmdHdr} {p : List Byte} {s : State} {r : CmdResult} (h : hostApply op hd p s = some r) :
    Lawful s r := by
  unfold hostApply at h
  split at h <;> cases h <;> simp

theorem lawful_applyCmd (s : State) (c : RawCmd) : Lawful s (s.applyCmd c) := by
  unfold applyCmd
  split
  · simp
  · next r h =>
    split
    · simp
    · exact lawful_hostApply h

theorem lawful_judge (s : State) (c : RawCmd) (expected : Option (BitVec 32)) : Lawful s (s.judge c expected) := by
  unfold judge
  split
  · simp
  · split
    · simp
    · split
      · simp
      · exact lawful_applyCmd s c

namespace State

theorem svn_settleResult {s : State} {r : CmdResult} (h : Lawful s r) (k : Nat) (c : RawCmd) :
    (settleResult r k c).cmdView.1 = s.cmdView.1 := by
  unfold settleResult
  split
  · rw [svn_updEp, h.svn]
  · rw [cmdView_finish, h.svn]

theorem svn_resume {s : State} {c : RawCmd} {r : CmdResult} (h : s.resume c = some r) : r.state.cmdView.1 = s.cmdView.1 := by
  unfold resume at h
  dsimp only at h
  split at h
  all_goals split at h <;> cases h
  · rfl
  · dsimp only [done]
    split <;> simp
  · split <;> simp [fail, done]
  · simp [done]

/-! ### A ring -/

theorem svn_doResync {s t : State} {k i : Nat} (h : s.doResync k i = some t) : t.cmdView.1 = s.cmdView.1 := by
  unfold doResync at h
  dsimp only at h
  split at h
  · cases h
  · split at h
    · split at h <;> cases h
      simp
    · split at h <;> cases h
      simp

theorem svn_processKept {s t : State} {k : Nat} (h : s.processKept k = some t) : t.cmdView.1 = s.cmdView.1 := by
  unfold processKept at h
  dsimp only at h
  split at h
  · cases h
  · split at h
    · split at h <;> cases h
      simp
    · split at h
      · cases h
        simp
      · split at h <;> cases h
        exact (svn_settleResult (lawful_judge _ _ _) _ _).trans (svn_updEp ..)

theorem svn_processHead {s t : State} {k : Nat} (h : s.processHead k = some t) : t.cmdView.1 = s.cmdView.1 := by
  unfold processHead at h
  dsimp only at h
  split at h
  · cases h
  · split at h
    · cases h
      simp
    · split at h <;> cases h
      exact (svn_settleResult (lawful_judge _ _ _) _ _).trans (svn_updEp ..)

theorem svn_ringStep {s t : State} {k : Nat} (h : s.ringStep k = some t) : t.cmdView.1 = s.cmdView.1 := by
  rw [← svn_fetch s k]
  unfold ringStep at h
  dsimp only at h
  split at h
  · cases h
  · split at h
    · exact svn_doResync h
    · split at h
      · cases h
      · split at h
        · exact svn_processKept h
        · exact svn_processHead h

@[simp] theorem svn_drain (k n : Nat) (s : State) : (drain k n s).cmdView.1 = s.cmdView.1 := by
  induction n generalizing s with
  | zero => exact svn_fetchIf s k
  | succ n ih =>
    unfold drain
    split
    · next h => rw [ih, svn_ringStep h]
    · exact svn_fetchIf s k

/-! ### A mailbox, and the commands that go on applying -/

@[simp] theorem svn_mboxRun (s : State) (k : Nat) (c : RawCmd) : (s.mboxRun k c).cmdView.1 = s.cmdView.1 := by
  have hc := (lawful_applyCmd s c).svn
  unfold mboxRun
  dsimp only
  split
  · simp
  · split
    · simp
    · split
      · simp
      · split <;> simp [hc]

@[simp] theorem svn_endApplying (s : State) (k : Nat) : (s.endApplying k).cmdView.1 = s.cmdView.1 := by
  unfold endApplying
  extract_lets s1 s2
  have h1 : s1.cmdView.1 = s.cmdView.1 := by
    simp only [s1]
    split
    · split
      · next h => rw [cmdView_finish, svn_resume h, svn_updEp]
      · rfl
    · rfl
  have h2 : s2.cmdView.1 = s.cmdView.1 := by
    rw [← h1]
    simp only [s2]
    split
    · split
      · next h => rw [svn_mboxReply, svn_resume h, svn_updEp]
      · rfl
    · rfl
  split
  · rfl
  · split
    · split
      · exact h2
      · rw [svn_mboxRun, h2]
    · exact h2

@[simp] theorem svn_settleRound (s : State) : s.settleRound.cmdView.1 = s.cmdView.1 := svn_foldl (fun t k => by simp) _ _

@[simp] theorem svn_settle (s : State) : s.settle.cmdView.1 = s.cmdView.1 := by simp [settle]

/-! ### Posting, starting and stopping -/

@[simp] theorem svn_doDoorbell (s : State) (k : Nat) (value : BitVec 32) (cmds : List RawCmd) :
    (s.doDoorbell k value cmds).cmdView.1 = s.cmdView.1 := by
  unfold doDoorbell
  dsimp only
  split
  · rfl
  · split
    · simp
    · split <;> simp

@[simp] theorem svn_hostPost (s : State) (c : RawCmd) : (s.hostPost c).cmdView.1 = s.cmdView.1 := svn_doDoorbell ..

@[simp] theorem svn_doRingRun (s : State) (k : Nat) : (s.doRingRun k).cmdView.1 = s.cmdView.1 := by
  unfold doRingRun
  dsimp only
  split
  · rfl
  · split
    · simp
    · rw [svn_settle, cmdView_foldl fun t c => cmdView_publishCmp t k c]
      split <;> simp

@[simp] theorem svn_doRingStop (s : State) (k : Nat) : (s.doRingStop k).cmdView.1 = s.cmdView.1 := by simp [doRingStop]

@[simp] theorem svn_doMboxCmd (s : State) (k : Nat) (c : RawCmd) : (s.doMboxCmd k c).cmdView.1 = s.cmdView.1 := by
  unfold doMboxCmd
  dsimp only
  split
  · rfl
  · split
    · simp
    · split <;> simp

theorem svn_mboxOp (s : State) (k op : Nat) (req : List Byte) (run : State → Nat × List Byte × State)
    (h : ∀ s, (run s).2.2.cmdView.1 = s.cmdView.1) : (s.mboxOp k op req run).cmdView.1 = s.cmdView.1 := by
  unfold mboxOp
  dsimp only
  split
  · rfl
  · split <;> simp [h]

@[simp] theorem svn_mboxPushBegin (s : State) (k : Nat) (req : List Byte) : (s.mboxPushBegin k req).cmdView.1 = s.cmdView.1 := by
  refine svn_mboxOp s _ _ _ _ fun t => ?_
  split
  · rfl
  · split <;> simp

@[simp] theorem svn_mboxPushData (s : State) (k : Nat) (req : List Byte) : (s.mboxPushData k req).cmdView.1 = s.cmdView.1 := by
  refine svn_mboxOp s _ _ _ _ fun t => ?_
  split
  · rfl
  · split <;> simp

@[simp] theorem svn_mboxPushEnd (s : State) (k : Nat) (req : List Byte) (sigOk : Bool) :
    (s.mboxPushEnd k req sigOk).cmdView.1 = s.cmdView.1 := by
  refine svn_mboxOp s _ _ _ _ fun t => ?_
  split
  · rfl
  · split
    · rfl
    · split <;> simp

@[simp] theorem svn_mboxFlog (s : State) (k : Nat) (req : List Byte) : (s.mboxFlog k req).cmdView.1 = s.cmdView.1 :=
  svn_mboxOp s _ _ _ _ fun _ => by split <;> rfl

@[simp] theorem svn_mboxBootrec (s : State) (k : Nat) : (s.mboxBootrec k).cmdView.1 = s.cmdView.1 :=
  svn_mboxOp s _ _ _ _ fun _ => rfl

/-! ### Registers -/

theorem ite_svn {c : Prop} [Decidable c] {a b : State} {n : Nat} (ha : a.cmdView.1 = n) (hb : b.cmdView.1 = n) :
    (if c then a else b).cmdView.1 = n := by
  split
  · exact ha
  · exact hb

@[simp] theorem svn_writeMboxCtrl (s : State) (k : Nat) (v : BitVec 32) : (s.writeMboxCtrl k v).cmdView.1 = s.cmdView.1 := by
  unfold writeMboxCtrl
  dsimp only
  split
  · rw [svn_mboxOp _ _ _ _ _ fun _ => rfl, svn_updEp]
  · simp

@[simp] theorem svn_writeBar0 (s : State) (k off : Nat) (v : BitVec 32) : (s.writeBar0 k off v).cmdView.1 = s.cmdView.1 := by
  unfold writeBar0
  exact ite_svn rfl <| ite_svn (ite_svn (svn_doRingRun ..) (svn_doRingStop ..)) <| ite_svn (by simp) <| ite_svn (by simp) <|
    ite_svn (by simp) <| ite_svn (by simp) <| ite_svn (by simp) <| ite_svn (by simp) <| ite_svn (by simp) <|
    ite_svn (ite_svn rfl (by simp)) <| ite_svn (by simp) <| ite_svn (by simp) <| ite_svn (by simp) <| ite_svn (by simp) rfl

@[simp] theorem svn_writeRegister (s : State) (sp : RegSpace) (off : Nat) (v : BitVec 32) :
    (s.writeRegister sp off v).cmdView.1 = s.cmdView.1 := by
  unfold writeRegister
  split
  · rfl
  · cases sp <;> simp

end State
end Sys2Proof.Machine

/-! PROOF. The anti-rollback counter over a step (R475). -/

namespace Sys2Proof.Machine
open Sys2Proof
namespace State

/-- The counter does not fall from `s` to `t`, and rises only where a FUSE.SVN.ADVANCE is open in `s`. -/
def SvnKept (s t : State) : Prop := s.fw.svn ≤ t.fw.svn ∧ (t.fw.svn ≠ s.fw.svn → ∃ o ∈ s.fw.ops, o.opcode = 0x0E05)

theorem svnKept_of_view {s t : State} (h : t.cmdView.1 = s.cmdView.1) : SvnKept s t :=
  have h : t.fw.svn = s.fw.svn := h
  ⟨h.ge, fun hne => absurd h hne⟩

@[simp] theorem svn_result (s : State) (code : Nat) (hd : CmdHdr) (status : Nat) (detail : List Byte) :
    (s.result code hd status detail).fw.svn = s.fw.svn := svn_eq_of_cmdView (by simp [result])

/-- What an operation that ends does to the counter, its effect or its breaking off. -/
theorem svn_opEnd_le (s : State) (o : AsyncOp) (op status reason : Nat) (g : PackageInfo) :
    let t := if status = 0 then s.opEffect o reason g else if op = opActivate then s.activateStop
      else if status = 0x17 ∨ status = 0x20 then s.opBroken o else s
    s.fw.svn ≤ t.fw.svn ∧ (o.opcode.toNat ≠ opSvn → t.fw.svn = s.fw.svn) := by
  have hstop : s.activateStop.fw.svn = s.fw.svn := svn_eq_of_cmdView (by simp)
  dsimp only
  split
  · exact svn_opEffect_le ..
  · split
    · exact ⟨hstop.ge, fun _ => hstop⟩
    · split
      · exact svn_opBroken_le ..
      · exact ⟨le_rfl, fun _ => rfl⟩

theorem svnKept_doAsyncDone (s : State) (op status reason : Nat) (img : PkgImage) : SvnKept s (s.doAsyncDone op status reason img) := by
  unfold doAsyncDone
  split
  case h_1 => exact svnKept_of_view rfl
  case h_2 o ho =>
    have hmem : o ∈ s.fw.ops := List.mem_of_find?_eq_some ho
    extract_lets reason'
    split
    · exact svnKept_of_view rfl
    · rename_i quote s1 s2 _
      have hend := svn_opEnd_le s1 o op status reason' (pkgInfo img.head)
      change s.fw.svn ≤ s2.fw.svn ∧ (o.opcode.toNat ≠ opSvn → s2.fw.svn = s.fw.svn) at hend
      have hres : ∀ t : State, t.fw.svn = s2.fw.svn → SvnKept s t := fun t ht =>
        ⟨ht ▸ hend.1, fun hne => ⟨o, hmem, by
          by_contra hop
          exact hne (ht.trans (hend.2 fun h => hop (BitVec.eq_of_toNat_eq h)))⟩⟩
      split <;> exact hres _ (svn_result ..)

/-- Every instruction keeps it so; of them only the end of an operation moves the counter. -/
theorem svnKept_exec (i : Instr) (s t : State) (h : exec i s = .next t) : SvnKept s t := by
  cases i
  case asyncOperationDone op status reason img =>
    obtain rfl := Host.Outcome.next.inj h
    exact svnKept_doAsyncDone ..
  all_goals
    obtain rfl := Host.Outcome.next.inj h
    exact svnKept_of_view (by simp)

/-- Settles O57: a step runs one instruction or idles, and no instruction lets the counter fall. -/
theorem rollbackCounterNeverFalls : Obligations.RollbackCounterNeverFalls := by
  intro s t h
  unfold step at h
  split at h
  · obtain rfl := Host.Outcome.next.inj h
    exact svnKept_of_view rfl
  · exact (svnKept_exec _ _ _ h :)

end State
end Sys2Proof.Machine

/-! PROOF. A refused command has no effect (R527): its application leaves the state in which it was taken, and the ring completes it there. -/

namespace Sys2Proof.Machine
namespace State

/-- A result that leaves the state of the command's taking and replies nothing. -/
theorem finish_refused {s : State} {c : RawCmd} {r : CmdResult} (h : r.state = s ∧ r.reply = []) :
    r.state.finish c.hdr.ep c r.status r.detail r.reply = s.failOf c r.status r.detail := by
  obtain ⟨hs, hr⟩ := h
  rw [hs, hr]
  rfl

/-- A command without a meaning completes as judged, which is how it is applied. -/
theorem hostPost_noMeaning {s : State} {c : RawCmd} (h : s.Takes c 0) (hop : c.opcode ≠ 1) (hop2 : c.opcode ≠ 2)
    (hk : hostApply c.opcode.toNat c.hdr c.payload (s.taken c) = none) : s.hostPost c = (s.taken c).failOf c stBadOpcode := by
  have hj : (s.taken c).judge c (s.ep c.hdr.ep).expSeq = fail (s.taken c) stBadOpcode := by
    unfold judge
    simp [hk]
  rw [doorbell_posted h, settle_posted h.still (ringStep_posted h hop hj (unitsNeeded_fail_le h hop2 _ _ _))
    (still_finish (still_taken h.still c) _ _ _ _ _)]
  rfl

/-- Settles O54: every application of chapter 18 that refuses leaves its state (`lawful_applyCmd`). -/
theorem refusedCommandsHaveNoEffect : Obligations.RefusedCommandsHaveNoEffect := by
  intro s c r h hop hop2 hok hpend happ
  have hr : r.state = s.taken c ∧ r.reply = [] := (lawful_applyCmd _ c).refused hok hpend happ
  refine congrArg Host.Outcome.next (?_ : s.hostPost c = _)
  by_cases hk : (hostApply c.opcode.toNat c.hdr c.payload (s.taken c)).isSome = true
  · rw [hostPost_done (r := r) h hop hop2 rfl hk happ (by simp [hr.2]) (hr.1 ▸ still_taken h.still c), finish_refused hr]
  · have hnone := Option.not_isSome_iff_eq_none.1 hk
    have hfail : r = fail (s.taken c) stBadOpcode := by simp [r, applyCmd, hnone]
    rw [hostPost_noMeaning h hop hop2 hnone, hfail]
    rfl

end State
end Sys2Proof.Machine

/-! PROOF. Host commands by the checks of R528: a command whose checks pass and whose effect keeps the command interface completes as its
application says. -/

namespace Sys2Proof.Machine
namespace State

/-- A reading of the state that does not see the command interface reads the same once a command is taken. -/
theorem frame_taken {β : Type} (f : State → β) (hf : ∀ (s : State) es out, f { s with eps := es, out := out } = f s) (s : State) (c : RawCmd) :
    f (s.taken c) = f s := hf s (s.taken c).eps (s.taken c).out

/-- A command that passes its checks completes with OK and its reply. -/
theorem next_checked {s t : State} {op : BitVec 16} {hd : CmdHdr} {p : List Byte} {n : Nat} {reply : List Byte} {plen : Bool}
    {right bad : Option Nat} {k : CmdResult} (ht : s.Takes ⟨op, hd, p⟩ n)
    (happ : hostApply op.toNat hd p (s.taken ⟨op, hd, p⟩) = some (checked (s.taken ⟨op, hd, p⟩) plen right bad k))
    (hlen : plen = true) (hright : right = none) (hbad : bad = none) (hk : k = done t reply)
    (hdom : s.lacksDomain op.toNat p = false) (hreply : reply.length ≤ n) (hview : t.cmdView = (s.taken ⟨op, hd, p⟩).cmdView)
    (hop : op ≠ 1 := by decide) (hop2 : op ≠ 2 := by decide) :
    (.next (s.hostPost ⟨op, hd, p⟩) : Host.Outcome State Fault Refusal) = .next (t.okOf ⟨op, hd, p⟩ reply) :=
  next_hostPost_ok ht (happ.trans (congrArg some ((checked_ok _ _ hlen hright hbad).trans hk))) hdom hreply
    (still_of_cmdView (still_taken ht.still _) hview) hop hop2

/-- A command that passes its checks and begins an operation completes with PENDING_ASYNC. -/
theorem next_checked_pending {s t : State} {op : BitVec 16} {hd : CmdHdr} {p : List Byte} {plen : Bool}
    {right bad : Option Nat} {k : CmdResult} (ht : s.Takes ⟨op, hd, p⟩ 0)
    (happ : hostApply op.toNat hd p (s.taken ⟨op, hd, p⟩) = some (checked (s.taken ⟨op, hd, p⟩) plen right bad k))
    (hlen : plen = true) (hright : right = none) (hbad : bad = none) (hk : k = Machine.pending t)
    (hdom : s.lacksDomain op.toNat p = false) (hview : t.cmdView = (s.taken ⟨op, hd, p⟩).cmdView)
    (hop : op ≠ 1 := by decide) (hop2 : op ≠ 2 := by decide) :
    (.next (s.hostPost ⟨op, hd, p⟩) : Host.Outcome State Fault Refusal) = .next (t.pendOf ⟨op, hd, p⟩) :=
  next_hostPost_pending ht (happ.trans (congrArg some ((checked_ok _ _ hlen hright hbad).trans hk))) hdom
    (still_of_cmdView (still_taken ht.still _) hview) hop hop2

end State

/-- Fields in range and no reserved bytes. -/
theorem firstBad_nil {p : List Byte} {fs : List (Bool × Nat)} (h : ∀ f ∈ fs, f.1 = false) : firstBad p fs [] = none :=
  State.firstBad_none h (zeroAt_nil p)

/-- The right of partition 0, which the header names. -/
theorem right0_ep {k : Fin 8} (h : k = 0) : right0 k = none := by rw [h]; rfl

theorem length_flatMap_const {α : Type} {f : α → List Byte} {n : Nat} (l : List α) (h : ∀ a ∈ l, (f a).length = n) :
    (l.flatMap f).length = n * l.length := by
  rw [List.length_flatMap, List.map_congr_left h, List.map_const', List.sum_replicate]
  simp [Nat.mul_comm]

@[simp] theorem length_sBytes (n : Nat) (x : Int) : (sBytes n x).length = n := length_leBytes ..

end Sys2Proof.Machine

/-! PROOF. The power commands (Table 18.13), the arbiter and memory commands (Table 18.14) and the management commands (Table 18.15). -/

namespace Sys2Proof.Machine
open State

section
variable (s : State) (c : RawCmd)

@[simp] theorem ledgers_taken : (s.taken c).ledgers = s.ledgers := frame_taken State.ledgers (fun _ _ _ => rfl) s c
@[simp] theorem railBudget_taken (r : Nat) : (s.taken c).railBudget r = s.railBudget r := frame_taken (State.railBudget · r) (fun _ _ _ => rfl) s c
@[simp] theorem budgetW_taken : (s.taken c).budgetW = s.budgetW := frame_taken State.budgetW (fun _ _ _ => rfl) s c
@[simp] theorem domByte_taken : (s.taken c).domByte = s.domByte := frame_taken State.domByte (fun _ _ _ => rfl) s c
@[simp] theorem slewFloor25_taken (n r : Nat) : (s.taken c).slewFloor25 n r = s.slewFloor25 n r :=
  frame_taken (State.slewFloor25 · n r) (fun _ _ _ => rfl) s c
@[simp] theorem powerTotal_taken (l : List Nat) : (s.taken c).powerTotal l = s.powerTotal l :=
  frame_taken (State.powerTotal · l) (fun _ _ _ => rfl) s c
@[simp] theorem seesDom_taken (k d : Nat) : (s.taken c).seesDom k d = s.seesDom k d := frame_taken (State.seesDom · k d) (fun _ _ _ => rfl) s c
@[simp] theorem domBusy_taken (d : Nat) : (s.taken c).domBusy d = s.domBusy d := frame_taken (State.domBusy · d) (fun _ _ _ => rfl) s c
@[simp] theorem memStats_taken : memStats (s.taken c) = memStats s := frame_taken memStats (fun _ _ _ => rfl) s c
@[simp] theorem flogAge_taken (n : Nat) : (s.taken c).flogAge n = s.flogAge n := frame_taken (State.flogAge · n) (fun _ _ _ => rfl) s c

end

theorem length_ledgers (s : State) : s.ledgers.length = 6 := by simp [State.ledgers, State.ledgersWith]

theorem length_memStats (s : State) : (memStats s).length = 136 := by simp [memStats]

/-- Settles O37: each power command passes its checks. -/
theorem powerCommandsApply : Obligations.PowerCommandsApply := by
  refine ⟨fun hd p s => ?budget, fun hd s => ?release, fun hd p s => ?reset, fun hd p s => ?free, fun hd p s => ?energy, fun hd s => ?state⟩
  case budget =>
    intro c rails slews w ht hlen hep hw hw' hfields hroom htotal
    refine next_checked ht rfl (beq_iff_eq.2 hlen) (right0_ep hep) (firstBad_nil ?_) (if_neg ?_) rfl (Nat.le_refl 0) (by simp [c])
    · simp only [List.mem_append, List.mem_map, List.mem_range]
      rintro f ((⟨r, hr, rfl⟩ | hf) | ⟨r, hr, rfl⟩)
      · obtain ⟨hlow, hhigh, hslew, hslew'⟩ := hfields r hr
        exact (Bool.or_eq_false_iff.2 ⟨decide_eq_false hlow.not_gt, decide_eq_false hhigh.not_gt⟩ :)
      · obtain rfl := List.mem_singleton.1 hf
        simp only [Bool.or_eq_false_iff, decide_eq_false_iff_not]
        omega
      · obtain ⟨hlow, hhigh, hslew, hslew'⟩ := hfields r hr
        exact (Bool.or_eq_false_iff.2 ⟨decide_eq_false hslew.not_gt, decide_eq_false hslew'.not_gt⟩ :)
    · simp only [slewFloor25_taken, ledgers_taken, powerTotal_taken, Bool.or_eq_true, List.any_eq_true, decide_eq_true_eq, List.mem_range,
        not_or, not_exists, not_and, Nat.not_lt]
      exact ⟨fun r hr => hroom r hr, htotal⟩
  case release =>
    intro c ht hep hseated
    exact next_checked ht rfl rfl (right0_ep hep) rfl (if_pos hseated) rfl (Nat.le_refl 0) (by simp [c])
  case reset =>
    intro c d ht hlen hep hd' hf hbusy
    refine next_checked ht rfl (beq_iff_eq.2 hlen) (right0_ep hep) (firstBad_nil ?_)
      ((if_neg (by omega)).trans (if_neg (by simpa using hbusy))) rfl (Nat.le_refl 0) ?_
    · simp [domBarred]
      omega
    · split <;> split <;> simp [c]
  case free =>
    intro c d ht hlen hep hd' hf hheld
    refine next_checked ht rfl (beq_iff_eq.2 hlen) (right0_ep hep) (firstBad_nil ?_)
      ((if_pos hf).trans (if_pos (by simpa using hheld))) rfl (Nat.le_refl 0) (by simp [c])
    simp [domBarred]
    omega
  case energy =>
    intro c a n reply ht hlen hn han hsees
    refine next_checked ht rfl (beq_iff_eq.2 hlen) ?_ (firstBad_nil ?_) ?_ rfl (Nat.le_refl _) (by simp [c])
    · simp only [List.find?_eq_none, List.mem_map, List.mem_range, seesDom_taken]
      rintro _ ⟨i, hi, rfl⟩
      simpa using fun _ => hsees i hi
    · simp
      omega
    · simp [reply, List.flatMap_map, c, a, n]
  case state =>
    intro c ht
    refine next_checked ht rfl rfl rfl rfl (by simp [c]) rfl ?_ rfl
    have hcounts : ((List.range 218).flatMap fun d =>
        leBytes 4 (min (s.pdom d).orphan 4294967295) ++ leBytes 4 (min (s.pdom d).absent 4294967295)).length = 8 * 218 := by
      rw [length_flatMap_const _ fun _ _ => by rw [List.length_append, length_leBytes, length_leBytes], List.length_range]
    simp only [List.length_append, List.length_map, List.length_range, length_leBytes, length_zeros, List.length_singleton,
      length_flatMap_const (n := 4) _ (fun _ _ => length_leBytes ..), length_ledgers, hcounts, le_refl]

/-- Settles O21: each command of the table passes its checks. -/
theorem arbiterAndMemoryCommandsApply : Obligations.ArbiterAndMemoryCommandsApply := by
  refine ⟨fun hd p s => ?prio, fun hd s => ?commit, fun hd s => ?get, fun hd p s => ?bank, fun hd p s => ?stats⟩
  case prio =>
    intro c first n ht hup hlen hep hn hsum hbase
    refine next_checked ht rfl (beq_iff_eq.2 hlen) (right0_ep hep) (firstBad_nil ?_) rfl (by simp [lacksDomain, hup]) (Nat.le_refl 0)
      (by simp [c])
    simp only [List.mem_append, List.mem_map, List.mem_range, List.mem_cons, List.not_mem_nil, or_false]
    rintro f ((rfl | rfl) | ⟨i, hi, rfl⟩)
    · simp only [decide_eq_false_iff_not]
      omega
    · simp only [Bool.or_eq_false_iff, beq_eq_false_iff_ne, decide_eq_false_iff_not]
      omega
    · exact decide_eq_false (hbase i hi).not_gt
  case commit =>
    intro c ht hup hep
    exact next_checked ht rfl rfl (right0_ep hep) rfl (by simp [c]) (by simp [lacksDomain, hup]) (length_leBytes ..).le (by simp [c])
  case get =>
    intro c ht hup hep
    exact next_checked ht rfl rfl (right0_ep hep) rfl (by simp [c]) (by simp [lacksDomain, hup]) (by simp) rfl
  case bank =>
    intro c mask ht hup hlen hep hfour
    exact next_checked ht rfl (beq_iff_eq.2 hlen) (right0_ep hep) rfl (if_neg hfour.not_gt) (by simp [lacksDomain, hup]) (Nat.le_refl 0)
      (by simp [c])
  case stats =>
    intro c ht hup hlen hclear
    refine next_checked ht rfl (beq_iff_eq.2 hlen) (if_neg ?_) (firstBad_nil ?_) (by simp [c]) (by simp [lacksDomain, hup])
      (length_memStats s).le ?_
    · rintro ⟨hodd, hep⟩
      rcases hclear with h | ⟨-, h⟩
      · omega
      · exact hep (by rw [h]; rfl)
    · simp
      omega
    · split <;> simp [c]

/-- Settles O45: each command of the table passes its checks. -/
theorem managementCommandsApply : Obligations.ManagementCommandsApply := by
  refine ⟨fun hd s => ?sensor, fun hd p s => ?thresh, fun hd p s => ?ack, fun hd p s => ?log, fun hd p s => ?flog, fun hd p s => ?wdog⟩
  case sensor =>
    intro c ht
    refine next_checked ht rfl rfl rfl rfl ?_ rfl ?_ rfl
    · simp [c]
    · have hrails : ((List.range 8).flatMap fun r => leBytes 4 (Tab.get 0 s.pwr.railV r) ++ leBytes 4 (Tab.get 0 s.pwr.railI r)).length
          = 8 * 8 := by
        rw [length_flatMap_const _ fun _ _ => by rw [List.length_append, length_leBytes, length_leBytes], List.length_range]
      rw [List.length_append, length_flatMap_const (n := 2) _ fun _ _ => length_sBytes .., List.length_range]
      split <;> simp [hrails]
  case thresh =>
    intro c ht hlen hep hmin hlt hmax
    refine next_checked ht rfl (beq_iff_eq.2 hlen) (right0_ep hep) (firstBad_nil ?_) rfl rfl (Nat.le_refl 0) (by simp [c])
    simp
    omega
  case ack =>
    intro c it ht hlen hep hkind hz hopen
    refine next_checked ht rfl (beq_iff_eq.2 hlen) (right0_ep hep) (firstBad_none ?_ hz) ((if_pos ?_).trans rfl) rfl (Nat.le_refl 0)
      (by simp [c])
    · simp
      omega
    · simp only [List.any_eq_true]
      obtain ⟨a, ha, ⟨hcode, hkind', hidx⟩, hsev, hpres, hlist⟩ := hopen
      exact ⟨a, by simpa using ha, by simp [State.sameAlarm, hcode, hkind', hidx, hsev, hpres, hlist]⟩
  case log =>
    intro c l reply ht hlen hn hn'
    refine next_checked ht rfl (beq_iff_eq.2 hlen) rfl (firstBad_nil ?_) ?_ rfl (Nat.le_refl _) rfl
    · simp
      omega
    · simp [c, reply, l]
  case flog =>
    intro c reply ht hlen hep hage hn hn'
    refine next_checked ht rfl (beq_iff_eq.2 hlen) (right0_ep hep) (firstBad_nil ?_) ?_ rfl (Nat.le_refl _) rfl
    · simp
      omega
    · simp [c, reply]
  case wdog =>
    intro c ht hlen hep hmin hmax
    refine next_checked ht rfl (beq_iff_eq.2 hlen) (right0_ep hep) (firstBad_nil ?_) rfl rfl (Nat.le_refl 0) (by simp [c])
    simp
    omega

end Sys2Proof.Machine

/-! PROOF. The host port commands (Table 18.11) and the lane commands (Table 18.12). -/

namespace Sys2Proof.Machine
open State

section
variable (s : State) (c : RawCmd)

@[simp] theorem macsNamed_taken (f : Nat → Bool) : (s.taken c).macsNamed f = s.macsNamed f := frame_taken (State.macsNamed · f) (fun _ _ _ => rfl) s c
@[simp] theorem macExists_taken (m : Nat) : (s.taken c).macExists m = s.macExists m := frame_taken (State.macExists · m) (fun _ _ _ => rfl) s c
@[simp] theorem testBarred_taken (l : Nat) : (s.taken c).testBarred l = s.testBarred l := frame_taken (State.testBarred · l) (fun _ _ _ => rfl) s c
@[simp] theorem inTest_taken (i : Nat) : (s.taken c).inTest i = s.inTest i := frame_taken (State.inTest · i) (fun _ _ _ => rfl) s c

end

theorem length_ctrBytes (ctr : Ctrs) (n : Nat) : (ctrBytes ctr n).length = 8 * n := by
  rw [ctrBytes, length_flatMap_const _ fun _ _ => length_leBytes .., List.length_range]

/-- Settles O33: each host port command passes its checks. -/
theorem hostPortCommandsApply : Obligations.HostPortCommandsApply := by
  refine ⟨fun hd p s => ?mode, fun hd p s => ?port, fun hd p s => ?status, fun hd p s => ?stats, fun hd p s => ?sleepSet, fun hd p s => ?sleep,
    fun hd p s => ?wake⟩
  case mode =>
    intro c g gone ht hheld hlen hg hown hmode hph hmacs hlags
    refine next_checked ht rfl (beq_iff_eq.2 hlen) (ownsPort_owner (by simpa using hown)) (firstBad_nil ?_) (if_neg ?_)
      (by simpa [lacksDomain] using hheld) (Nat.le_refl 0) (by simp [c])
    · simp
      omega
    · simp only [port_taken, lags_taken, macsNamed_taken, List.any_eq_true]
      rintro (h | h | ⟨l, hl, m, hm, hgone⟩)
      · exact h hph
      · exact absurd (hmacs.symm.trans h) (by decide)
      · exact absurd ((hlags l hl m hm).symm.trans hgone) (by decide)
  case port =>
    intro c m x ht hheld hlen hown hen hfc hmax hmax' hquanta hhold hz hexists
    refine next_checked ht rfl (beq_iff_eq.2 hlen) (ownsMac_owner (by simpa using hown)) (firstBad_none ?_ hz) ((if_neg ?_).trans ?_)
      (by simpa [lacksDomain] using hheld) (Nat.le_refl 0) ?_
    · simp
      omega
    · simpa using hexists
    · simp only [mac_taken]
      rfl
    · simp [c]
  case status =>
    intro c g ht hheld hlen hg hown
    refine next_checked ht rfl (beq_iff_eq.2 hlen) (ownsPort_owner (by simpa using hown)) (firstBad_nil ?_) ?_
      (by simpa [lacksDomain] using hheld) (Nat.le_refl 4) rfl
    · simp
      omega
    · simp only [port_taken, mac_taken, g, c]
      cases (s.port (u8 p 0)).ph <;> rfl
  case stats =>
    intro c m ht hheld hlen hown
    refine next_checked ht rfl (beq_iff_eq.2 hlen) (ownsMac_owner (by simpa using hown)) rfl ?_
      (by simpa [lacksDomain] using hheld) ?_ (by simp [c])
    · simp only [mac_taken]
      rfl
    · rw [List.length_append, length_leBytes]
      exact (congrArg (· + 8) (length_ctrBytes _ 45)).le
  case sleepSet =>
    intro c g ht hheld hlen hg hown hwake hmin hmax
    refine next_checked ht rfl (beq_iff_eq.2 hlen) (ownsPort_owner (by simpa using hown)) (firstBad_nil ?_) rfl
      (by simpa [lacksDomain] using hheld) (Nat.le_refl 0) (by simp [c])
    simp
    omega
  case sleep =>
    intro c g ht hheld hlen hg hown hph hmacs
    refine next_checked ht rfl (beq_iff_eq.2 hlen) (ownsPort_owner (by simpa using hown)) (firstBad_nil ?_) ((if_neg ?_).trans rfl)
      (by simpa [lacksDomain] using hheld) (Nat.le_refl 0) ?_
    · simp
      omega
    · simp only [port_taken, macsNamed_taken]
      rintro (h | h)
      · exact h hph
      · exact absurd (hmacs.symm.trans h) (by decide)
    · simp [c]
  case wake =>
    intro c g ht hheld hlen hg hown
    refine next_checked ht rfl (beq_iff_eq.2 hlen) (ownsPort_owner (by simpa using hown)) (firstBad_nil ?_) ?_
      (by simpa [lacksDomain] using hheld) (Nat.le_refl 0) ?_
    · simp
      omega
    · simp only [port_taken]
      cases (s.port (u8 p 0)).ph <;> rfl
    · split <;> simp [c]

/-- The patterns 0 to 8 and none. -/
theorem patternBad_listed {p : List Byte} {i : Nat} (h : u8 p i ≤ 8 ∨ u8 p i = 255) : patternBad (p.getD i 0) = false := by
  unfold patternBad
  rcases h with h | h
  · rw [decide_eq_false (Nat.not_lt.2 (show (p.getD i 0).toNat ≤ 8 from h)), Bool.and_false]
  · rw [BitVec.eq_of_toNat_eq (show (p.getD i 0).toNat = (0xFF : Byte).toNat from h)]
    rfl

/-- Settles O34: each lane command passes its checks. -/
theorem laneCommandsApply : Obligations.LaneCommandsApply := by
  refine ⟨fun hd p s => ?tx, fun hd p s => ?rx, fun hd p s => ?test, fun hd p s => ?inject, fun hd p s => ?eye, fun hd p s => ?status,
    fun hd p s => ?stats⟩
  case tx =>
    intro c l taps chan ht hheld hlen hl hown hform hz htaps hchan
    refine next_checked ht rfl (beq_iff_eq.2 hlen) (ownsLane_owner (by simpa using hown)) (firstBad_none ?_ hz) ?_
      (by simpa [lacksDomain] using hheld) (Nat.le_refl 0) ?_
    · simp only [List.mem_append, List.mem_cons, List.not_mem_nil, or_false]
      rintro f (((rfl | rfl) | hf) | hf)
      · simpa using Nat.le_of_lt_succ hl
      · cases hc : bitAt p 2 1
        · simpa using hform
        · simpa [lineLane] using ⟨hform, (hchan hc).1⟩
      · unfold tapsBad at hf
        split at hf
        case isTrue h =>
          obtain ⟨hsum, hmain⟩ := htaps h
          simp at hf
          obtain rfl | rfl := hf <;> simp <;> omega
        case isFalse => exact absurd hf List.not_mem_nil
      · unfold txFieldsBad at hf
        split at hf
        case isTrue h =>
          obtain ⟨-, hperm, hinv, hlead, hlead'⟩ := hchan h
          simp at hf
          obtain rfl | rfl | rfl := hf
          · simpa using hperm
          · simpa using hinv
          · simp
            omega
        case isFalse => exact absurd hf List.not_mem_nil
    · simp only [lineLane, decide_eq_true_eq]
      rfl
    · split <;> split <;> simp [c]
  case rx =>
    intro c l ht hheld hlen hl hown hfrz hz hdeb hdeb'
    refine next_checked ht rfl (beq_iff_eq.2 hlen) (ownsLane_owner (by simpa using hown)) (firstBad_none ?_ hz) rfl
      (by simpa [lacksDomain] using hheld) (Nat.le_refl 0) (by simp [c])
    simp
    omega
  case test =>
    intro c l ht hheld hlen hl hown hmode hgen hchk hinv hbar
    refine next_checked ht rfl (beq_iff_eq.2 hlen) (ownsLane_owner (by simpa using hown)) (firstBad_nil ?_) ((if_neg ?_).trans ?_)
      (by simpa [lacksDomain] using hheld) (Nat.le_refl 0) ?_
    · rw [patternBad_listed hgen, patternBad_listed hchk]
      simp
      omega
    · simpa using hbar
    · simp only [lineLane, decide_eq_true_eq, inTest_taken]
      by_cases h : u16 p 0 < 256 <;> simp [h, c, l]
    · simp [c]
  case inject =>
    intro c l form ht hheld hlen hl hown hform hone htwo htest
    refine next_checked ht rfl (beq_iff_eq.2 hlen) (ownsLane_owner (by simpa using hown)) (firstBad_nil ?_) ((if_neg ?_).trans ?_)
      (by simpa [lacksDomain] using hheld) (Nat.le_refl 0) ?_
    · simp
      omega
    · simpa using htest
    · simp only [form]
      match u8 p 2 with
      | 0 => rfl
      | 1 => rfl
      | _ + 2 => rfl
    · simp only [form]
      split <;> simp [c]
  case eye =>
    intro c l ht hheld hlen hl hown hkind hscale hscale' hx hx' hx'' hstep hy hy' hstep' hz hscan
    refine next_checked_pending ht rfl (beq_iff_eq.2 hlen) (ownsLane_owner (by simpa using hown)) (firstBad_none ?_ hz) ((if_neg ?_).trans rfl)
      (by simpa [lacksDomain] using hheld) (by simp [c])
    · simp
      omega
    · simp [hscan, l]
  case status =>
    intro c l x y ht hheld hlen hl hown
    refine next_checked ht rfl (beq_iff_eq.2 hlen) (ownsLane_owner (by simpa using hown)) (firstBad_nil ?_) ?_
      (by simpa [lacksDomain] using hheld) ?_ rfl
    · simp
      omega
    · simp only [lineLane, lane_taken, chan_taken]
      by_cases h : u16 p 0 < 256 <;> simp [h, c, l, x, y]
    · split <;> simp
  case stats =>
    intro c l ht hheld hlen hl hown hclear
    refine next_checked ht rfl (beq_iff_eq.2 hlen) (ownsLane_owner (by simpa using hown)) (firstBad_nil ?_) ?_
      (by simpa [lacksDomain] using hheld) (length_ctrBytes _ 12).le ?_
    · simp
      omega
    · simp only [lane_taken]
      rfl
    · split <;> simp [c]

end Sys2Proof.Machine

/-! PROOF. The time output, PTP and gate commands (Table 18.9). -/

namespace Sys2Proof.Machine
open State

@[simp] theorem presented_taken (s : State) (c : RawCmd) : (s.taken c).presented = s.presented := frame_taken State.presented (fun _ _ _ => rfl) s c

/-- Driving a pin leaves the triggers, the clock and the presented time. -/
@[simp] theorem trig_setPin (s : State) (i st j : Nat) : (s.setPin i st).trig j = s.trig j := by
  unfold State.setPin
  split <;> rfl

@[simp] theorem now_setPin (s : State) (i st : Nat) : (s.setPin i st).now = s.now := by
  unfold State.setPin
  split <;> rfl

@[simp] theorem presented_setPin (s : State) (i st : Nat) : (s.setPin i st).presented = s.presented := by
  unfold State.setPin
  split <;> rfl

theorem updTrig_setPin (s : State) (i j st : Nat) (f : TrigSt → TrigSt) : (s.setPin j st).updTrig i f = (s.updTrig i f).setPin j st := by
  unfold State.setPin
  rw [pin_updTrig]
  split <;> rfl

@[simp] theorem presented_updTrig (s : State) (i : Nat) (f : TrigSt → TrigSt) : (s.updTrig i f).presented = s.presented := rfl

/-- Settles O26: each command passes its checks. -/
theorem timeOutputAndGateCommandsApply : Obligations.TimeOutputAndGateCommandsApply := by
  refine ⟨fun hd p s => ?pps, fun hd p s => ?tod, fun hd p s => ?trig, fun hd p s => ?conv, fun hd p s => ?capt, fun hd p s => ?port,
    fun hd p s => ?source, fun hd p s => ?ring, fun hd p s => ?gate, fun hd p s => ?gateGet⟩
  case pps =>
    intro c ht hlen hep hen hpol hsq hw hw' hz
    refine next_checked ht rfl (beq_iff_eq.2 hlen) (right0_ep hep) (firstBad_none ?_ hz) rfl rfl (Nat.le_refl 0) (by simp [c])
    simp
    omega
  case tod =>
    intro c ht hlen hep hen hrate hleap hz
    refine next_checked ht rfl (beq_iff_eq.2 hlen) (right0_ep hep) (firstBad_none ?_ hz) rfl rfl (Nat.le_refl 0) (by simp [c])
    simp
    omega
  case trig =>
    intro c i mode per w ht hlen hi hown hmode hpol hchan hns hper
    have hne : u8 p 1 ≠ 2 := by omega
    refine next_checked ht rfl (beq_iff_eq.2 hlen) ?_ (firstBad_nil ?_) (congrArg (done · []) ?_) rfl (Nat.le_refl 0) (by simp [c])
    · rw [ownsTrig_owner (by simpa using hown), if_neg hne]
      rfl
    · simp [hne, timeBad]
      rcases (show u8 p 1 = 0 ∨ u8 p 1 = 1 by omega) with h | h <;> simp [h, mode] at hper ⊢ <;> omega
    · refine (updTrig_congr _ _ _ (fun x => x.resume true
        (s.presented + psT (match (s.trig i).pulse with | some (fin, _) => fin - s.now | none => 0))) ?_).trans ?_
      · refine (if_neg (by simpa [trigFrom] using hne)).trans ?_
        simp [trigFrom, i] <;> rfl
      simp [trigFrom, c, hchan, i, mode, per, w] <;> rfl
  case conv =>
    intro c i per w n ht hlen hi hown hmode howns hpol hchan hns hper
    refine next_checked ht rfl (beq_iff_eq.2 hlen) ?_ (firstBad_nil ?_) (congrArg (done · []) ?_) rfl (Nat.le_refl 0) (by simp [c])
    · rw [ownsTrig_owner (by simpa using hown), if_pos hmode, ownsChan_owner (by simpa using howns)]
      rfl
    · simp only [n, per] at hper
      generalize hk : (65536000000 + u64 p 16 / 2) / u64 p 16 = k at hper ⊢
      generalize hprod : u64 p 16 * k = q at hper ⊢
      simp [hmode, timeBad]
      omega
    · refine (updTrig_congr _ _ _ (fun x => x) ?_).trans ?_
      · exact if_pos (by simpa [trigFrom] using hmode)
      rw [updTrig_setPin, updTrig_updTrig]
      simp [trigFrom, c, hmode, i, per, w]
  case capt =>
    intro c i ht hlen hi hown hen hedge
    refine next_checked ht rfl (beq_iff_eq.2 hlen) (ownsCapt_owner (by simpa using hown)) (firstBad_nil ?_) rfl rfl (Nat.le_refl 0) (by simp [c])
    simp
    omega
  case port =>
    intro c m ht hlen hown hmode htx htx' hrx hrx' hz hsrc
    refine next_checked ht rfl (beq_iff_eq.2 hlen) (ownsMac_owner (by simpa using hown)) (firstBad_none ?_ hz) ((if_neg ?_).trans rfl) rfl
      (Nat.le_refl 0) (by simp [c])
    · simp [adjBad]
      omega
    · rintro ⟨hne, hany⟩
      simp only [time_taken, List.any_eq_true, Bool.and_eq_true, beq_iff_eq] at hany
      obtain ⟨y, hy, hen, hmac⟩ := hany
      exact (hsrc.resolve_left hne) y hy hen hmac
  case source =>
    intro c i ht hlen hep hi hen hsync hsync' hann hann' hudp hz hsrc
    refine next_checked ht rfl (beq_iff_eq.2 hlen) (right0_ep hep) (firstBad_none ?_ hz) ((if_neg ?_).trans rfl) rfl (Nat.le_refl 0)
      (by simp [c])
    · simp
      omega
    · rintro ⟨hone, hne⟩
      rw [mac_taken] at hne
      rcases hsrc with h | h
      · omega
      · exact hne h
  case ring =>
    intro c ht hlen hbase hlog hvec hz
    refine next_checked ht rfl (beq_iff_eq.2 hlen) rfl (firstBad_none ?_ hz) rfl rfl (Nat.le_refl 0) (cmdView_updEp _ _ _ fun _ => rfl)
    simp
    omega
  case gate =>
    intro c m n ht hn hlen hown hns hcycle hentries hz
    refine next_checked ht rfl (beq_iff_eq.2 hlen) (ownsMac_owner (by simpa using hown)) (firstBad_none ?_ hz) ?_ rfl
      (Nat.le_refl 0) (by simp [c])
    · simp only [List.mem_append, List.mem_map, List.mem_range, List.mem_cons, List.not_mem_nil, or_false]
      rintro f ((rfl | rfl | rfl) | ⟨i, hi, rfl⟩)
      · exact decide_eq_false hn.not_gt
      · exact decide_eq_false hns.not_gt
      · exact decide_eq_false hcycle.not_gt
      · exact decide_eq_false (hentries i hi).not_gt
    · simp only [presented_taken]
      rfl
  case gateGet =>
    intro c m x run reply ht hlen hown
    refine next_checked ht rfl (beq_iff_eq.2 hlen) (ownsMac_owner (by simpa using hown)) rfl ?_ rfl (Nat.le_refl _) rfl
    simp only [mac_taken] <;> rfl

end Sys2Proof.Machine

/-! PROOF. The time domain and presented time commands (Table 18.9). -/

namespace Sys2Proof.Machine
open State

section
variable (s : State) (c : RawCmd)

@[simp] theorem pstate_taken : (s.taken c).pstate = s.pstate := frame_taken State.pstate (fun _ _ _ => rfl) s c
@[simp] theorem domStateByte_taken (d : Nat) : domStateByte (s.taken c) d = domStateByte s d := frame_taken (domStateByte · d) (fun _ _ _ => rfl) s c

/-- Taking a command leaves the time stamp ring's count of lost records. -/
@[simp] theorem ts_taken (k : Nat) : ((s.taken c).ep k).ts = (s.ep k).ts := by
  by_cases h : k = c.hdr.ep
  · simp [taken, writeIndex, h]
  · simp [taken, writeIndex, h]

end

theorem u8_le (p : List Byte) (i : Nat) : u8 p i ≤ 255 := Nat.le_of_lt_succ (p.getD i 0).isLt

theorem timeStatsRight_zero {k i : Nat} {s : State} (hk : k = 0) : timeStatsRight k 0 i s = none := by rw [hk]; rfl

theorem length_timeBytes (t : TimeVal) : (timeBytes t).length = 12 := by simp [timeBytes]

/-- Settles O25: each command passes its checks. -/
theorem timeDomainAndPresentedTimeCommandsApply : Obligations.TimeDomainAndPresentedTimeCommandsApply := by
  refine ⟨fun hd p s => ?bind, fun hd p s => ?domain, fun hd p s => ?select, fun hd p s => ?resolve, fun hd p s => ?set, fun hd s => ?get,
    fun hd p s => ?stats0, fun hd p s => ?stats1, fun hd p s => ?stats2, fun hd p s => ?stats3, fun hd p s => ?stats4⟩
  case bind =>
    intro c d i ht hlen hep hd' hi
    refine next_checked ht rfl (beq_iff_eq.2 hlen) (right0_ep hep) (firstBad_nil ?_) ?_ rfl (Nat.le_refl 0) ?_
    · simp only [List.mem_cons, List.not_mem_nil, or_false]
      rintro f (rfl | rfl)
      · exact decide_eq_false hd'.not_gt
      · rcases hi with h | ⟨h, hfree⟩
        · simp [show u8 p 1 = 255 from h]
        · simp only [dom_taken, Bool.or_eq_false_iff, Bool.and_eq_false_iff, decide_eq_false_iff_not, beq_eq_false_iff_ne]
          exact ⟨Or.inl (by omega), Or.inr hfree⟩
    · simp only [dom_taken, State.dropLarge]
      cases hl : (s.dom (u8 p 0)).large <;> simp [hl, c, d, i]
    · cases hl : (s.dom d).large <;> simp [hl, c]
  case domain =>
    intro c d ht hlen hep hd' hbw hbw' hlk hlk' hun hun' han han' hst hst' hz
    refine next_checked ht rfl (beq_iff_eq.2 hlen) (right0_ep hep) (firstBad_none ?_ hz) rfl rfl (Nat.le_refl 0) (by simp [c])
    simp
    omega
  case select =>
    intro c ht hlen hep hmode hpref hrev hslew hslew' hstep hstep'
    refine next_checked ht rfl (beq_iff_eq.2 hlen) (right0_ep hep) (firstBad_nil ?_) rfl rfl (Nat.le_refl 0) (by simp [c])
    simp
    omega
  case resolve =>
    intro c ht hlen hep hkeep hwait
    refine next_checked ht rfl (beq_iff_eq.2 hlen) (right0_ep hep) (firstBad_nil ?_) ((if_neg (by simpa using hwait)).trans ?_) rfl
      (Nat.le_refl 0) ?_
    · simp
      omega
    · rw [presented_taken]
      exact (apply_ite (done · []) _ _ _).symm
    · split <;> simp [c]
  case set =>
    intro c ht hlen hep hns h0 h1
    refine next_checked ht rfl (beq_iff_eq.2 hlen) (right0_ep hep) (firstBad_nil ?_) ((if_neg (by simpa using ⟨h0, h1⟩)).trans ?_) rfl
      (Nat.le_refl 0) (by simp [c])
    · simpa [timeBad] using hns
    · rw [presented_taken, dom_taken, time_taken, now_taken]
  case get =>
    intro c err ht
    refine next_checked ht rfl rfl rfl rfl (by simp [c, err]) rfl ?_ rfl
    simp [length_timeBytes, err]
  case stats0 =>
    intro c i ht hlen hep hkind hi hclear
    refine next_checked ht rfl (beq_iff_eq.2 hlen) (by rw [hkind]; exact timeStatsRight_zero (congrArg Fin.val hep)) (firstBad_nil ?_) ?_ rfl
      (length_ctrBytes _ 12).le ?_
    · simp [hkind]
      omega
    · rw [hkind]
      simp [c, i, ctrBytes]
    · split <;> simp [c]
  case stats1 =>
    intro c i ht hlen hkind hi hown hclear
    refine next_checked ht rfl (beq_iff_eq.2 hlen) (by rw [hkind]; exact ownsTrig_owner (by simpa using hown)) (firstBad_nil ?_) ?_ rfl
      (by simp) ?_
    · simp [hkind]
      omega
    · rw [hkind]
      simp [c, i]
    · split <;> simp [c]
  case stats2 =>
    intro c i ht hlen hkind hi hown hclear
    refine next_checked ht rfl (beq_iff_eq.2 hlen) (by rw [hkind]; exact ownsCapt_owner (by simpa using hown)) (firstBad_nil ?_) ?_ rfl
      (by simp) ?_
    · simp [hkind]
      omega
    · rw [hkind]
      simp [c, i]
    · split <;> simp [c]
  case stats3 =>
    intro c k ht hlen hkind hk hclear
    refine next_checked ht rfl (beq_iff_eq.2 hlen) (by rw [hkind, hk]; simp [timeStatsRight, k]) (firstBad_nil ?_) ?_ rfl (by simp) ?_
    · have hlt := hd.ep.isLt
      simp [hkind, hk, k]
      omega
    · rw [hkind, hk]
      simp [c, k]
    · split <;> simp [c]
  case stats4 =>
    intro c i ht hlen hkind hown hclear
    refine next_checked ht rfl (beq_iff_eq.2 hlen) (by rw [hkind]; exact ownsMac_owner (by simpa using hown)) (firstBad_nil ?_) ?_ rfl
      (by simp) ?_
    · have := u8_le p 1
      simp [hkind]
      omega
    · rw [hkind]
      simp [c, i]
    · split <;> simp [c]

end Sys2Proof.Machine

/-! PROOF. The tributary and ODC commands (Table 18.10). -/

namespace Sys2Proof.Machine
open State

section
variable (s : State) (c : RawCmd)

@[simp] theorem members_taken (i a : Nat) : (s.taken c).members i a = s.members i a := frame_taken (State.members · i a) (fun _ _ _ => rfl) s c
@[simp] theorem quota_taken (k i : Nat) : (s.taken c).quota k i = s.quota k i := frame_taken (State.quota · k i) (fun _ _ _ => rfl) s c
@[simp] theorem connBars_taken (pg : Bool) (e : BitVec 64) : (s.taken c).connBars pg e = s.connBars pg e :=
  frame_taken (State.connBars · pg e) (fun _ _ _ => rfl) s c
@[simp] theorem firstInconsistent_taken (i : Nat) (pg : Bool) : (s.taken c).firstInconsistent i pg = s.firstInconsistent i pg :=
  frame_taken (State.firstInconsistent · i pg) (fun _ _ _ => rfl) s c

end

theorem leVal_lt : ∀ bs : List Byte, leVal bs < 256 ^ bs.length
  | [] => Nat.one_pos
  | b :: bs => by
    have hb := b.isLt
    have hbs := leVal_lt bs
    rw [leVal, List.length_cons, Nat.pow_succ]
    omega

theorem u16_lt (p : List Byte) (i : Nat) : u16 p i < 65536 := by
  have hlen : (slice p i 2).length ≤ 2 := by simp [slice]
  exact (leVal_lt (slice p i 2)).trans_le (Nat.pow_le_pow_right (n := 256) (by decide) hlen)

/-- No right in a list is wanting when none of its rights is. -/
theorem firstOf_none {l : List (Option Nat)} (h : ∀ x ∈ l, x = none) : firstOf l = none := by
  induction l with
  | nil => rfl
  | cons x l ih =>
    obtain rfl := h x List.mem_cons_self
    exact ih fun y hy => h y (List.mem_cons_of_mem _ hy)

theorem length_ctrSpan (t : Ctrs) (lo n : Nat) : (ctrSpan t lo n).length = 8 * n := by
  rw [ctrSpan, length_flatMap_const _ fun _ _ => length_leBytes .., List.length_range]

/-- Counters from the first on are cleared by keeping those behind them. -/
theorem ctrClear_zero (t : Ctrs) (n : Nat) : ctrClear t 0 n = t.filter fun e => decide (n ≤ e.1) := by
  refine List.filter_congr fun e _ => ?_
  rw [Bool.eq_iff_iff]
  simp

theorem ctrClear_span (t : Ctrs) (lo n m : Nat) (h : lo + n = m) :
    ctrClear t lo n = t.filter fun e => decide (e.1 < lo ∨ m ≤ e.1) := by
  refine List.filter_congr fun e _ => ?_
  rw [h, Bool.eq_iff_iff]
  simp

/-- Settles O29: each command passes its checks. -/
theorem tributaryCommandsApply : Obligations.TributaryCommandsApply := by
  refine ⟨fun hd p s => ?alloc, fun hd p s => ?stream, fun hd p s => ?conn, fun hd p s => ?arm, fun hd p s => ?disarm, fun hd p s => ?connGet,
    fun hd p s => ?statsChan, fun hd p s => ?statsStream, fun hd p s => ?port, fun hd p s => ?odcStats⟩
  case alloc =>
    intro c i a b ht hheld hlen hi hown ha ha' hkind hslots hclash hmem
    have hno : ((s.chan i).trib.binds.any fun o => o.1 != a && b.clash o.2) = false := by
      simp only [List.any_eq_false, Bool.and_eq_true, bne_iff_ne, ne_eq, not_and, Bool.not_eq_true]
      exact hclash
    refine next_checked ht rfl (beq_iff_eq.2 hlen) (ownsChan_owner (by simpa using hown)) (firstBad_nil ?_) ((if_neg (by simp [hmem, i, a])).trans rfl)
      (by simpa [lacksDomain] using hheld) (Nat.le_refl 0) (by simp [c])
    rw [chan_taken, show ((s.chan (u8 p 0)).trib.binds.any fun o => o.1 != u8 p 1 && (bindAt p).clash o.2) = false from hno]
    simp
    omega
  case stream =>
    intro c i x y ht hheld hlen hi hen hup hchan hps hps' hsl hsl' hcls het hform hz hmac hown hsame
    have hy : streamFrom p (s.stream (u16 p 0)) = y := rfl
    refine next_checked ht rfl (beq_iff_eq.2 hlen) (firstOf_none ?_) (firstBad_none ?_ hz) ((if_neg ?_).trans ?_)
      (by simpa [lacksDomain] using hheld) (Nat.le_refl 0) (by simp [c])
    · simp only [stream_taken, hy, List.mem_append, List.mem_cons, List.not_mem_nil, or_false]
      rintro o ((rfl | rfl) | ho)
      · exact ownsMac_owner (by simpa using hmac)
      · exact ownsChan_owner (by simpa using hown)
      · split at ho
        case isTrue h =>
          obtain ⟨hm, hc, -⟩ := hsame.resolve_left (by rw [show x.en = true from h]; decide)
          simp only [List.mem_cons, List.not_mem_nil, or_false] at ho
          rcases ho with rfl | rfl
          · exact ownsMac_owner (by simpa using hm)
          · exact ownsChan_owner (by simpa using hc)
        case isFalse => exact absurd ho List.not_mem_nil
    · have := u16_lt p 10
      simp [streamFrom]
      omega
    · rintro ⟨hx, hne⟩
      obtain ⟨-, -, h⟩ := hsame.resolve_left (by rw [show x.en = true by simpa using hx]; decide)
      rw [stream_taken, hy] at hne
      simp only [Bool.not_eq_true', decide_eq_false_iff_not] at hne
      exact hne h
    · rw [stream_taken, hy]
  case conn =>
    intro c k pg first n es ht hheld hn hn' hlen hpg hz hrsv hquota hright hbars
    refine next_checked ht rfl (beq_iff_eq.2 hlen) (firstOf_none ?_) (firstBad_none ?_ hz) ((if_neg ?_).trans ((if_neg ?_).trans ?_))
      (by simpa [lacksDomain] using hheld) (Nat.le_refl 0) ?_
    · simp only [List.mem_flatMap, List.mem_filter]
      rintro o ⟨e, ⟨he, hv⟩, ho⟩
      obtain ⟨hc, hm⟩ := hright e he hv
      simp only [List.mem_cons, List.not_mem_nil, or_false] at ho
      rcases ho with rfl | rfl
      · exact ownsChan_owner (by simpa using hc)
      · rw [stream_taken]
        split
        case isTrue h => exact ownsMac_owner (by simpa using hm h)
        case isFalse => rfl
    · intro f hf
      rcases List.mem_append.1 hf with h | h
      · simp only [List.mem_cons, List.not_mem_nil, or_false] at h
        rcases h with rfl | rfl
        · exact decide_eq_false hpg.not_gt
        · simp
          omega
      · exact hrsv f h
    · rw [quota_taken]
      exact hquota.not_gt
    · simp only [List.any_eq_true, Bool.or_eq_true, connBars_taken, trib_taken]
      rintro ⟨e, he, h⟩
      obtain ⟨hnew, hold⟩ := hbars e he
      rcases h with h | h
      · exact absurd (hnew.symm.trans h) (by decide)
      · exact absurd (hold.symm.trans h) (by decide)
    · rw [trib_taken]
    · exact cmdView_tribPower _
  case arm =>
    intro c i ht hheld hlen hi hown hcons
    refine next_checked ht rfl (beq_iff_eq.2 hlen) (ownsChan_owner (by simpa using hown)) (firstBad_nil ?_) ?_
      (by simpa [lacksDomain] using hheld) (Nat.le_refl 0) ?_
    · simp
      omega
    · rw [chan_taken, firstInconsistent_taken, show s.firstInconsistent (u8 p 0) (!(s.chan (u8 p 0)).trib.page) = none from hcons]
    · split <;> simp [c]
  case disarm =>
    intro c i ht hheld hlen hi hown
    refine next_checked ht rfl (beq_iff_eq.2 hlen) (ownsChan_owner (by simpa using hown)) (firstBad_nil ?_) rfl
      (by simpa [lacksDomain] using hheld) (Nat.le_refl 0) (by simp [c])
    simp
    omega
  case connGet =>
    intro c k first n reply ht hheld hlen hpg hz hn hn' hquota
    refine next_checked ht rfl (beq_iff_eq.2 hlen) (inQuota_lt ?_) (firstBad_none ?_ hz) ?_ (by simpa [lacksDomain] using hheld)
      (Nat.le_refl _) rfl
    · rw [quota_taken]
      exact (show first + n - 1 < first + n by omega).trans_le hquota
    · simp
      omega
    · simp [c, reply, k, first, n]
  case statsChan =>
    intro c i ht hheld hlen hkind hz hi hown hclear
    have hk : (u8 p 0 == 1) = false := by rw [hkind]; rfl
    refine next_checked ht rfl (beq_iff_eq.2 hlen) ((if_neg (by simp [hk])).trans (ownsChan_owner (by simpa using hown))) (firstBad_none ?_ hz)
      ((if_neg (by simp [hk])).trans ?_) (by simpa [lacksDomain] using hheld) (length_ctrSpan _ 0 11).le ?_
    · simp [hkind]
      omega
    · simp [ctrClear_zero, c, i, ctrSpan]
    · split <;> simp [c]
  case statsStream =>
    intro c i ht hheld hlen hkind hz hi hown hclear
    have hk : (u8 p 0 == 1) = true := by rw [hkind]; rfl
    refine next_checked ht rfl (beq_iff_eq.2 hlen)
      ((if_pos hk).trans ((if_pos hi).trans (ownsMac_owner (by simpa using hown)))) (firstBad_none ?_ hz)
      ((if_pos hk).trans ?_) (by simpa [lacksDomain] using hheld) (length_ctrBytes _ 7).le ?_
    · simp [hkind]
      omega
    · simp [c, i, ctrBytes]
    · split <;> simp [c]
  case port =>
    intro c i t ht hheld hlen hep hi hen
    refine next_checked ht rfl (beq_iff_eq.2 hlen) (right0_ep hep) (firstBad_nil ?_) rfl (by simpa [lacksDomain] using hheld)
      (Nat.le_refl 0) (by simp [c, t])
    simp
    omega
  case odcStats =>
    intro c i ht hheld hlen hi hown hclear
    refine next_checked ht rfl (beq_iff_eq.2 hlen) (ownsChan_owner (by simpa using hown)) (firstBad_nil ?_) ?_
      (by simpa [lacksDomain] using hheld) (length_ctrSpan _ 11 3).le ?_
    · simp
      omega
    · simp [ctrClear_span _ 11 3 14, c, i, ctrSpan]
    · split <;> simp [c]

end Sys2Proof.Machine

/-! PROOF. Rules: staged, committed and drained (R217, R226 to R230), and the reorder time-out (R243). -/

namespace Sys2Proof.Machine
open State

section
variable (s : State) (c : RawCmd)

@[simp] theorem cl_taken (k : Nat) : (s.taken c).cl k = s.cl k := frame_taken (State.cl · k) (fun _ _ _ => rfl) s c
@[simp] theorem ruleRight_taken (k : Nat) (r : Rule) : ruleRight (s.taken c) k r = ruleRight s k r := frame_taken (ruleRight · k r) (fun _ _ _ => rfl) s c
@[simp] theorem ruleBad_taken (k : Nat) (p : List Byte) (i : Nat) (r : Rule) : ruleBad (s.taken c) k p i r = ruleBad s k p i r :=
  frame_taken (ruleBad · k p i r) (fun _ _ _ => rfl) s c
@[simp] theorem roomFor_taken (k : Nat) (r : Rule) : (s.taken c).roomFor k r = s.roomFor k r := frame_taken (State.roomFor · k r) (fun _ _ _ => rfl) s c
@[simp] theorem roomFor_unstaged_taken (k h : Nat) (r : Rule) : ((s.taken c).unstaged k h).roomFor k r = (s.unstaged k h).roomFor k r :=
  frame_taken (fun t => (State.unstaged t k h).roomFor k r) (fun _ _ _ => rfl) s c
@[simp] theorem handleKnown_taken (k h : Nat) : (s.taken c).handleKnown k h = s.handleKnown k h :=
  frame_taken (State.handleKnown · k h) (fun _ _ _ => rfl) s c
@[simp] theorem newestRule_taken (k h : Nat) : (s.taken c).newestRule k h = s.newestRule k h :=
  frame_taken (State.newestRule · k h) (fun _ _ _ => rfl) s c

end

/-- An edit of the classifier touches no command. -/
theorem cmdView_applyEdits (k v : Nat) (l : List Edit) (s : State) : (l.foldl (applyEdit k v) s).cmdView = s.cmdView :=
  cmdView_foldl (fun t e => by cases e <;> rfl) l s

/-! ### What an edit does to the entries -/

/-- The entries of partition k's handle h that are live die in version v. -/
def dies (k h v : Nat) (x : Rule) : Rule := if x.part = k ∧ x.handle = h ∧ x.died = 0 then { x with died := v } else x

theorem rules_applyEdit_add (k v : Nat) (s : State) (r : Rule) : (applyEdit k v s (.add r)).rules = s.rules ++ [{ r with born := v }] := rfl

theorem rules_applyEdit_del (k v : Nat) (s : State) (h : Nat) : (applyEdit k v s (.del h)).rules = s.rules.map (dies k h v) := rfl

theorem rules_applyEdit_mod (k v : Nat) (s : State) (r : Rule) :
    (applyEdit k v s (.mod r)).rules = s.rules.map (dies k r.handle v) ++ [{ r with born := v }] := rfl

theorem dies_of_live {k h v : Nat} {x : Rule} (hp : x.part = k) (hh : x.handle = h) (hd : x.died = 0) : dies k h v x = { x with died := v } :=
  if_pos ⟨hp, hh, hd⟩

theorem dies_of_other {k h v : Nat} {x : Rule} (hx : x.part ≠ k ∨ x.handle ≠ h ∨ x.died ≠ 0) : dies k h v x = x := by
  refine if_neg ?_
  rintro ⟨hp, hh, hd⟩
  rcases hx with h' | h' | h'
  · exact h' hp
  · exact h' hh
  · exact h' hd

/-- After it, no entry of that handle is live. -/
theorem dies_not_live {k h v : Nat} (hv : 0 < v) (x : Rule) (hp : (dies k h v x).part = k) (hh : (dies k h v x).handle = h) :
    (dies k h v x).died ≠ 0 := by
  unfold dies at *
  split at hp
  case isTrue h' =>
    rw [if_pos h']
    exact hv.ne'
  case isFalse h' =>
    rw [if_neg h'] at hh ⊢
    exact fun hd => h' ⟨hp, hh, hd⟩

/-- Settles O17: each command passes its checks, each event is its own case. -/
theorem rulesAreStagedCommittedAndDrained : Obligations.RulesAreStagedCommittedAndDrained := by
  refine ⟨fun hd p s => ?add, fun hd p s => ?mod, fun hd p s => ?del, fun hd p s r => ?get, fun hd s => ?commit, fun hd s => ?busy,
    fun hd s => ?abort, fun k v s r h => ?edit, fun g s nx d => ?timeout, fun g s => ?none, fun k s => ?undrained, fun k s => ?drained⟩
  case add =>
    intro c k h r ht hup hlen hright hbad hroom
    refine next_checked ht rfl (beq_iff_eq.2 hlen) ?_ ?_ ((if_neg ?_).trans ?_) (by simp [lacksDomain, hup]) (length_leBytes ..).le (by simp [c])
    · rw [ruleRight_taken, cl_taken]
      exact hright
    · rw [ruleBad_taken, cl_taken]
      exact hbad
    · rw [roomFor_taken, cl_taken, show s.roomFor _ _ = true from hroom]
      decide
    · rw [cl_taken]
      rfl
  case mod =>
    intro c k h r ht hup hlen hknown hright hbad hroom
    refine next_checked ht rfl (beq_iff_eq.2 hlen) ?_ ?_ ((if_neg ?_).trans ?_) (by simp [lacksDomain, hup]) (Nat.le_refl 0) (by simp [c])
    · rw [ruleRight_taken, cl_taken]
      exact hright
    · rw [handleKnown_taken, ruleBad_taken, cl_taken]
      exact (if_pos hknown).trans hbad
    · rw [roomFor_unstaged_taken, cl_taken, show (s.unstaged _ _).roomFor _ _ = true from hroom]
      decide
    · rw [cl_taken]
      rfl
  case del =>
    intro c k ht hup hlen hknown
    exact next_checked ht rfl (beq_iff_eq.2 hlen) rfl (if_pos (by simpa using hknown)) rfl (by simp [lacksDomain, hup]) (Nat.le_refl 0)
      (by simp [c])
  case get =>
    intro c reply ht hup hlen hr
    refine next_checked ht (congrArg some ?_) (beq_iff_eq.2 hlen) rfl rfl (k := done (s.taken c) reply) rfl (by simp [lacksDomain, hup])
      (Nat.le_refl _) rfl
    unfold applyRuleGet
    rw [newestRule_taken, hr]
  case commit =>
    intro c k x ht hup hdrain
    by_cases hst : x.staged = []
    · rw [if_pos hst]
      refine next_checked ht rfl rfl rfl rfl ((if_pos ?_).trans ?_) (by simp [lacksDomain, hup]) (length_leBytes ..).le rfl
      · rw [cl_taken, List.isEmpty_iff]
        exact hst
      · rw [cl_taken]
    · rw [if_neg hst]
      refine next_checked ht rfl rfl rfl rfl ((if_neg ?_).trans ((if_neg ?_).trans ?_)) (by simp [lacksDomain, hup]) (length_leBytes ..).le ?_
      · rw [cl_taken, List.isEmpty_iff]
        exact hst
      · rw [cl_taken, not_not]
        exact hdrain.resolve_left hst
      · simp only [cl_taken]
        rfl
      · exact cmdView_applyEdits _ _ _ _
  case busy =>
    intro c ht hup hst hdrain
    refine congrArg Host.Outcome.next (hostPost_fail (code := stBusy) (detail := 0) ht (show (0x0405 : BitVec 16) ≠ 1 by decide)
      (show (0x0405 : BitVec 16) ≠ 2 by decide) ?_ (by decide)
      (Or.inl (by simp [lacksDomain, hup])))
    refine congrArg some ((checked_ok _ _ rfl rfl rfl).trans ((if_neg ?_).trans ((if_pos ?_).trans rfl)))
    · rw [cl_taken, List.isEmpty_iff]
      exact hst
    · rw [cl_taken]
      exact hdrain
  case abort =>
    intro c ht hup
    exact next_checked ht rfl rfl rfl rfl rfl (by simp [lacksDomain, hup]) (Nat.le_refl 0) (by simp [c])
  case edit =>
    refine ⟨rules_applyEdit_add k v s r, ?_, ?_, ?_, ?_⟩
    · intro x hx hp hh hd
      rw [rules_applyEdit_del, ← dies_of_live hp hh hd]
      exact List.mem_map_of_mem hx
    · intro x hx hother
      rw [rules_applyEdit_del]
      exact List.mem_map.2 ⟨x, hx, dies_of_other hother⟩
    · intro hv x hx hp hh hd
      rw [rules_applyEdit_mod] at hx
      rcases List.mem_append.1 hx with h' | h'
      · obtain ⟨y, -, rfl⟩ := List.mem_map.1 h'
        exact absurd hd (dies_not_live hv y hp hh)
      · exact List.mem_singleton.1 h'
    · intro _ _ _
      rw [rules_applyEdit_mod]
      exact List.mem_append_right _ (List.mem_singleton_self _)
  case timeout =>
    intro hnext hmin
    refine congrArg Host.Outcome.next ?_
    unfold doReorderTimeout forceNext
    simp only [hnext, hmin]
  case none =>
    intro h
    refine congrArg Host.Outcome.next ?_
    unfold doReorderTimeout forceNext
    rcases h with h | h
    · simp only [h]
    · cases (s.bond g).next <;> simp [h]
  case undrained =>
    intro h
    exact congrArg Host.Outcome.next (if_pos h)
  case drained =>
    intro h
    exact congrArg Host.Outcome.next (if_neg h)

end Sys2Proof.Machine

/-! PROOF. Key profiles, sources and counters of the classifier; bond and LAG groups (Tables 18.5 and 18.6). -/

namespace Sys2Proof.Machine
open State

section
variable (s : State) (c : RawCmd)

@[simp] theorem srcOwner_taken (src : Nat) : (s.taken c).srcOwner src = s.srcOwner src := frame_taken (State.srcOwner · src) (fun _ _ _ => rfl) s c
@[simp] theorem stagedSource_taken (k i : Nat) : (s.taken c).stagedSource k i = s.stagedSource k i :=
  frame_taken (State.stagedSource · k i) (fun _ _ _ => rfl) s c
@[simp] theorem stagedProfile_taken (k i : Nat) : (s.taken c).stagedProfile k i = s.stagedProfile k i :=
  frame_taken (State.stagedProfile · k i) (fun _ _ _ => rfl) s c
@[simp] theorem actionRight_taken (k : Nat) (a : ActionSet) : actionRight (s.taken c) k a = actionRight s k a :=
  frame_taken (actionRight · k a) (fun _ _ _ => rfl) s c
@[simp] theorem ownsLag_taken (k g : Nat) : (s.taken c).ownsLag k g = s.ownsLag k g := frame_taken (State.ownsLag · k g) (fun _ _ _ => rfl) s c

end

/-- The members of a group are named in range and once, and the bytes behind them are zero (Tables 18.6). -/
theorem memberBad_inRange {p : List Byte} {off n lim : Nat} (hnodup : ((List.range n).map fun i => u8 p (off + i)).Nodup)
    (hlim : ∀ i < n, u8 p (off + i) < lim) (hz : ∀ j < 64 - n, p.getD (off + n + j) 0 = 0) :
    ∀ f ∈ memberBad p off n lim, f.1 = false := by
  intro f hf
  obtain ⟨i, hi, rfl⟩ := List.mem_map.1 hf
  have hi : i < 64 := List.mem_range.1 hi
  dsimp only
  split
  case isTrue hin =>
    rw [Bool.or_eq_false_iff, List.any_eq_false]
    refine ⟨decide_eq_false (hlim i hin).not_ge, fun j hj hsame => ?_⟩
    have hj : j < i := List.mem_range.1 hj
    have := List.inj_on_of_nodup_map hnodup (List.mem_range.2 (hj.trans hin)) (List.mem_range.2 hin) (eq_of_beq hsame)
    omega
  case isFalse hout =>
    have hzero : p.getD (off + i) 0 = 0 := by
      rw [show off + i = off + n + (i - n) by omega]
      exact hz (i - n) (by omega)
    rw [show u8 p (off + i) = 0 from congrArg BitVec.toNat hzero]
    rfl

/-- The entries written to an indirection table are in range (R245). -/
theorem tableBad_inRange {p : List Byte} {lim n : Nat} (hg : u8 p 0 < lim) (hz : ZeroAt p [(1, 1)]) (hsum : u16 p 2 + u16 p 4 ≤ 4096)
    (hent : ∀ i < u16 p 4, u8 p (6 + i) < n) : tableBad p lim n = none := by
  refine firstBad_none ?_ hz
  simp only [List.mem_append, List.mem_map, List.mem_range, List.mem_cons, List.not_mem_nil, or_false]
  rintro f ((rfl | rfl) | ⟨i, hi, rfl⟩)
  · exact decide_eq_false hg.not_ge
  · exact decide_eq_false hsum.not_gt
  · simp [hent i hi]

/-- The six sources of slice i (Table 6.1). -/
theorem sources_of_slice (i : Nat) :
    (List.range 4).map (4 * i + ·) ++ (List.range 2).map (64 + 2 * i + ·)
      = [4 * i, 4 * i + 1, 4 * i + 2, 4 * i + 3, 64 + 2 * i, 65 + 2 * i] := by
  simp [List.range_succ]
  omega

/-- A profile byte of CL.SOURCE.SET: none, or a profile of the partition's quota and of the right kind (Table 18.5). -/
structure ProfByte (s : State) (k : Nat) (p : List Byte) (j : Nat) (tern : Bool) : Prop where
  ok : u8 p j = 255 ∨ (u8 p j < 64 ∧ u8 p j < s.quota k 7 ∧ (s.stagedProfile k (u8 p j)).all (fun q => q.ternary == tern) = true)

theorem ProfByte.right {s : State} {k : Nat} {p : List Byte} {j : Nat} {tern : Bool} (h : ProfByte s k p j tern) :
    (if u8 p j = 255 then none else own (decide (64 ≤ u8 p j) || decide (u8 p j < s.quota k 7)) (u8 p j)) = none := by
  rcases h.ok with h | ⟨-, hq, -⟩
  · exact if_pos h
  · simp [hq]

theorem ProfByte.inRange {s : State} {k : Nat} {p : List Byte} {j : Nat} {tern : Bool} (h : ProfByte s k p j tern) :
    (u8 p j != 255 && (decide (63 < u8 p j) ||
      (match s.stagedProfile k (u8 p j) with | some q => q.ternary != tern | none => false))) = false := by
  rcases h.ok with h | ⟨h64, -, hk⟩
  · simp [h]
  · rw [decide_eq_false (Nat.not_lt.2 (Nat.le_of_lt_succ h64))]
    cases ho : s.stagedProfile k (u8 p j) with
    | none => simp
    | some q =>
      rw [ho] at hk
      simp only [Option.all_some, beq_iff_eq] at hk
      simp [hk]

/-- Settles O18: each command passes its checks. -/
theorem classifierSettersAndGroupsApply : Obligations.ClassifierSettersAndGroupsApply := by
  refine ⟨fun hd p s => ?profile, fun hd p s => ?source, fun hd p s => ?counter, fun hd p s => ?stats, fun hd p s => ?bond,
    fun hd p s => ?bondTable, fun hd p s => ?bondStats, fun hd p s => ?lag, fun hd p s => ?lagTable⟩
  case profile =>
    intro c k i tern n fields ht hup hlen hi hq hform hn hn' hz hfields hwide hnamed
    refine next_checked ht rfl (beq_iff_eq.2 hlen) ?_ (firstBad_none ?_ hz) rfl (by simp [lacksDomain, hup]) (Nat.le_refl 0) (by simp [c])
    · rw [quota_taken]
      exact if_pos (by simpa using Or.inr hq)
    · simp only [List.mem_append, List.mem_map, List.mem_range, List.mem_cons, List.not_mem_nil, or_false]
      rintro f ((rfl | rfl | rfl | rfl) | ⟨j, hj, rfl⟩)
      · exact decide_eq_false (by omega)
      · rw [Bool.or_eq_false_iff]
        refine ⟨decide_eq_false (by omega), List.any_eq_false.2 fun src hsrc => ?_⟩
        rw [srcOwner_taken, stagedSource_taken]
        by_cases hown : s.srcOwner src = k
        · have h := hnamed src (List.mem_range.1 hsrc) hown
          simp only [tern] at h
          rw [hown]
          split <;> rename_i ht <;> simp only [ht, if_true, Bool.false_eq_true, if_false] at h <;> simpa [i] using fun _ => h
        · simp [show ¬ s.srcOwner src = ↑hd.ep from hown]
      · simp
        omega
      · exact decide_eq_false hwide.not_gt
      · exact decide_eq_false (hfields _ (List.mem_map.2 ⟨j, List.mem_range.2 (by omega), rfl⟩)).not_gt
  case source =>
    intro c k src prof ht hup hlen hsrc hown hport hz hprof hact hactBad
    have h1 : ProfByte s k p 1 false := ⟨hprof 1 (by decide)⟩
    have h2 : ProfByte s k p 2 true := ⟨hprof 2 (by decide)⟩
    have h3 : ProfByte s k p 3 false := ⟨hprof 3 (by decide)⟩
    have h4 : ProfByte s k p 4 true := ⟨hprof 4 (by decide)⟩
    refine next_checked ht rfl (beq_iff_eq.2 hlen) (firstOf_none ?_) (firstBad_none ?_ hz) rfl (by simp [lacksDomain, hup]) (Nat.le_refl 0)
      (by simp [c])
    · simp only [List.mem_cons, List.not_mem_nil, or_false, quota_taken, srcOwner_taken, actionRight_taken]
      rintro o (rfl | rfl | rfl | rfl | rfl | rfl)
      · exact if_pos (by simpa using Or.inr hown)
      · exact h1.right
      · exact h2.right
      · exact h3.right
      · exact h4.right
      · exact hact
    · simp only [List.mem_append, List.mem_cons, List.not_mem_nil, or_false, stagedProfile_taken]
      rintro f ((rfl | rfl | rfl | rfl | rfl | rfl) | hf)
      · exact decide_eq_false (by omega)
      · exact h1.inRange
      · exact h2.inRange
      · exact h3.inRange
      · exact h4.inRange
      · simp
        omega
      · exact hactBad f hf
  case counter =>
    intro c i v ht hup hlen hq hclear
    refine next_checked ht rfl (beq_iff_eq.2 hlen) (inQuota_lt (by simpa using hq)) (firstBad_nil ?_) ?_ (by simp [lacksDomain, hup])
      (by simp) ?_
    · simp
      omega
    · simp only [counters_taken]
      rfl
    · split <;> rfl
  case stats =>
    intro c i x ht hup hlen hi hclear
    refine next_checked ht rfl (beq_iff_eq.2 hlen) (if_neg ?_) (firstBad_nil ?_) ?_ (by simp [lacksDomain, hup]) ?_ ?_
    · rintro ⟨hodd, hep⟩
      rcases hclear with h | ⟨-, h⟩
      · omega
      · exact hep (by rw [h]; rfl)
    · simp
      omega
    · rw [slice_taken, sources_of_slice, ctrBytes]
    · rw [List.length_append, length_flatMap_const _ fun _ _ => length_leBytes .., length_flatMap_const (n := 16) _ fun _ _ => by simp]
      simp
    · split <;> simp [c]
  case bond =>
    intro c g n mem ht hup hlen hg hown hn hn' hnodup hmem hz hfields hhash
    have hmin : min (u8 p 1) 64 = u8 p 1 := Nat.min_eq_left hn'
    have hin : ∀ i < u8 p 1, u8 p (64 + i) ∈ mem := fun i hi => List.mem_map.2 ⟨i, List.mem_range.2 hi, rfl⟩
    refine next_checked ht rfl (beq_iff_eq.2 hlen) (firstOf_none ?_) (firstBad_none ?_ fun r hr => hz r (List.mem_cons_of_mem _ hr))
      ((if_neg ?_).trans ?_) (by simp [lacksDomain, hup]) (Nat.le_refl 0) (by simp [c])
    · rw [hmin]
      simp only [List.mem_cons, List.mem_map, List.mem_range]
      rintro o (rfl | ⟨_, ⟨i, hi, rfl⟩, rfl⟩)
      · exact ownsBond_owner (by simpa using hown)
      · exact ownsChan_owner (by simpa using (hmem _ (hin i hi)).2.1)
    · intro f hf
      rcases List.mem_append.1 hf with h | h
      · simp only [List.mem_cons, List.not_mem_nil, or_false] at h
        rcases h with rfl | rfl | rfl | rfl | rfl
        · exact decide_eq_false (by omega)
        · simp
          omega
        · by_cases h0 : n = 0
          · simp [show u8 p 1 = 0 from h0]
          · have := hfields h0
            simp
            omega
        · by_cases h0 : n = 0
          · simp [show u8 p 1 = 0 from h0]
          · have := hfields h0
            simp
            omega
        · exact decide_eq_false (by omega)
      · exact memberBad_inRange hnodup (fun i hi => (hmem _ (hin i hi)).1) (hz _ List.mem_cons_self) f h
    · rw [hmin]
      simp only [List.any_eq_true, Bool.and_eq_true, bonds_taken, bne_iff_ne, List.contains_iff_mem]
      rintro ⟨m, hm, b, hb, hne, hmb⟩
      exact (hmem m hm).2.2 b hb hne hmb
    · rw [hmin]
  case bondTable =>
    intro c g n ht hup hlen hg hown hn hz hsum hent
    refine next_checked ht rfl (beq_iff_eq.2 hlen) (ownsBond_owner (by simpa using hown)) ?_ ((if_neg ?_).trans rfl)
      (by simp [lacksDomain, hup]) (Nat.le_refl 0) (by simp [c])
    · rw [bond_taken]
      exact tableBad_inRange hg hz hsum hent
    · rw [bond_taken]
      exact hn.not_ge
  case bondStats =>
    intro c g ht hup hlen hg hown hclear
    refine next_checked ht rfl (beq_iff_eq.2 hlen) (ownsBond_owner (by simpa using hown)) (firstBad_nil ?_) ?_
      (by simp [lacksDomain, hup]) (length_ctrBytes _ 11).le ?_
    · simp
      omega
    · simp only [bond_taken]
      rfl
    · split <;> simp [c]
  case lag =>
    intro c g n mem ht hup hlen hg hown hn hn' hnodup hmem hz hhash
    have hmin : min (u8 p 1) 64 = u8 p 1 := Nat.min_eq_left hn'
    have hin : ∀ i < u8 p 1, u8 p (12 + i) ∈ mem := fun i hi => List.mem_map.2 ⟨i, List.mem_range.2 hi, rfl⟩
    refine next_checked ht rfl (beq_iff_eq.2 hlen) (firstOf_none ?_) (firstBad_none ?_ fun r hr => hz r (List.mem_cons_of_mem _ hr))
      ((if_neg ?_).trans ?_) (by simp [lacksDomain, hup]) (Nat.le_refl 0) (by simp [c])
    · rw [hmin]
      simp only [List.mem_cons, List.mem_map, List.mem_range]
      rintro o (rfl | ⟨_, ⟨i, hi, rfl⟩, rfl⟩)
      · refine if_pos ?_
        rw [lag_taken]
        rcases hown with h | h
        · simp [show (s.lag (u8 p 0)).members = [] from h]
        · simp [show (s.lag (u8 p 0)).owner = hd.ep from h]
      · exact ownsMac_owner (by simpa using (hmem _ (hin i hi)).1)
    · intro f hf
      rcases List.mem_append.1 hf with h | h
      · simp only [List.mem_cons, List.not_mem_nil, or_false] at h
        rcases h with rfl | rfl | rfl
        · exact decide_eq_false (by omega)
        · simp
          omega
        · exact decide_eq_false (by omega)
      · exact memberBad_inRange hnodup (fun i _ => Nat.lt_succ_of_le (u8_le p _)) (hz _ List.mem_cons_self) f h
    · rw [hmin]
      simp only [List.any_eq_true, Bool.or_eq_true, Bool.and_eq_true, lags_taken, macExists_taken, bne_iff_ne, List.contains_iff_mem]
      rintro ⟨m, hm, hgone | ⟨b, hb, hne, hmb⟩⟩
      · rw [(hmem m hm).2.1] at hgone
        exact absurd hgone (by decide)
      · exact (hmem m hm).2.2 b hb hne hmb
    · rw [hmin]
  case lagTable =>
    intro c g n ht hup hlen hg hown hn hz hsum hent
    refine next_checked ht rfl (beq_iff_eq.2 hlen) ?_ ?_ ((if_neg ?_).trans rfl)
      (by simp [lacksDomain, hup]) (Nat.le_refl 0) (by simp [c])
    · refine if_pos ?_
      rw [lag_taken]
      simp [show (s.lag (u8 p 0)).owner = hd.ep from hown]
    · rw [lag_taken]
      exact tableBad_inRange hg hz hsum hent
    · rw [lag_taken]
      exact hn

end Sys2Proof.Machine

/-! PROOF. Keys requested and switched (R288 to R293), and the key commands (Table 18.8). -/

namespace Sys2Proof.Machine
open State

namespace State

/-! ### What counting and recording a message leaves -/

theorem chan_heard (s : State) (c : Nat) (h : TcmHdr) (m : DownTcm) :
    ((s.heard c h m).chan c).keys = (s.chan c).keys ∧ ((s.heard c h m).chan c).cfg = (s.chan c).cfg := by
  unfold heard
  dsimp only
  split <;> simp [bump, updTc]

@[simp] theorem keys_heard (s : State) (c : Nat) (h : TcmHdr) (m : DownTcm) : ((s.heard c h m).chan c).keys = (s.chan c).keys :=
  (chan_heard s c h m).1

@[simp] theorem cfg_heard (s : State) (c : Nat) (h : TcmHdr) (m : DownTcm) : ((s.heard c h m).chan c).cfg = (s.chan c).cfg :=
  (chan_heard s c h m).2

@[simp] theorem gorse_heard (s : State) (c : Nat) (h : TcmHdr) (m : DownTcm) : (s.heard c h m).gorse = s.gorse := by
  unfold heard
  dsimp only
  split <;> rfl

@[simp] theorem draws_heard (s : State) (c : Nat) (h : TcmHdr) (m : DownTcm) : (s.heard c h m).draws = s.draws := by
  unfold heard
  dsimp only
  split <;> rfl

@[simp] theorem keyReqCheck_heard (s : State) (c : Nat) (h : TcmHdr) (m : DownTcm) (b : KeyReqBody) :
    (s.heard c h m).keyReqCheck c b = s.keyReqCheck c b := by
  unfold keyReqCheck kekReady
  simp

/-! ### Registers of a channel -/

theorem uni_setUni (k : ChanKeys) (kdir slot : Nat) (r : KeyReg) : (k.setUni kdir slot r).uni kdir slot = r := by
  unfold ChanKeys.setUni ChanKeys.uni
  split <;> split <;> rfl

/-- The registers do not see the wraps that wait. -/
theorem uni_jobs (k : ChanKeys) (l : List KeyJob) (kdir slot : Nat) : ({ k with jobs := l } : ChanKeys).uni kdir slot = k.uni kdir slot := rfl

/-- Reports, counters and the key-wrap engine leave the key registers alone. -/
@[simp] theorem keys_serveKeyJobs (s : State) (c : Nat) : (s.serveKeyJobs.chan c).keys = (s.chan c).keys := by
  unfold serveKeyJobs
  split
  · split
    · split <;> rfl
    · rfl
  · rfl

@[simp] theorem keys_queueTcm (s : State) (c i : Nat) (m : UpTcm) (r : Option (BitVec 48)) : ((s.queueTcm c m r).chan i).keys = (s.chan i).keys := by
  unfold queueTcm queueEntry
  dsimp only
  split
  · simp only [updTc, chan_updChan]
    split <;> simp_all
  · split
    · simp only [updTc, bump, chan_updChan]
      split <;> simp_all
    · simp only [updTc, bump, chan_updChan]
      split <;> simp_all

@[simp] theorem keys_clearChan (s : State) (c i code detail : Nat) : ((s.clearChan c code detail).chan i).keys = (s.chan i).keys := by
  unfold clearChan
  split
  · unfold alarmRpt
    split
    · rw [keys_queueTcm, chan_clearAlarm]
    · rw [chan_clearAlarm]
  · rfl

@[simp] theorem keys_suspectCheck (s : State) (c i : Nat) : ((s.suspectCheck c).chan i).keys = (s.chan i).keys := by
  unfold suspectCheck
  split
  · rfl
  · exact keys_clearChan ..

/-- A message that comes to a RESULT is answered with it. -/
theorem tcmRow_answered {s t : State} {c : Nat} {h : TcmHdr} {m : DownTcm} {n : BitVec 48} {r : Nat} (hh : s.Hears c h m n)
    (ha : (s.heard c h m).tcmApply c h m n = (some r, t)) (hm : ∀ b, m ≠ .assignId b := by simp) :
    s.tcmRow c h m = t.answered c h m n r := by
  rw [tcmRow_heard hh hm, ha]

/-- A message without a RESULT is applied only. -/
theorem tcmRow_applied {s t : State} {c : Nat} {h : TcmHdr} {m : DownTcm} {n : BitVec 48} (hh : s.Hears c h m n)
    (ha : (s.heard c h m).tcmApply c h m n = (none, t)) (hm : ∀ b, m ≠ .assignId b := by simp) : s.tcmRow c h m = t := by
  rw [tcmRow_heard hh hm, ha]

/-- A broadcast KEY.REQ that no condition of R288 stops has a count of fragments. -/
theorem fragCnt_of_check {s : State} {c : Nat} {b : KeyReqBody} (hcheck : s.keyReqCheck c b = none) (hdir : b.kdir = 2) :
    2 ≤ b.fragCnt.toNat := by
  unfold keyReqCheck at hcheck
  simp only [hdir] at hcheck
  by_contra hlt
  repeat' split at hcheck
  all_goals simp_all

/-- A unicast KEY.REQ that no condition of R288 stops is the unicast exchange. -/
theorem keyReqApply_unicast {s : State} {c : Nat} {b : KeyReqBody} (hcheck : s.keyReqCheck c b = none) (hdir : b.kdir.toNat < 2)
    (toTid : Bool) (seq : Byte) (n : BitVec 48) : s.keyReqApply c b toTid seq n = s.unicastReq c b seq n := by
  have hne : ¬ b.kdir = 2 := by
    intro h
    rw [h] at hdir
    exact absurd hdir (by decide)
  unfold keyReqApply
  rw [hcheck]
  exact if_neg hne

end State

theorem toNat_eq_two {b : Byte} : b.toNat = 2 ↔ b = 2 := ⟨fun h => BitVec.eq_of_toNat_eq h, fun h => by rw [h]; rfl⟩

theorem toNat_eq_one {b : Byte} : b.toNat = 1 ↔ b = 1 := ⟨fun h => BitVec.eq_of_toNat_eq h, fun h => by rw [h]; rfl⟩

theorem toNat_eq_three {b : Byte} : b.toNat = 3 ↔ b = 3 := ⟨fun h => BitVec.eq_of_toNat_eq h, fun h => by rw [h]; rfl⟩

/-- Settles O22: each message and each command is its own case. -/
theorem keysAreRequestedAndSwitched : Obligations.KeysAreRequestedAndSwitched := by
  refine ⟨fun hd p s => ?chan, fun hd p s => ?get, fun c h b s n r => ?stopped, fun c h b s n => ?fill, fun c h b s n => ?halted,
    fun c h b s n w => ?again, fun c h b s n => ?fragment, fun c h b s n => ?switch, fun c s => ?expiry, fun c s => ?noFrags⟩
  case chan =>
    intro c i ht hheld hlen hi hown hen
    refine next_checked ht rfl (beq_iff_eq.2 hlen) (ownsChan_owner (by simpa using hown)) (firstBad_nil ?_) rfl
      (by simpa [lacksDomain] using hheld) (Nat.le_refl 0) (by simp [c])
    simp
    omega
  case get =>
    intro c i x ht hheld hlen hi hown
    refine next_checked ht rfl (beq_iff_eq.2 hlen) (ownsChan_owner (by simpa using hown)) (firstBad_nil ?_) ?_
      (by simpa [lacksDomain] using hheld) ?_ rfl
    · simp
      omega
    · have hbytes : keyBytes = fun r => [BitVec.ofNat 8 r.ph.code, r.seq, bByte r.suspect, 0] := rfl
      simp [hbytes, c, x, i]
    · split <;> simp
  case stopped =>
    intro hh hr
    refine congrArg Host.Outcome.next (tcmRow_answered hh ?_)
    simp only [tcmApply, keyReqApply, hr]
  case fill =>
    intro reg hh hcheck hdir hempty hrun
    have hreq : ∃ t, (s.heard c h (.keyReq b)).unicastReq c b h.seq n = (.rpt, t)
        ∧ (t.chan c).keys.uni b.kdir.toNat b.kslot.toNat = { ph := .filled, key := Config.drbg s.draws, seq := b.keySeq } := by
      unfold unicastReq
      simp only [keys_heard, gorse_heard, hrun, Bool.not_true, Bool.false_eq_true, if_false]
      refine ⟨_, if_neg hempty, ?_⟩
      simp only [keys_serveKeyJobs, bump, chan_updChan, if_true, keys_suspectCheck, updKeys, draw, draws_heard]
      exact uni_setUni ..
    obtain ⟨t, ht, hreg⟩ := hreq
    have happ : (s.heard c h (.keyReq b)).tcmApply c h (.keyReq b) n = (none, t.updTc c fun x => { x with dups := x.dups.map fun d =>
        if d.type = 0x0A ∧ d.seq = h.seq then { d with keyRpt := some (b.kdir, b.kslot, b.keySeq) } else d }) := by
      simp only [tcmApply, keyReqApply_unicast ((keyReqCheck_heard ..).trans hcheck) hdir, ht]
    exact ⟨_, congrArg Host.Outcome.next (tcmRow_applied hh happ), by simpa [updTc] using hreg⟩
  case halted =>
    intro reg hh hcheck hdir hempty hrun
    refine congrArg Host.Outcome.next (tcmRow_answered hh ?_)
    simp only [tcmApply, keyReqApply_unicast ((keyReqCheck_heard ..).trans hcheck) hdir]
    unfold unicastReq
    simp only [keys_heard, gorse_heard, hrun, Bool.not_false, if_true]
    rw [if_neg hempty]
  case again =>
    intro reg hh hcheck hdir hfilled hseq hw
    refine congrArg Host.Outcome.next (tcmRow_applied hh ?_)
    simp only [tcmApply, keyReqApply_unicast ((keyReqCheck_heard ..).trans hcheck) hdir]
    unfold unicastReq
    simp only [keys_heard]
    rw [if_pos ⟨hfilled, hseq⟩, hw]
    simp [queueRpts]
  case fragment =>
    intro hh hcheck hdir hfrags hbc
    have hcnt : 2 ≤ b.fragCnt.toNat := fragCnt_of_check hcheck hdir
    refine congrArg Host.Outcome.next (tcmRow_answered hh ?_)
    have hmiss : ¬ ((!(h.tid != 0xFFFE)) = true ∧ ((s.chan c).keys.bc.ph = .empty ∨ (s.chan c).keys.bc.suspect = true)) := by
      rintro ⟨htid, hb⟩
      obtain ⟨hph, hsus⟩ := hbc (by simpa using htid)
      rcases hb with hb | hb
      · exact hph hb
      · rw [hsus] at hb
        exact absurd hb (by decide)
    simp only [tcmApply, keyReqApply, keyReqCheck_heard, hcheck, hdir, if_true, keys_heard]
    rw [if_neg hmiss]
    unfold broadcastReq
    simp only [keys_heard, hfrags, List.filter_nil, List.nil_append, List.length_singleton]
    rw [if_pos (by omega)]
  case switch =>
    intro r t named queued next hh
    have hr : (if b.kdir.toNat = 2 then (t.chan c).keys.pend else (t.chan c).keys.uni b.kdir.toNat b.kslot.toNat) = r := by
      simp only [t, keys_heard]
      exact if_congr toNat_eq_two rfl rfl
    refine congrArg Host.Outcome.next ?_
    have happ : (s.heard c h (.keySwitch b)).tcmApply c h (.keySwitch b) n
        = (some (t.keySwitchApply c b n).1, (t.keySwitchApply c b n).2) := rfl
    refine (tcmRow_answered hh happ).trans ?_
    unfold keySwitchApply
    simp only [hr]
    have hnamed : ((b.kdir.toNat < 2 ∧ (b.kslot.toNat = 1 ∨ b.kslot.toNat = 2)) ∨ (b.kdir.toNat = 2 ∧ b.kslot.toNat = 3)) ↔ named := by
      simp only [named, toNat_eq_two, toNat_eq_one, toNat_eq_three]
    simp only [hnamed]
    by_cases h1 : named
    · by_cases h2 : b.swSfc.toNat % 8 = 0
      · by_cases h3 : r.ph = .filled ∧ r.seq = b.keySeq
        · by_cases h4 : r.suspect = true
          · simp [h1, h2, h3, h4]
          · by_cases h5 : 255 < sfcDiff b.swSfc n
            · simp [h1, h2, h3, h4, h5]
            · by_cases h6 : 2 ≤ sfcDiff b.swSfc n
              · simp [h1, h2, h3, h4, h5, h6, Int.not_lt.2 h6, queued]
              · simp [h1, h2, h3, h4, h5, h6, Int.not_le.1 h6, queued, next]
        · have h3' : r.ph ≠ .filled ∨ r.seq ≠ b.keySeq := by tauto
          simp [h1, h2, h3, h3']
      · simp [h1, h2]
    · simp [h1]
  case expiry =>
    intro h
    exact congrArg Host.Outcome.next (if_pos (Option.isSome_iff_ne_none.2 h))
  case noFrags =>
    intro h
    exact congrArg Host.Outcome.next (if_neg (by simp [h]))

end Sys2Proof.Machine

/-! PROOF. What queues, buffers and power leave as it is when frames leave a queue, cells are freed, or a domain is asked for. -/

namespace Sys2Proof.Machine.State

/-- The state without what frames that come and go in the queues change: of the memory the stacks stay. -/
def apart (s : State) : State := { s.plant with queues := [], mem := { stackTab := s.mem.stackTab }, macs := [], pwr := {} }

theorem apart_of_plant {s t : State} (h : s.plant = t.plant) : s.apart = t.apart :=
  congrArg (fun p : State => ({ p with queues := [], mem := { stackTab := p.mem.stackTab }, macs := [], pwr := {} } : State)) h

@[simp] theorem apart_event (s : State) (code sev kind idx : Nat) (d : List Byte) (ps : List Nat) (r : Bool) :
    (s.event code sev kind idx d ps r).apart = s.apart := apart_of_plant (plant_event ..)

@[simp] theorem apart_updBank (s : State) (b : Nat) (f : BankSt → BankSt) : (s.updBank b f).apart = s.apart := rfl

@[simp] theorem apart_updMem (s : State) (f : MemSt → MemSt) (h : (f s.mem).stackTab = s.mem.stackTab) : (s.updMem f).apart = s.apart := by
  simp only [apart, plant, updMem, h]

@[simp] theorem apart_updMac (s : State) (m : Nat) (f : MacSt → MacSt) : (s.updMac m f).apart = s.apart := rfl

@[simp] theorem apart_updQueue (s : State) (q : Nat) (f : QueueSt → QueueSt) : (s.updQueue q f).apart = s.apart := rfl

@[simp] theorem apart_updPdom (s : State) (d : Nat) (f : PwrDom → PwrDom) : (s.updPdom d f).apart = s.apart := rfl

@[simp] theorem apart_updPwr (s : State) (f : PwrSt → PwrSt) : (s.updPwr f).apart = s.apart := rfl

theorem apart_foldl {α : Type} {f : State → α → State} (h : ∀ s a, (f s a).apart = s.apart) (l : List α) (s : State) :
    (l.foldl f s).apart = s.apart := view_foldl apart h l s

@[simp] theorem apart_bumpQ (s : State) (q : Nat) (k : QCtr) (n : Nat) : (s.bumpQ q k n).apart = s.apart := rfl

@[simp] theorem apart_bumpMem (s : State) (k : MemCtr) (n : Nat) : (s.bumpMem k n).apart = s.apart := rfl

@[simp] theorem apart_bumpMac (s : State) (m i n : Nat) : (s.bumpMac m i n).apart = s.apart := rfl

@[simp] theorem apart_grantWake (s : State) (cls d : Nat) : (s.grantWake cls d).apart = s.apart := by
  unfold grantWake
  rw [apart_updPwr]
  exact apart_foldl (f := fun s e => s.rampUp cls e) (fun _ _ => rfl) _ _

@[simp] theorem apart_queueWake (s : State) (cls d : Nat) : (s.queueWake cls d).apart = s.apart := by
  unfold queueWake
  split <;> rfl

@[simp] theorem apart_requestWake (s : State) (cls d : Nat) : (s.requestWake cls d).apart = s.apart := by
  unfold requestWake
  split
  · rfl
  · rfl
  · split
    · simp
    · split <;> simp
  · split
    · simp
    · split
      · split <;> simp
      · simp

@[simp] theorem apart_requestRelease (s : State) (d : Nat) : (s.requestRelease d).apart = s.apart := by
  unfold requestRelease
  split
  · split <;> rfl
  · rfl
  · split <;> rfl
  · split <;> rfl

@[simp] theorem apart_gateIfEmpty (s : State) (b : Nat) : (s.gateIfEmpty b).apart = s.apart := by
  unfold gateIfEmpty
  split
  · exact apart_requestRelease ..
  · rfl

@[simp] theorem apart_pressureTest (s : State) (q : Nat) : (s.pressureTest q).apart = s.apart := by
  unfold pressureTest
  dsimp only
  split <;> rfl

@[simp] theorem apart_cellsChanged (s : State) : s.cellsChanged.apart = s.apart := by
  unfold cellsChanged
  extract_lets s1
  have h1 : s1.apart = s.apart := by
    refine apart_foldl (fun t b => ?_) _ _
    split
    · simp
    · rfl
  clear_value s1
  split
  · exact (apart_foldl (f := fun (t : State) (p : Nat × QueueSt) => t.pressureTest p.1) (fun t p => apart_pressureTest ..) _ _).trans
      ((apart_event ..).trans h1)
  · split <;> exact h1

@[simp] theorem apart_freeFrame (s : State) (f : Frame) : (s.freeFrame f).apart = s.apart := by
  unfold freeFrame
  dsimp only
  rw [apart_cellsChanged]
  have hcells : (f.cells.foldl (fun s b => (s.updBank b fun x => { x with used := x.used - 1 }).gateIfEmpty b) s).apart = s.apart :=
    apart_foldl (fun t b => by simp) _ _
  split <;> exact hcells

@[simp] theorem apart_sendPause (s : State) (m prio time : Nat) : (s.sendPause m prio time).apart = s.apart := by
  unfold sendPause
  dsimp only
  split
  · rfl
  · split
    · rfl
    · split <;> rfl

@[simp] theorem apart_updatePoint (s : State) (m prio : Nat) : (s.updatePoint m prio).apart = s.apart := by
  unfold updatePoint
  dsimp only
  split
  · rfl
  · split
    · simp
    · split
      · split <;> simp
      · rfl

@[simp] theorem apart_queueChanged (s : State) (q : Nat) : (s.queueChanged q).apart = s.apart := by
  unfold queueChanged
  split <;> simp

/-- A reading of what stands apart from the queues, which counting frames leaves as it is, their leaving leaves as it is. -/
theorem view_removeFrames {β : Type} (view : State → β) (hv : ∀ s t : State, s.apart = t.apart → view s = view t) (s : State) (q : Nat)
    (sel : Frame → Bool) (count : State → Frame → State) (h : ∀ s f, view (count s f) = view s) :
    view (s.removeFrames q sel count) = view s := by
  unfold removeFrames
  dsimp only
  rw [hv _ _ (apart_queueChanged ..)]
  refine (view_foldl view (fun t f => ?_) _ _).trans (hv _ _ rfl)
  rw [h, hv _ _ (apart_freeFrame ..)]

@[simp] theorem apart_countDeq (q : Nat) (s : State) (f : Frame) : (countDeq q s f).apart = s.apart := rfl

@[simp] theorem apart_settleHeads (s : State) (q : Nat) : (s.settleHeads q).apart = s.apart := by
  unfold settleHeads
  dsimp only
  split
  · rfl
  · refine view_removeFrames apart (fun _ _ h => h) s q _ _ fun t f => ?_
    split <;> rfl

theorem view_takeOut {β : Type} (view : State → β) (hv : ∀ s t : State, s.apart = t.apart → view s = view t) (s : State) (q : Nat)
    (sel : Frame → Bool) (count : State → Frame → State) (h : ∀ s f, view (count s f) = view s) :
    view (s.takeOut q sel count) = view s := by
  unfold takeOut
  rw [hv _ _ (apart_settleHeads ..), view_removeFrames view hv s q sel count h]

theorem chans_of_apart {s t : State} (h : s.apart = t.apart) : s.chans = t.chans := congrArg (·.chans) h

theorem chans_countDeq (q : Nat) (s : State) (f : Frame) : (countDeq q s f).chans = s.chans := rfl

theorem chans_removeFrames {β : Type} (view : List (Nat × ChanSt) → β) (s : State) (q : Nat) (sel : Frame → Bool) (count : State → Frame → State)
    (h : ∀ s f, view (count s f).chans = view s.chans) : view (s.removeFrames q sel count).chans = view s.chans :=
  view_removeFrames (fun s => view s.chans) (fun _ _ h => congrArg view (chans_of_apart h)) s q sel count h

theorem chans_takeOut {β : Type} (view : List (Nat × ChanSt) → β) (s : State) (q : Nat) (sel : Frame → Bool) (count : State → Frame → State)
    (h : ∀ s f, view (count s f).chans = view s.chans) : view (s.takeOut q sel count).chans = view s.chans :=
  view_takeOut (fun s => view s.chans) (fun _ _ h => congrArg view (chans_of_apart h)) s q sel count h

end Sys2Proof.Machine.State

/-! PROOF. The key-wrap lock (R303 to R305) and erasure (R309). -/

namespace Sys2Proof.Machine
open State

namespace State

/-! ### The lock -/

@[simp] theorem kweReach_updKwe (s : State) (u : Nat) (f : KweSt → KweSt) : (s.updKwe f).kweReach u = s.kweReach u := rfl

@[simp] theorem gorse_kwe_updKwe (s : State) (f : KweSt → KweSt) : (s.updKwe f).gorse.kwe = f s.gorse.kwe := rfl

theorem updKwe_updKwe' (s : State) (f g : KweSt → KweSt) : (s.updKwe f).updKwe g = s.updKwe fun x => g (f x) := rfl

theorem updKwe_congr' (s : State) (f g : KweSt → KweSt) (h : f s.gorse.kwe = g s.gorse.kwe) : s.updKwe f = s.updKwe g := by
  simp only [updKwe, h]

theorem kweWriteClaim_unreached {s : State} {u : Nat} (h : s.kweReach u = false) (v : Nat) : s.kweWriteClaim u v = s := by
  unfold kweWriteClaim
  simp [h]

theorem kweLockRead_unreached {s : State} {u : Nat} (h : s.kweReach u = false) : s.kweLockRead u = s := by
  unfold kweLockRead
  simp [h]

/-! ### Erasure -/

theorem keys_takeOut {s : State} {q : Nat} {sel : Frame → Bool} {count : State → Frame → State}
    (h : ∀ s f, (count s f).chans = s.chans) (i : Nat) : ((s.takeOut q sel count).chan i).keys = (s.chan i).keys :=
  chans_takeOut (fun l => (Tab.get ({} : ChanSt) l i).keys) s q sel count fun s f => by rw [h]

@[simp] theorem keys_bump (s : State) (c i : Nat) (k : ChanCtr) (n : Nat) : ((s.bump c k n).chan i).keys = (s.chan i).keys := by
  simp only [bump, chan_updChan]
  split <;> simp_all

@[simp] theorem keys_updUs (s : State) (c i : Nat) (f : ChanUs → ChanUs) : ((s.updUs c f).chan i).keys = (s.chan i).keys := by
  simp only [updUs, chan_updChan]
  split <;> simp_all

@[simp] theorem keys_fillKeyed (s : State) (c i : Nat) : ((s.fillKeyed c).chan i).keys = (s.chan i).keys := by
  unfold fillKeyed
  refine view_foldl (fun t : State => (t.chan i).keys) (fun t b => ?_) _ _
  dsimp only
  rw [keys_updUs]
  refine view_foldl (fun t : State => (t.chan i).keys) (fun t g => ?_) _ _
  rw [keys_bump, keys_takeOut fun _ _ => chans_countDeq ..]

/-- Emptying the keys of channels one after the other empties them and leaves the others. -/
theorem keys_emptied (l : List (Nat × ChanSt)) (s : State) (i : Nat) :
    ((l.foldl (fun s p => (s.fillKeyed p.1).updKeys p.1 fun _ => {}) s).chan i).keys
      = if i ∈ l.map (·.1) then {} else (s.chan i).keys := by
  induction l generalizing s with
  | nil => rfl
  | cons p l ih =>
    rw [List.foldl_cons, ih]
    by_cases hl : i ∈ l.map (·.1)
    · simp [hl]
    · by_cases hp : i = p.1
      · simp [hp, updKeys]
      · simp [hl, hp, updKeys]

theorem keys_eraseKeys (s : State) (i : Nat) : (s.eraseKeys.chan i).keys = {} := by
  refine (keys_emptied s.chans s i).trans ?_
  split
  case isTrue => rfl
  case isFalse h =>
    have : s.chan i = {} := Tab.get_absent _ _ fun v hv => h (List.mem_map.2 ⟨_, hv, rfl⟩)
    rw [this]

/-- What the secrets of Gorse are: the keys of the partitions and the channels, and the root key. -/
abbrev secrets (s : State) := (s.gorse.ps, s.gorse.kek, s.gorse.drk)

@[simp] theorem gorse_queueTcm (s : State) (c : Nat) (m : UpTcm) (r : Option (BitVec 48)) : (s.queueTcm c m r).gorse = s.gorse := by
  unfold queueTcm queueEntry
  dsimp only
  split
  · rfl
  · split <;> rfl

@[simp] theorem gorse_suspectCheck (s : State) (c : Nat) : (s.suspectCheck c).gorse = s.gorse := by
  unfold suspectCheck clearChan alarmRpt
  split
  · rfl
  · split
    · split <;> simp
    · rfl

/-- The reset of Gorse's security domain keeps the channels and the secrets, and leaves no working key (R16, R305). -/
theorem securityReset_keeps (s : State) :
    s.securityReset.chans = s.chans ∧ s.securityReset.secrets = s.secrets ∧ s.securityReset.gorse.kwe.key = 0 := by
  have hfree : ∀ (t : State) (ds : List Nat), (t.freeDoms ds).chans = t.chans ∧ (t.freeDoms ds).gorse = t.gorse := by
    intro t ds
    unfold freeDoms
    dsimp only
    split
    · exact ⟨rfl, rfl⟩
    · exact ⟨view_foldl (fun u : State => u.chans) (fun _ _ => by rfl) _ _, view_foldl (fun u : State => u.gorse) (fun _ _ => by rfl) _ _⟩
  have hcut : ∀ t : State, t.kweCut.chans = t.chans ∧ t.kweCut.secrets = t.secrets := by
    intro t
    unfold kweCut kweVector
    dsimp only
    split
    · exact ⟨rfl, rfl⟩
    · split
      · split <;> exact ⟨rfl, rfl⟩
      · exact ⟨rfl, rfl⟩
  unfold securityReset
  dsimp only
  refine ⟨(hfree ..).1.trans (hcut _).1, ?_, ?_⟩
  · rw [secrets, (hfree ..).2]
    exact (hcut _).2
  · rw [(hfree ..).2]
    rfl

/-- An erasure before its reset: the keys gone, suspicions tested anew, the latch set and the alarm raised. -/
def erased (s : State) (src : Nat) : State :=
  let t := (List.range 64).foldl (fun s c => s.suspectCheck c) s.eraseKeys
  { t with gorse := { t.gorse with erasure := true } }.raiseAlarm alErase 3 0 0 (det1 src) allParts

theorem doErasure_eq (s : State) (src : Nat) : s.doErasure src = (s.erased src).securityReset := rfl

theorem keys_erased (s : State) (src c : Nat) : ((s.erased src).chan c).keys = {} := by
  unfold erased
  rw [chan_raiseAlarm]
  generalize List.range 64 = l
  exact (view_foldl (fun t : State => (t.chan c).keys) (fun t d => keys_suspectCheck t d c) _ _).trans (keys_eraseKeys s c)

theorem secrets_erased (s : State) (src : Nat) : (s.erased src).secrets = ([], [], false) := by
  unfold erased
  rw [secrets, gorse_raiseAlarm]
  generalize List.range 64 = l
  exact view_foldl (fun t : State => t.secrets) (fun t d => by rw [secrets, gorse_suspectCheck]) _ s.eraseKeys

end State

/-- Settles O23: the lock by its owner, the cut and the erasure by what they update. -/
theorem theKeyWrapLockAndErasure : Obligations.TheKeyWrapLockAndErasure := by
  refine ⟨fun u v s => ?claim, fun u v s => ?wrong, fun u s => ?release, fun u v s => ?unreached, fun u s => ?notOwner, fun s => ?cut,
    fun s => ?busy, fun src s => ?erasure⟩
  case claim =>
    intro hreach hv
    refine congrArg Host.Outcome.next ?_
    have hu := u.isLt
    have hne : ¬ (u : Nat) = 0xFE := by omega
    have hfree : ¬ (u : Nat) = 0xFF := by omega
    unfold kweWriteClaim kweLockRead
    simp only [hreach, hv, hne, Bool.not_true, Bool.false_eq_true, if_false, if_true, Bool.true_and]
    by_cases h1 : s.gorse.kwe.owner = 0xFF
    · simp [h1, hreach]
      rfl
    · by_cases h2 : s.gorse.kwe.owner = u
      · simp only [if_neg h1, h2, hreach, Bool.true_and, beq_self_eq_true, if_true, or_true, if_neg hfree]
        exact updKwe_congr' _ _ _ (by rw [← h2])
      · simp [h1, h2]
  case wrong =>
    intro hreach hv hrel hu
    refine congrArg Host.Outcome.next ?_
    have hv' : ¬ v.toNat = 0xFE := fun h => hrel (BitVec.eq_of_toNat_eq h)
    unfold kweWriteClaim kweLockRead
    simp only [hreach, hv, hv', hu, Bool.not_true, Bool.false_eq_true, if_false, if_true, kweReach_updKwe, Bool.true_and, gorse_kwe_updKwe,
      beq_iff_eq]
    split <;> rfl
  case release =>
    intro hreach hown
    refine congrArg Host.Outcome.next ?_
    unfold kweWriteClaim
    simp [hreach, hown]
  case unreached =>
    intro hreach
    exact ⟨congrArg Host.Outcome.next (by rw [kweWriteClaim_unreached hreach, kweLockRead_unreached hreach]),
      congrArg Host.Outcome.next (kweWriteClaim_unreached hreach _)⟩
  case notOwner =>
    intro hown
    refine congrArg Host.Outcome.next ?_
    unfold kweWriteClaim
    simp [hown]
  case cut =>
    intro hown hidle
    refine congrArg Host.Outcome.next ?_
    rw [hidle]
    unfold kweCut
    simp only [if_neg hown, hidle, Bool.false_eq_true, if_false]
    refine congrArg serveKeyJobs (updKwe_congr' _ _ _ ?_)
    simp [hidle]
  case busy =>
    intro hbusy
    exact congrArg Host.Outcome.next (if_pos hbusy)
  case erasure =>
    obtain ⟨hch, hsec, hkey⟩ := securityReset_keeps (s.erased src)
    rw [secrets_erased, Prod.mk.injEq, Prod.mk.injEq] at hsec
    obtain ⟨hps, hkek, hdrk⟩ := hsec
    refine ⟨(s.erased src).securityReset, rfl, fun c => ?_, ?_, ?_, ?_, hkey⟩
    · rw [chan, hch]
      exact congrArg ChanKeys.allEmpty (keys_erased s src c)
    · exact hps
    · exact hkek
    · exact hdrk

end Sys2Proof.Machine

/-! PROOF. Operations of the key-wrap engine (R306, R307, Table 8.8). -/

namespace Sys2Proof.Machine
open State

namespace State

/-- The engine with an operation begun. -/
abbrev kweBegun (s : State) (op : Nat) (handle : BitVec 12) (job : Nat × Nat × Nat) : State :=
  s.updKwe fun x => { x with op := BitVec.ofNat 4 op, handle, busy := true, job := some (op, job) }

/-- The engine with an operation refused because of its length. -/
abbrev kweRefused (s : State) (op : Nat) : State :=
  (s.updKwe fun x => { x with
    op := BitVec.ofNat 4 op, handle := 0, done := true, err := 2, job := none, din := [], outLen := 0, dout := [] }).kweVector

/-- GO of the lock's owner, in a user and with an error that the operation takes. -/
theorem kweGo_owner {s : State} {u : Fin 10} (h : s.OwnsKwe u) (op : Nat) (handle : BitVec 12) {users lens : Bool} {err : Nat}
    (job : Nat × Nat × Nat) (hu : users = true) (hl : lens = true) (he : err = 0) :
    s.kweGo u op handle users lens err job = s.kweBegun op handle job := by
  obtain ⟨hreach, hown, hidle⟩ := h
  unfold kweGo
  rw [if_neg (by simp [hreach, hown, hidle]), hu, hl, he]
  rfl

/-- A length that does not fit ends the operation at once. -/
theorem kweGo_length {s : State} {u : Fin 10} (h : s.OwnsKwe u) (op : Nat) {users lens : Bool} {err : Nat}
    (job : Nat × Nat × Nat) (hu : users = true) (hl : lens = false) : s.kweGo u op 0 users lens err job = s.kweRefused op := by
  obtain ⟨hreach, hown, hidle⟩ := h
  unfold kweGo
  rw [if_neg (by simp [hreach, hown, hidle]), hu, hl]
  exact congrArg kweVector ((updKwe_updKwe' ..).trans (updKwe_congr' s _ _ (by simp [hidle])))

/-- GO of any user with a length rule. -/
theorem kweGo_any {s : State} {u : Fin 10} (h : s.OwnsKwe u) (op : Nat) {lens : Bool} {fits : Prop} [Decidable fits] (hl : lens = true ↔ fits) :
    s.kweGo u op 0 true lens 0 (0, 0, 0) = if fits then s.kweBegun op 0 (0, 0, 0) else s.kweRefused op := by
  split
  case isTrue hf => exact kweGo_owner h op 0 _ rfl (hl.2 hf) rfl
  case isFalse hf => exact kweGo_length h op _ rfl (Bool.eq_false_iff.2 fun h' => hf (hl.1 h'))

theorem lenFits_iff {n lo hi m : Nat} : lenFits n lo hi m = true ↔ lo ≤ n ∧ n ≤ hi ∧ n % m = 0 := by
  simp [lenFits, and_assoc]

theorem not_ownsKwe_iff {s : State} {u : Fin 10} :
    ¬ s.OwnsKwe u ↔ (!s.kweReach u) = true ∨ s.gorse.kwe.owner ≠ u ∨ s.gorse.kwe.busy = true := by
  simp only [OwnsKwe, not_and_or, Bool.not_eq_true, Bool.not_eq_true', Bool.not_eq_false]

/-- GO of another user, while BUSY or out of reach does nothing. -/
theorem kweGo_other {s : State} {u : Fin 10} (h : ¬ s.OwnsKwe u) (op : Nat) (handle : BitVec 12) (users lens : Bool) (err : Nat)
    (job : Nat × Nat × Nat) : s.kweGo u op handle users lens err job = s := if_pos (not_ownsKwe_iff.1 h)

end State

/-- Settles O24: the beginning of each operation by `kweGo`'s cases, the end by the operation's own case. -/
theorem keyWrapOperationsRun : Obligations.KeyWrapOperationsRun := by
  unfold Obligations.KeyWrapOperationsRun
  intro begun refused ended failed input
  refine ⟨fun u s => ?any, fun u s => ?sealing, fun u s => ?loadPs, fun u handle s => ?loadKek, fun u s => ?clear, fun u c kdir slot s => ?line,
    fun u c b s => ?bcast, fun u c handle kdir slot b s => ?other, fun s j => ?end1, fun s j => ?end2, fun s j => ?end3, fun s j => ?end4,
    fun s j => ?end5, fun s j => ?end6, fun s j => ?end7, fun s c a b ps => ?end8, fun s => ?none⟩
  case any =>
    intro n h
    refine ⟨congrArg Host.Outcome.next (kweGo_any h 1 ?_), congrArg Host.Outcome.next (kweGo_any h 2 lenFits_iff),
      congrArg Host.Outcome.next (kweGo_any h 3 lenFits_iff), congrArg Host.Outcome.next (kweGo_any h 4 ?_),
      congrArg Host.Outcome.next (kweGo_any h 5 lenFits_iff)⟩
    · rw [lenFits_iff]
      omega
    · rw [lenFits_iff]
      omega
  case sealing =>
    intro h hu hn hdrk
    exact congrArg Host.Outcome.next (kweGo_owner h 6 0 _ (decide_eq_true hu) (by rw [hn]; rfl) (if_pos hdrk))
  case loadPs =>
    intro h hu hn hdrk
    exact congrArg Host.Outcome.next (kweGo_owner h 7 0 _ (decide_eq_true hu) (by rw [hn]; rfl) (if_pos hdrk))
  case loadKek =>
    intro c h hu hh hc hown hn hps
    refine congrArg Host.Outcome.next (kweGo_owner h 8 handle _ ?_ (by rw [hn]; rfl) (if_pos (Option.isSome_iff_ne_none.2 hps)))
    simp [hu, hh, show handle.toNat - 256 < 64 from hc, show (s.chan (handle.toNat - 256)).owner = u from hown]
  case clear =>
    intro h
    refine congrArg Host.Outcome.next ((if_neg (fun h' => not_ownsKwe_iff.2 h' h)).trans ?_)
    exact congrArg kweVector ((updKwe_updKwe' ..).trans (updKwe_congr' s _ _ (by simp [h.2.2])))
  case line =>
    intro h hu hn hkek
    exact congrArg Host.Outcome.next (kweGo_owner h 10 0 _ (beq_iff_eq.2 hu) (beq_iff_eq.2 hn) (if_pos (Option.isSome_iff_ne_none.2 hkek)))
  case bcast =>
    intro h hu hn hb
    refine congrArg Host.Outcome.next (kweGo_owner h 11 0 _ (beq_iff_eq.2 hu) (by rw [hn]; rfl) (if_pos ?_))
    rw [Bool.or_eq_true, Option.isSome_iff_ne_none]
    exact hb
  case other =>
    intro h i hi
    simp only [List.mem_cons, List.not_mem_nil, or_false] at hi
    rcases hi with rfl | rfl | rfl | rfl | rfl | rfl | rfl | rfl | rfl | rfl | rfl
    case inr.inr.inr.inr.inr.inr.inr.inr.inl => exact congrArg Host.Outcome.next (if_pos (not_ownsKwe_iff.1 h))
    all_goals exact congrArg Host.Outcome.next (kweGo_other h ..)
  case end1 | end2 | end3 | end4 | end5 | end6 =>
    intro hj hown
    refine congrArg Host.Outcome.next ?_
    unfold doKweOpDone
    simp only [hj, if_neg hown]
    rfl
  case end7 =>
    intro u hj hown
    refine congrArg Host.Outcome.next ?_
    unfold doKweOpDone
    simp only [hj, if_neg (show s.gorse.kwe.owner ≠ 8 from hown)]
    rfl
  case end8 =>
    intro hj hown hps
    refine congrArg Host.Outcome.next ?_
    unfold doKweOpDone
    simp only [hj, if_neg hown, hps]
    rfl
  case none =>
    intro hj
    refine congrArg Host.Outcome.next ?_
    unfold doKweOpDone
    simp only [hj]

end Sys2Proof.Machine

/-! PROOF. The management events: watchdog, straps and DEV.RESET, boot and clusters, the DRBG, and the ends of operations (R443 to R503). -/

namespace Sys2Proof.Machine
open State

/-- Settles O41: each event by the condition it tests. -/
theorem watchdogStrapsAndDeviceReset : Obligations.WatchdogStrapsAndDeviceReset := by
  unfold Obligations.WatchdogStrapsAndDeviceReset
  refine ⟨fun s => ?expiry, fun s h => ?unarmed, fun s h => ?warm, fun s h => ?cold, fun s h => ?none, fun x s => ?heath,
    fun d x s hd h => ?domain, fun d x s h => ?still⟩
  case expiry =>
    intro t h
    refine congrArg Host.Outcome.next ((if_neg (by simp [h])).trans ?_)
    simp only [Bool.and_eq_true, Bool.not_eq_true']
    rfl
  case unarmed => exact congrArg Host.Outcome.next (if_pos (by simp [h]))
  case warm | cold =>
    refine congrArg Host.Outcome.next ?_
    simp only [doDevResetAssert, h]
    rfl
  case none =>
    refine congrArg Host.Outcome.next ?_
    simp only [doDevResetAssert, h]
  case heath =>
    intro v h
    refine congrArg Host.Outcome.next ((if_neg (by simp [h])).trans ((if_pos rfl).trans ?_))
    have hu : decide (x.r0 ≠ x.r1 ∨ x.r1 ≠ x.r2) = (x.r0 != x.r1 || x.r1 != x.r2) := by
      rw [Bool.eq_iff_iff]
      simp
    rw [hu]
    rfl
  case domain => exact congrArg Host.Outcome.next ((if_neg (by simp [h])).trans (if_neg hd))
  case still => exact congrArg Host.Outcome.next (if_pos (by simp [h]))

/-- READY on a management cluster that can take it up. -/
theorem State.doReady_serves {s : State}
    (h : s.alive 2 = true ∧ s.fw.mgmtFree = true ∧ s.fw.coresHalted = false ∧ s.fw.pkg ≠ none ∧ s.fw.ready = false) :
    let t := ((s.updFw fun f => { f with ready := true, restarting := false }).epFaults 0).postKept
    let u := if t.mgmt.wdogFired = true then
        (t.updMgmt fun m => { m with wdogFired := false }).raiseAlarm 0x1050 2 0 0 (det1 t.mgmt.wdogCount) allParts
      else t
    s.doReady = ((u.requestWake 1 216).mgmtActivated).serveKeyJobs := by
  obtain ⟨hup, hfree, hcores, hpkg, hready⟩ := h
  have hn : s.fw.pkg.isNone = false := Option.isNone_eq_false_iff.2 (Option.isSome_iff_ne_none.2 hpkg)
  simp only [doReady, hup, hfree, hcores, hn, hready, Bool.not_true, Bool.or_false, Bool.false_eq_true, if_false]

/-- READY on any other changes nothing. -/
theorem State.doReady_idle {s : State}
    (h : ¬ (s.alive 2 = true ∧ s.fw.mgmtFree = true ∧ s.fw.coresHalted = false ∧ s.fw.pkg ≠ none ∧ s.fw.ready = false)) :
    s.doReady = s := by
  refine if_pos ?_
  simp only [not_and_or, Bool.not_eq_true, Bool.not_eq_false, not_not] at h
  simp only [Bool.or_eq_true, Bool.not_eq_true', Option.isNone_iff_eq_none, or_assoc]
  exact h

/-- Settles O43: a candidate by its code, a cluster by whether it is the next of an activation. -/
theorem candidatesBootAndClustersJoin : Obligations.CandidatesBootAndClustersJoin := by
  unfold Obligations.CandidatesBootAndClustersJoin
  refine ⟨fun readOk img s slot rest => ?verified, fun readOk img s h => ?noCandidate, fun s => ?ready, fun k s => ?joins,
    fun k s => ?stays, fun k ok s h => ?down, fun k s => rfl⟩
  case verified =>
    intro code hup hc
    refine congrArg Host.Outcome.next ?_
    simp only [doVerified, hc, hup, List.isEmpty_iff, Bool.not_true, Bool.false_eq_true, if_false]
    by_cases h0 : code = 0
    · rw [if_pos h0, if_pos h0, show s.verifyCode readOk img slotSize (s.rst.bootSrc == 1 && !s.fw.recoveryWait) = 0 from h0]
    · rw [if_neg h0, if_neg h0]
  case noCandidate =>
    refine congrArg Host.Outcome.next ?_
    rcases h with h | h
    · cases hc : s.fw.cands <;> simp [doVerified, hc, h]
    · simp only [doVerified, h]
  case ready =>
    intro t u
    refine congrArg (fun x => Host.Outcome.next (settle x)) ?_
    split
    case isTrue h => rw [doReady_serves h]
    case isFalse h => exact doReady_idle h
  case joins =>
    intro mine t u h
    exact congrArg Host.Outcome.next (if_neg (by simp [h]))
  case stays =>
    intro mine t h
    exact congrArg Host.Outcome.next (if_neg (by simp [h]))
  case down => exact congrArg Host.Outcome.next (if_pos (by simp [h]))

namespace State

variable {s : State} {op status reason : Nat} {img : PkgImage} {o : AsyncOp}

/-- An operation that ends with OK has its effect and posts its result. -/
theorem doAsyncDone_ok (ho : s.openOp op = some o)
    (hact : op ≠ opActivate)
    (hsp : s.passesSpoiled o (if op = opVerify then s.verifyCode (reason != 1) img slotSize false else reason) = false) :
    s.doAsyncDone op 0 reason img =
      let r := if op = opVerify then s.verifyCode (reason != 1) img slotSize false else reason
      let t := (s.updFw fun f => { f with ops := f.ops.erase o }).opEffect o r (pkgInfo img.head)
      let q := s.quoteBody o.hdr.ep.val o.arg
      if op = opQuote then t.result 0x0104 o.hdr 0 (q ++ Config.identSign q) else t.result 0x0101 o.hdr 0 (det2 op r) := by
  unfold doAsyncDone
  rw [ho]
  exact if_neg (by simp [hact, hsp, asyncStatus])

/-- An operation that ends with an error posts its status. -/
theorem doAsyncDone_error (ho : s.openOp op = some o) (hq : op ≠ opQuote) (hst : asyncStatus status = true) (hne : status ≠ 0) :
    s.doAsyncDone op status reason img =
      let t := s.updFw fun f => { f with ops := f.ops.erase o }
      (if op = opActivate then t.activateStop else if status = 0x17 ∨ status = 0x20 then t.opBroken o else t).result 0x0101 o.hdr status
        (det2 op (if op = opVerify then s.verifyCode (reason != 1) img slotSize false else reason)) := by
  unfold doAsyncDone
  rw [ho]
  refine (if_neg (by simp [hst, hne])).trans ((if_neg hq).trans ?_)
  rw [if_neg hne]

theorem passesSpoiled_of_ne (h : o.opcode ≠ 0x0E02) (r : Nat) : s.passesSpoiled o r = false := by
  have : o.opcode.toNat ≠ opVerify := fun h' => h (BitVec.eq_of_toNat_eq h')
  simp [passesSpoiled, this]

end State

/-- Settles O44: the DRBG's events by its state, the end of an operation by `doAsyncDone_ends` and the operation's effect. -/
theorem drbgActivationAndOperationResults : Obligations.DrbgActivationAndOperationResults := by
  unfold Obligations.DrbgActivationAndOperationResults
  refine ⟨fun test s => ?fails, fun s => ?restarts, fun s => rfl, fun s => ?rollsBack, fun reason img s o => ?staged,
    fun reason img s o => ?verified, fun reason img s o ho hop => ?advanced, fun reason img s o => ?quoted,
    fun op status reason img s o => ?broken, fun status reason img s o => ?stopped, fun op status reason img s ho => ?absent⟩
  case fails =>
    refine congrArg Host.Outcome.next ?_
    unfold doDrbgFail
    by_cases h : s.gorse.drbgRun = true <;> simp [h]
  case restarts =>
    refine congrArg Host.Outcome.next ?_
    unfold doDrbgRestart
    by_cases h : s.gorse.drbgRun = false ∧ s.alive 1 = true
    · rw [if_pos h, if_neg (by simp [h])]
    · rw [if_neg h, if_pos]
      simpa [Decidable.or_iff_not_imp_left] using h
  case rollsBack =>
    refine congrArg Host.Outcome.next ?_
    simp only [doRestartTimeout, Bool.and_eq_true, Bool.not_eq_true']
    rfl
  case staged =>
    intro len ho hop
    refine congrArg Host.Outcome.next ((doAsyncDone_ok ho (by decide) (passesSpoiled_of_ne (by rw [hop]; decide) _)).trans ?_)
    refine (if_neg (by decide)).trans (congrArg (fun t : State => t.result 0x0101 o.hdr 0 _) ?_)
    refine (if_pos (by rw [hop]; rfl)).trans ?_
    cases hb : bitAt o.arg 0 0 <;> rfl
  case verified =>
    intro code kept ho hop hsp
    refine congrArg Host.Outcome.next ((doAsyncDone_ok ho (by decide) hsp).trans ?_)
    refine (if_neg (by decide)).trans (congrArg (fun t : State => t.result 0x0101 o.hdr 0 _) ?_)
    refine (if_neg (by rw [hop]; decide)).trans ((if_pos (by rw [hop]; rfl)).trans ?_)
    cases hb : bitAt o.arg 0 0 <;> rfl
  case advanced =>
    refine congrArg Host.Outcome.next ((doAsyncDone_ok ho (by decide) (passesSpoiled_of_ne (by rw [hop]; decide) _)).trans ?_)
    refine (if_neg (by decide)).trans (congrArg (fun t : State => t.result 0x0101 o.hdr 0 _) ?_)
    exact (if_neg (by rw [hop]; decide)).trans ((if_neg (by rw [hop]; decide)).trans (if_pos (by rw [hop]; rfl)))
  case quoted =>
    intro q ho hop
    refine congrArg Host.Outcome.next ((doAsyncDone_ok ho (by decide) (passesSpoiled_of_ne (by rw [hop]; decide) _)).trans ?_)
    refine (if_pos rfl).trans (congrArg (fun t : State => t.result 0x0104 o.hdr 0 _) ?_)
    exact (if_neg (by rw [hop]; decide)).trans ((if_neg (by rw [hop]; decide)).trans ((if_neg (by rw [hop]; decide)).trans
      (if_pos (by rw [hop]; rfl))))
  case broken =>
    intro t ho hop hst
    refine congrArg Host.Outcome.next ?_
    rcases hop with rfl | rfl <;> rcases hst with rfl | rfl <;> exact doAsyncDone_error ho (by decide) (by decide) (by decide)
  case stopped =>
    intro t ho hne hst
    exact congrArg Host.Outcome.next (doAsyncDone_error ho (by decide) hst fun h => hne (BitVec.eq_of_toNat_eq h))
  case absent =>
    refine congrArg Host.Outcome.next ?_
    simp only [doAsyncDone, ho]

end Sys2Proof.Machine

/-! PROOF. Power-on and RESET_N (R436, R437, R449 to R451). -/

namespace Sys2Proof.Machine
open State

/-- What every value of a table has after a change, and its default has, every reading has. -/
theorem Tab.get_mapVals_of {α : Type} [DecidableEq α] {d : α} {f : Nat → α → α} {P : α → Prop} (hf : ∀ i x, P (f i x)) (hd : P d)
    (t : Tab α) (k : Nat) : P (Tab.get d (Tab.mapVals d f t) k) := by
  induction t with
  | nil => exact hd
  | cons p t ih =>
    simp only [Tab.mapVals, List.map_cons, List.filter_cons] at ih ⊢
    split
    · simp only [Tab.get]
      split
      · exact hf _ _
      · exact ih
    · exact ih

namespace State
variable (s : State)

/-! ### What the presented time and its sources leave as it is -/

/-- The state without what presented time changes. -/
def timeless (s : State) : State := { s.plant with time := {}, macs := [] }

theorem timeless_of_plant {s t : State} (h : s.plant = t.plant) : s.timeless = t.timeless :=
  congrArg (fun p : State => ({ p with time := {}, macs := [] } : State)) h

@[simp] theorem timeless_event (code sev kind idx : Nat) (d : List Byte) (ps : List Nat) (r : Bool) :
    (s.event code sev kind idx d ps r).timeless = s.timeless := timeless_of_plant (plant_event ..)

@[simp] theorem timeless_updTime (f : TimeSt → TimeSt) : (s.updTime f).timeless = s.timeless := rfl

@[simp] theorem timeless_updDom (i : Nat) (f : DomainSt → DomainSt) : (s.updDom i f).timeless = s.timeless := rfl

@[simp] theorem timeless_updTrig (i : Nat) (f : TrigSt → TrigSt) : (s.updTrig i f).timeless = s.timeless := rfl

theorem timeless_foldl {α : Type} {f : State → α → State} (h : ∀ s a, (f s a).timeless = s.timeless) (l : List α) (s : State) :
    (l.foldl f s).timeless = s.timeless := view_foldl timeless h l s

@[simp] theorem timeless_presentedStep (p : TimeVal) : (s.presentedStep p).timeless = s.timeless := by
  unfold presentedStep
  dsimp only
  exact (timeless_foldl (fun t j => timeless_updTrig ..) _ _).trans
    (timeless_foldl (f := fun t (m : Nat × MacSt) => t.updMac m.1 _) (fun t m => rfl) _ _)

@[simp] theorem timeless_discontinuity (d : TimeVal) : (s.discontinuity d).timeless = s.timeless := by
  unfold discontinuity
  dsimp only
  split
  · simp
  · split
    · simp
    · split
      · simp
      · simp [bumpTm]

@[simp] theorem timeless_setActive (d : Nat) : (s.setActive d).timeless = s.timeless := by
  unfold setActive
  split
  · rfl
  · simp [bumpTm]

@[simp] theorem timeless_reselect : s.reselect.timeless = s.timeless := by
  unfold reselect
  split
  · simp
  · simp
  · split <;> simp

@[simp] theorem timeless_keepEstimate (t : State) : (keepEstimate s t).timeless = t.timeless := by
  unfold keepEstimate
  split <;> rfl

@[simp] theorem timeless_dropLarge (d : Nat) : (s.dropLarge d).timeless = s.timeless := by
  unfold dropLarge
  split <;> rfl

@[simp] theorem timeless_loseSource (d : Nat) : (s.loseSource d).timeless = s.timeless := by
  unfold loseSource
  dsimp only
  split
  · rw [timeless_keepEstimate, timeless_reselect, timeless_event]
    split <;> simp [bumpTm]
  · rfl

@[simp] theorem timeless_chanLosesTime (c : Nat) : (s.chanLosesTime c).timeless = s.timeless := by
  refine timeless_foldl (fun t d => ?_) _ _
  split <;> simp

@[simp] theorem timeless_trigFree (c : Nat) : (s.trigFree c).timeless = s.timeless := by
  unfold trigFree
  generalize List.range 8 = l
  refine timeless_foldl (fun t i => ?_) _ _
  dsimp only
  split <;> simp

@[simp] theorem rst_chanLosesTime (c : Nat) : (s.chanLosesTime c).rst = s.rst := (congrArg State.rst (timeless_chanLosesTime s c) :)

@[simp] theorem chans_chanLosesTime (c : Nat) : (s.chanLosesTime c).chans = s.chans := (congrArg State.chans (timeless_chanLosesTime s c) :)

theorem chans_of_timeless {s t : State} (h : s.timeless = t.timeless) : s.chans = t.chans := (congrArg State.chans h :)

@[simp] theorem chans_trigFree (c : Nat) : (s.trigFree c).chans = s.chans := chans_of_timeless (timeless_trigFree s c)

/-! ### What a reset of the whole device leaves of the reset sources -/

theorem rst_foldl {α : Type} {f : State → α → State} (h : ∀ s a, (f s a).rst = s.rst) (l : List α) (s : State) :
    (l.foldl f s).rst = s.rst := view_foldl State.rst h l s

theorem rst_of_apart {s t : State} (h : s.apart = t.apart) : s.rst = t.rst := congrArg (·.rst) h

@[simp] theorem rst_requestRelease (d : Nat) : (s.requestRelease d).rst = s.rst := rst_of_apart (apart_requestRelease ..)

@[simp] theorem rst_releaseUs (c : Nat) : (s.releaseUs c).rst = s.rst := by
  unfold releaseUs
  split
  · rfl
  · unfold endActivation sendStream
    dsimp only
    split <;> (try split) <;> simp [updUs]

@[simp] theorem rst_cutBurst (c : Nat) (b : Burst) : (s.cutBurst c b).rst = s.rst := by
  refine rst_foldl (fun t w => ?_) _ _
  split
  · rfl
  · exact view_takeOut (·.rst) (fun _ _ h => rst_of_apart h) _ _ _ _ fun _ _ => rfl

@[simp] theorem rst_cancelBursts (c : Nat) : (s.cancelBursts c).rst = s.rst := by
  unfold cancelBursts
  extract_lets gone s1 s2
  have h : s2.rst = s.rst := rst_foldl (fun t b => rst_foldl (f := fun s g => s.unclaim _ _) (fun _ _ => rfl) _ _) _ _
  split
  · exact h
  · rw [rst_releaseUs, h]

@[simp] theorem rst_stopUpstream (c : Nat) : (s.stopUpstream c).rst = s.rst := by
  unfold stopUpstream
  dsimp only
  rw [rst_releaseUs]
  unfold driveBgate
  split <;> simp [updHeath, updUs, rst_foldl fun t b => rst_cutBurst t c b]

@[simp] theorem rst_kweCut : s.kweCut.rst = s.rst := by
  unfold kweCut
  split
  · rfl
  · split
    · unfold kweVector
      dsimp only
      split <;> rfl
    · rfl

/-- What the reset control unit keeps beside the pins: its sources, what it drives, and the last reset. -/
def sources (s : State) : List Nat × Bool × Nat := (s.rst.asserted, s.rst.driving, s.rst.lastReach)

theorem sources_setPin (i st : Nat) : (s.setPin i st).sources = s.sources := by
  unfold setPin
  split <;> rfl

theorem sources_pinReset (cold : Bool) (i : Nat) : (s.pinReset cold i).sources = s.sources := by
  unfold pinReset
  dsimp only
  split
  · exact sources_setPin ..
  · split
    · exact sources_setPin ..
    · split <;> exact sources_setPin ..

theorem sources_pinsReset (cold : Bool) (l : List Nat) : (s.pinsReset cold l).sources = s.sources :=
  view_foldl sources (fun t i => sources_pinReset t cold i) l s

theorem sources_wideClear (cold : Bool) : (s.wideClear cold).sources = s.sources := by
  unfold wideClear
  generalize List.range 50 = l
  extract_lets s1 s2 g
  have hpins : s2.sources = s1.sources := sources_pinsReset s1 cold _
  have hchans : s1.rst = s.rst := rst_foldl (fun t p => by simp) s.chans s
  exact hpins.trans (congrArg (fun r : RstSt => (r.asserted, r.driving, r.lastReach)) hchans)

/-- Power-on leaves a channel nothing but its loss of signal, and no queue and no endpoint. -/
theorem wideClear_cold : (∀ c, ((s.wideClear true).chan c).tc = {}) ∧ (s.wideClear true).queues = [] ∧ (s.wideClear true).eps = [] := by
  unfold wideClear
  generalize List.range 50 = l
  refine ⟨fun c => ?_, rfl, rfl⟩
  exact Tab.get_mapVals_of (d := ({} : ChanSt)) (P := fun x => x.tc = {}) (f := fun _ x => { rx := { felos := x.rx.felos } }) (fun _ _ => rfl) rfl _ _

/-- A domain that enters reset is in reset. -/
theorem inReset_enterReset (us : Nat) (l : List Nat) (d : Nat) (h : d ∈ l ∨ (s.pdom d).inReset = true) :
    ((s.enterReset us l).pdom d).inReset = true := by
  induction l generalizing s with
  | nil => exact h.resolve_left List.not_mem_nil
  | cons x l ih =>
    refine ih _ ?_
    by_cases hx : d = x
    · simp [hx]
    · simpa [hx] using h

theorem enterReset_keeps {β : Type} (view : State → β) (h : ∀ t d f, view (State.updPdom t d f) = view t) (us : Nat) (l : List Nat) :
    view (s.enterReset us l) = view s := view_foldl view (fun _ _ => h ..) l s

theorem mem_leaveOrder {d : Nat} (h : d < 218) : d ∈ 0 :: leaveOrder := by
  simp only [leaveOrder, List.mem_cons, List.mem_append, List.mem_map, List.mem_range, List.not_mem_nil, or_false]
  rcases Nat.lt_or_ge d 4 with h4 | h4
  · omega
  rcases Nat.lt_or_ge d 164 with h1 | h1
  · exact Or.inr (Or.inr ⟨d - 4, by omega⟩)
  rcases Nat.lt_or_ge d 180 with h2 | h2
  · exact Or.inr (Or.inl (Or.inr ⟨d - 148, by omega, by rw [if_neg (by omega)]; omega⟩))
  rcases Nat.lt_or_ge d 196 with h3 | h3
  · exact Or.inr (Or.inl (Or.inr ⟨d - 180, by omega, by rw [if_pos (by omega)]; omega⟩))
  rcases Nat.lt_or_ge d 216 with h5 | h5
  · exact Or.inr (Or.inl (Or.inl (Or.inl (Or.inr ⟨d - 196, by omega⟩))))
  · omega

end State

/-- Settles O40: power-on by what its clearing keeps, the events of the pin by what they test. -/
theorem resetSourcesAssertAndRelease : Obligations.ResetSourcesAssertAndRelease := by
  unfold Obligations.ResetSourcesAssertAndRelease
  refine ⟨fun s => ?powerOn, fun s => ?xaon, fun s => ?low, fun s => ?high, fun s => ?held, fun s => ?driveEnd, fun s h => ?blankHigh,
    fun s h => ?blankLow, fun low s h => ?noBlank⟩
  case powerOn =>
    refine ⟨_, rfl, ?_⟩
    unfold doPowerOn
    extract_lets good s1 s2
    have hs : s2.sources = ([0], false, 0) := sources_wideClear s1 true
    obtain ⟨hchan, hqueues, heps⟩ : (∀ c, (s2.chan c).tc = {}) ∧ s2.queues = [] ∧ s2.eps = [] := wideClear_cold s1
    clear_value s2
    refine ⟨?_, ?_, ?_, fun d hd => inReset_enterReset _ _ _ _ (Or.inl (mem_leaveOrder hd)), fun c => ?_, ?_, ?_⟩
    · exact (enterReset_keeps _ (fun t : State => t.rst.asserted) (fun _ _ _ => rfl) _ _).trans (congrArg Prod.fst hs)
    · exact (enterReset_keeps _ (fun t : State => t.rst.driving) (fun _ _ _ => rfl) _ _).trans rfl
    · exact (enterReset_keeps _ (fun t : State => t.rst.lastReach) (fun _ _ _ => rfl) _ _).trans (congrArg (fun x => x.2.2) hs)
    · exact (enterReset_keeps _ (fun t : State => (t.chan c).tc) (fun _ _ _ => rfl) _ _).trans (hchan c)
    · exact (enterReset_keeps _ State.queues (fun _ _ _ => rfl) _ _).trans hqueues
    · exact (enterReset_keeps _ State.eps (fun _ _ _ => rfl) _ _).trans heps
  case xaon =>
    intro t
    refine congrArg Host.Outcome.next ?_
    simp only [doXaon, powerOnTest, Bool.and_eq_true, List.contains_iff_mem, rst_updRst, pwr_updRst, true_and]
    rfl
  case low =>
    refine congrArg Host.Outcome.next ?_
    simp only [doResetNLow, Bool.or_eq_true, List.contains_iff_mem, or_assoc]
    rfl
  case high =>
    refine congrArg Host.Outcome.next ?_
    simp only [doResetNHigh, Bool.or_eq_true]
    rfl
  case held =>
    refine congrArg Host.Outcome.next ?_
    simp only [doResetNHeld, Bool.and_eq_true, Bool.not_eq_true', ← Bool.not_eq_true, List.contains_iff_mem, and_assoc]
    rfl
  case driveEnd =>
    refine congrArg Host.Outcome.next ?_
    simp only [doDriveEnd, Bool.and_eq_true, List.all_eq_true, Bool.or_eq_true, beq_iff_eq]
    rfl
  case blankHigh => exact congrArg Host.Outcome.next (if_neg (by simp [h]))
  case blankLow =>
    refine congrArg Host.Outcome.next ((if_neg (by simp [h])).trans ?_)
    simp only [Bool.and_eq_true]
    rfl
  case noBlank => exact congrArg Host.Outcome.next (if_pos (by simp [h]))

end Sys2Proof.Machine

/-! PROOF. Alarms by samples, the flash log, and the sideband (R490 to R506). -/

namespace Sys2Proof.Machine
open State

theorem State.majorT_tempAlarm (s : State) (code sev thr : Nat) : (s.tempAlarm code sev thr).mgmt.majorT = s.mgmt.majorT := by
  unfold tempAlarm
  split
  · rfl
  · split
    · rename_i i _
      exact congrArg (·.mgmt.majorT) (plant_raiseAlarm (s := s) (idx := i) ..)
    · rfl

/-- Settles O46: each event by the conditions it tests. -/
theorem samplesRaiseAlarmsAndTheLogIsCopied : Obligations.SamplesRaiseAlarmsAndTheLogIsCopied := by
  unfold Obligations.SamplesRaiseAlarmsAndTheLogIsCopied
  refine ⟨fun temps s => ?sample, fun major s => ?tempClear, fun vs s => rfl, fun r s => rfl, fun r s => rfl, fun s r hstop hready hnext => ?written,
    fun s r hstop hready hnext => ?failed, fun ok s h => ?none⟩
  case sample =>
    refine congrArg Host.Outcome.next ?_
    rw [majorT_tempAlarm]
    rfl
  case tempClear =>
    intro code thr
    refine congrArg Host.Outcome.next ?_
    simp only [doTempClear, List.all_eq_true, List.mem_range, decide_eq_true_eq]
    rfl
  case written =>
    refine congrArg Host.Outcome.next ?_
    simp only [doFlashWrite, hstop, hready, hnext, Bool.not_true, Bool.or_false, Bool.false_eq_true, if_false, if_true]
    refine congrArg s.updMgmt (funext fun m => ?_)
    have hlen : (if 4096 < (m.flog ++ [{ r with seq := m.fseq, flash := true }]).length then
          (m.flog ++ [{ r with seq := m.fseq, flash := true }]).drop 1 else m.flog ++ [{ r with seq := m.fseq, flash := true }])
        = if m.flog.length < 4096 then m.flog ++ [{ r with seq := m.fseq, flash := true }]
          else (m.flog ++ [{ r with seq := m.fseq, flash := true }]).drop 1 := by
      rw [List.length_append, List.length_singleton]
      by_cases h : m.flog.length < 4096
      · rw [if_pos h, if_neg (by omega)]
      · rw [if_neg h, if_pos (by omega)]
    rw [hlen]
  case failed =>
    refine congrArg Host.Outcome.next ?_
    simp only [doFlashWrite, hstop, hready, hnext, Bool.not_true, Bool.or_false, Bool.false_eq_true, if_false]
  case none =>
    refine congrArg Host.Outcome.next ?_
    unfold doFlashWrite
    rcases h with h | h | h
    · simp [h]
    · simp [h]
    · rw [h]
      split <;> rfl

namespace State
variable {s : State} {op : Nat} {run : State → Nat × List Byte × State}

/-- The sideband's window command begun. -/
abbrev sbBegun (s : State) (op : Nat) : State := s.updMgmt fun m => { m with sbOp := op }

/-- A window command runs while the firmware serves it, or while it does not restart and the root of trust runs. -/
theorem sbOp_runs {r : Nat} {reply : List Byte} {t : State} (hup : s.sbUp = true)
    (h : s.fw.ready = true ∨ s.fw.restarting = false ∧ s.alive 1 = true) (hrun : run (s.sbBegun op) = (r, reply, t)) :
    s.sbOp op run = t.sbReply r reply := by
  unfold sbOp
  rw [if_neg (by simp [hup])]
  refine (if_neg ?_).trans (by rw [hrun])
  change ¬ (!s.fw.ready && (s.fw.restarting || !s.alive 1)) = true
  rcases h with h | ⟨h, h1⟩ <;> simp [h, *]

/-- Elsewhere it is answered with BUSY. -/
theorem sbOp_busy (hup : s.sbUp = true) (hr : s.fw.ready = false) (h : s.fw.restarting = true ∨ s.alive 1 = false) :
    s.sbOp op run = (s.sbBegun op).sbReply stBusy [] := by
  unfold sbOp
  rw [if_neg (by simp [hup])]
  refine if_pos ?_
  change (!s.fw.ready && (s.fw.restarting || !s.alive 1)) = true
  simpa [hr] using h

theorem sbOp_down (hup : s.sbUp = false) : s.sbOp op run = s := if_pos (by simp [hup])

@[simp] theorem pushOpen_updMgmt (f : MgmtSt → MgmtSt) (src : Nat) : (s.updMgmt f).pushOpen src = s.pushOpen src := rfl

theorem updFw_push (s : State) (x : PushSt) (h : s.fw.pushSb = some x) : (s.updFw fun f => { f with pushSb := some x }) = s := by
  rw [← h]
  rfl

end State

theorem pushBegin_of {req : List Byte} (h : req.length = 4 ∧ 1 ≤ u32 req 0 ∧ u32 req 0 ≤ 4194304) :
    pushBegin req = (0, some { len := u32 req 0 }) := by
  rw [pushBegin, if_neg (by rw [slotSize]; omega)]
  rfl

theorem pushBegin_bad {req : List Byte} (h : ¬ (req.length = 4 ∧ 1 ≤ u32 req 0 ∧ u32 req 0 ≤ 4194304)) :
    pushBegin req = (stBadParam, none) := if_pos (by rw [slotSize]; omega)

/-- Settles O47: a command of the window by `sbOp`'s cases, then its own. -/
theorem sidebandCommandsAct : Obligations.SidebandCommandsAct := by
  unfold Obligations.SidebandCommandsAct
  refine ⟨fun s hup => ?release, fun s hup => ?warm, fun s hup => ?cold, fun req s => ?pushBegin, fun req s x => ?pushData, fun sigOk s x => ?pushEnd,
    fun req s hup h hl hn => ?flog, fun s hup h => ?bootrec, fun req s hup h hl => ?alarm, fun req sigOk c s hup hc => ?down,
    fun req sigOk c op s hup hr h hc => ?busy, fun req sigOk c op s hup h hp hc => ?noPush, fun req sigOk s x hup h hp hreq => ?badEnd,
    fun req s hup h hbad => ?badFlog, fun req s hup h hbad => ?badAlarm⟩
  case release =>
    refine congrArg Host.Outcome.next ((if_neg (by simp [hup])).trans ?_)
    cases hs : s.pwr.seated <;> rfl
  case warm => exact congrArg Host.Outcome.next (if_pos hup)
  case cold => exact congrArg Host.Outcome.next (if_pos hup)
  case pushBegin =>
    intro t hup h
    refine congrArg Host.Outcome.next ?_
    split
    case isTrue ho => exact sbOp_runs hup h (if_pos (by simpa using ho))
    case isFalse ho =>
      have hopen : ¬ (!(s.sbBegun 1).pushOpen 3) = true := by simpa using ho
      split
      case isTrue hreq => exact sbOp_runs hup h ((if_neg hopen).trans (by rw [pushBegin_of hreq]))
      case isFalse hreq => exact sbOp_runs hup h ((if_neg hopen).trans (by rw [pushBegin_bad hreq]))
  case pushData =>
    intro t hup h hp
    have hpt : t.fw.pushSb = some x := hp
    refine congrArg Host.Outcome.next ?_
    split
    case isTrue ho =>
      refine sbOp_runs hup h ?_
      rw [show (s.sbBegun 2).fw.pushSb = some x from hp]
      exact if_pos (by simpa using ho)
    case isFalse ho =>
      have hopen : ¬ (!(s.sbBegun 2).pushOpen 3) = true := by simpa using ho
      split
      case isTrue hreq =>
        refine sbOp_runs hup h ?_
        rw [show (s.sbBegun 2).fw.pushSb = some x from hp]
        refine (if_neg hopen).trans ?_
        rw [pushData, if_neg (by omega)]
        rfl
      case isFalse hreq =>
        refine (sbOp_runs hup h ?_).trans (congrArg (fun y : State => y.sbReply stBadParam []) (updFw_push t x hpt))
        rw [show (s.sbBegun 2).fw.pushSb = some x from hp]
        refine (if_neg hopen).trans ?_
        rw [pushData, if_pos (by omega)]
  case pushEnd =>
    intro t y hup h hp
    refine congrArg Host.Outcome.next ?_
    split
    case isTrue ho =>
      refine sbOp_runs hup h ?_
      rw [show (s.sbBegun 3).fw.pushSb = some x from hp]
      exact if_pos (by simpa using ho)
    case isFalse ho =>
      refine sbOp_runs hup h ?_
      rw [show (s.sbBegun 3).fw.pushSb = some x from hp]
      exact (if_neg (by simpa using ho)).trans (if_neg (by simp))
  case flog =>
    refine congrArg Host.Outcome.next (sbOp_runs hup h ?_)
    simp only [flogReply]
    rw [if_neg (by omega)]
    rfl
  case bootrec => exact congrArg Host.Outcome.next (sbOp_runs hup h rfl)
  case alarm =>
    refine congrArg Host.Outcome.next (sbOp_runs hup h ?_)
    simp only [alarmReply]
    rw [if_neg (by omega)]
    split <;> simp_all [stOk]
  case down =>
    simp only [List.mem_cons, List.not_mem_nil, or_false] at hc
    rcases hc with rfl | rfl | rfl | rfl | rfl | rfl | rfl | rfl | rfl
    · exact congrArg Host.Outcome.next (if_pos (by simp [hup]))
    · exact congrArg Host.Outcome.next (if_neg (by simp [hup]))
    · exact congrArg Host.Outcome.next (if_neg (by simp [hup]))
    all_goals exact congrArg Host.Outcome.next (sbOp_down hup)
  case busy =>
    simp only [List.mem_cons, List.not_mem_nil, or_false, Prod.mk.injEq] at hc
    rcases hc with ⟨rfl, rfl⟩ | ⟨rfl, rfl⟩ | ⟨rfl, rfl⟩ | ⟨rfl, rfl⟩ | ⟨rfl, rfl⟩ | ⟨rfl, rfl⟩
    all_goals exact congrArg Host.Outcome.next (sbOp_busy hup hr h)
  case noPush =>
    simp only [List.mem_cons, List.not_mem_nil, or_false, Prod.mk.injEq] at hc
    rcases hc with ⟨rfl, rfl⟩ | ⟨rfl, rfl⟩
    all_goals
      refine congrArg Host.Outcome.next (sbOp_runs hup h ?_)
      simp only [fw_updMgmt, hp]
  case badEnd =>
    refine congrArg Host.Outcome.next ?_
    refine sbOp_runs hup h ?_
    rw [show (s.sbBegun 3).fw.pushSb = some x from hp]
    by_cases ho : s.pushOpen 3 = true
    · rw [if_pos ho]
      exact (if_neg (by simpa using ho)).trans (if_pos hreq)
    · rw [if_neg ho]
      exact if_pos (by simpa using ho)
  case badFlog =>
    refine congrArg Host.Outcome.next (sbOp_runs hup h ?_)
    simp only [flogReply]
    rw [if_pos hbad]
  case badAlarm =>
    refine congrArg Host.Outcome.next (sbOp_runs hup h ?_)
    simp only [alarmReply]
    rw [if_pos hbad]

end Sys2Proof.Machine

/-! PROOF. Bracken, the card's rails, trips and the emergency shutdown (R409 to R446). -/

namespace Sys2Proof.Machine
open State

/-- Settles O39: each event by the conditions it tests. -/
theorem cardRailsTripsAndEmergency : Obligations.CardRailsTripsAndEmergency := by
  unfold Obligations.CardRailsTripsAndEmergency
  refine ⟨fun s => ?seated, fun s h => congrArg Host.Outcome.next (if_pos h), fun s h => ?withdrawn, fun s h => ?absent, fun r s => ?loss,
    fun r s h => congrArg Host.Outcome.next (if_pos h), fun r s => ?good, fun r s => rfl, fun i s => ?trip, fun s n => ?step, fun s h => ?noStep,
    fun s => ?restart⟩
  case seated =>
    intro t h
    refine congrArg Host.Outcome.next ((if_neg (by simp [h])).trans ?_)
    simp only [Bool.and_eq_true, Bool.not_eq_true', beq_iff_eq]
    rfl
  case withdrawn => exact congrArg Host.Outcome.next (if_neg (by simp [h]))
  case absent => exact congrArg Host.Outcome.next (if_pos (by simp [h]))
  case loss =>
    intro t h
    exact congrArg Host.Outcome.next (if_neg (by omega))
  case good =>
    refine congrArg Host.Outcome.next ?_
    simp only [doRailGood, List.contains_iff_mem]
    rfl
  case trip =>
    intro t
    refine congrArg Host.Outcome.next ?_
    simp only [doTrip, List.contains_iff_mem]
    rfl
  case step =>
    intro g t h
    refine congrArg Host.Outcome.next ?_
    simp only [doEmergencyStep, h, Nat.reduceLeDiff]
    rfl
  case noStep =>
    refine congrArg Host.Outcome.next ?_
    simp only [doEmergencyStep, h]
  case restart =>
    intro t u recent
    refine congrArg Host.Outcome.next ?_
    simp only [doThermRestart, Bool.not_eq_true', Bool.and_eq_true, decide_eq_true_eq, ← Bool.not_eq_true, List.contains_iff_mem]
    rfl

namespace State

/-- What the whole microjoules of a rail add to its counter, and to no other. -/
theorem railEnergy_shareRail (s : State) (r uj j : Nat) :
    Ctrs.get (s.shareRail r uj).pwr.railEnergy j
      = if j = r then min (Ctrs.get s.pwr.railEnergy j + uj) ctrMax else Ctrs.get s.pwr.railEnergy j := by
  unfold shareRail
  extract_lets ds w total s1 given
  have h : s1.pwr.railEnergy = s.pwr.railEnergy := by
    dsimp only [s1]
    split
    · rfl
    · exact view_foldl (·.pwr.railEnergy) (f := fun s d => s.addEnergy d (uj * w d / total)) (fun _ _ => rfl) ds s
  clear_value s1
  rw [pwr_updPwr, h, ctr_add]
  by_cases hj : j = r
  · rw [if_pos hj, if_pos hj, hj]
  · rw [if_neg hj, if_neg hj]

/-- Steps that each add to one counter of a list without repetition add to each of the list once. -/
theorem ctr_foldl_add {f : State → Nat → State} {view : State → Ctrs} {w : Nat → Nat}
    (hf : ∀ t r j, Ctrs.get (view (f t r)) j = if j = r then min (Ctrs.get (view t) j + w r) ctrMax else Ctrs.get (view t) j)
    (l : List Nat) (hl : l.Nodup) (t : State) (j : Nat) :
    Ctrs.get (view (l.foldl f t)) j = if j ∈ l then min (Ctrs.get (view t) j + w j) ctrMax else Ctrs.get (view t) j := by
  induction l generalizing t with
  | nil => simp
  | cons r l ih =>
    obtain ⟨hr, hl⟩ := List.nodup_cons.1 hl
    rw [List.foldl_cons, ih hl, hf]
    by_cases hj : j = r
    · subst hj
      simp [hr]
    · simp [hj]

end State

/-- Settles O38. -/
theorem powerGrantsRampsAndEnergy : Obligations.PowerGrantsRampsAndEnergy := by
  unfold Obligations.PowerGrantsRampsAndEnergy
  refine ⟨fun d s => ?grant, fun d s => ?limit, fun d s => ?ramp, fun w s => rfl, fun nj s => rfl, fun nj s => ?energy⟩
  case grant =>
    intro x
    refine congrArg Host.Outcome.next ?_
    simp only [doGrant, Bool.and_eq_true, Bool.or_eq_true, beq_iff_eq, Bool.not_eq_true', and_assoc]
    rfl
  case limit =>
    refine congrArg Host.Outcome.next ?_
    simp only [doWaitLimit, Bool.and_eq_true, beq_iff_eq, Bool.not_eq_true', and_assoc]
  case ramp =>
    intro up
    refine congrArg Host.Outcome.next ?_
    cases hp : (s.pdom d).ph <;> simp only [doRampEnd, hp, Bool.not_eq_true', ← Bool.not_eq_true, List.all_eq_true]
    case up => rw [ite_not]
  case energy =>
    refine ⟨_, rfl, fun r hr => ?_⟩
    unfold doEnergy
    extract_lets t1 t2 t3
    have h3 : t3.pwr.railEnergy = t2.pwr.railEnergy := view_foldl (·.pwr.railEnergy) (fun _ _ => rfl) (List.range 8) t2
    have h1 := ctr_foldl_add (view := (·.pwr.railEnergy)) (fun t r j => railEnergy_shareRail t r (s.wholeUj nj r) j) (List.range 6)
      List.nodup_range s r
    have h2 : Ctrs.get t2.pwr.railEnergy r = _ := ctr_foldl_add (view := (·.pwr.railEnergy)) (w := s.wholeUj nj)
      (fun t r j => by
        rw [pwr_updPwr, ctr_add]
        by_cases hj : j = r
        · rw [if_pos hj, if_pos hj, hj]
        · rw [if_neg hj, if_neg hj]) [6, 7] (by decide) t1 r
    change Ctrs.get t3.pwr.railEnergy r = _
    rw [h3, h2, show Ctrs.get t1.pwr.railEnergy r = _ from h1]
    by_cases h6 : r < 6
    · rw [if_neg (by simp; omega), if_pos (List.mem_range.2 h6)]
      rfl
    · rw [if_pos (by simp; omega), if_neg (by simpa using h6)]
      rfl

end Sys2Proof.Machine

/-! PROOF. Host pauses, links and sleep, time sources and gate lists, and the lanes' events (R323, R341 to R343, R371 to R404). -/

namespace Sys2Proof.Machine
open State

@[simp] theorem State.now_dropPages (s : State) (q : Nat) : (s.dropPages q).now = s.now := by
  unfold dropPages
  dsimp only
  split
  · rfl
  · exact view_foldl State.now (fun _ _ => now_updStack ..) _ _

@[simp] theorem State.now_flush (s : State) (q : Nat) : (s.flush q).now = s.now :=
  (now_dropPages ..).trans (view_takeOut State.now (fun _ _ h => (congrArg State.now h :)) _ _ _ _ fun _ _ => rfl)

theorem State.hold_bumpMac (s : State) (m i n j : Nat) : ((s.bumpMac m i n).mac j).hold = (s.mac j).hold := by
  by_cases h : j = m <;> simp [bumpMac, h]

@[simp] theorem State.now_linkDown (s : State) (m : Nat) : (s.linkDown m).now = s.now := by
  unfold linkDown
  dsimp only
  split
  · rfl
  · split
    · exact now_event ..
    · exact (view_foldl State.now (fun t k => now_flush ..) _ _).trans (now_event ..)

@[simp] theorem State.now_linksDown (s : State) (p : Nat) : (s.linksDown p).now = s.now :=
  view_foldl State.now (fun _ _ => now_linkDown ..) _ _

/-- Settles O32: each event by the conditions it tests. -/
theorem hostPausesLinksAndSleep : Obligations.HostPausesLinksAndSleep := by
  unfold Obligations.HostPausesLinksAndSleep
  refine ⟨fun m k s => rfl, fun m k s => ?refresh, fun m s hl hex hen hph hup => ?linkUp, fun m s h => ?noLink, fun m s h => ?linkDown,
    fun m s h => ?wasDown, fun p s hq hw => ?asleep, fun p s hq hw => ?wakes, fun p s h => congrArg Host.Outcome.next (if_pos h),
    fun p s h => congrArg Host.Outcome.next (if_pos h), fun p s => ⟨fun h => congrArg Host.Outcome.next (if_pos h),
      fun h => congrArg Host.Outcome.next (if_neg h), fun h => congrArg Host.Outcome.next (if_neg h)⟩⟩
  case refresh =>
    refine congrArg Host.Outcome.next ?_
    simp only [doPauseRefresh, List.contains_iff_mem]
  case linkUp => exact congrArg Host.Outcome.next ((if_neg (by decide)).trans (if_neg (by simp [hl, hex, hen, hph, hup])))
  case noLink => exact congrArg Host.Outcome.next ((if_neg (by decide)).trans (if_pos (by simpa [or_assoc] using h)))
  case linkDown =>
    refine congrArg Host.Outcome.next ((if_pos rfl).trans ?_)
    refine (if_neg (by simp [h])).trans ?_
    simp only [mac_event, hold_bumpMac, mac_updMac, if_true]
    rfl
  case wasDown => exact congrArg Host.Outcome.next ((if_pos rfl).trans (if_pos (by simp [h])))
  case asleep =>
    refine congrArg Host.Outcome.next ?_
    simp only [doQuietEnd, hq, hw, ne_eq, not_true_eq_false, if_false, Bool.false_eq_true]
  case wakes =>
    refine congrArg Host.Outcome.next ?_
    simp only [doQuietEnd, hq, hw, ne_eq, not_true_eq_false, if_false, if_true, now_linksDown]

/-- Settles O27: each event by the source, the hold or the list that it finds. -/
theorem timeSourcesAndGateListsMoveOn : Obligations.TimeSourcesAndGateListsMoveOn := by
  unfold Obligations.TimeSourcesAndGateListsMoveOn
  refine ⟨fun d s c h => ?lost, fun d s h => ?unbound, fun s => rfl, fun m s g at_ h => ?switch, fun m s h => ?noSwitch, fun m s g => ?entry,
    fun m s h => ?noList⟩
  case lost | unbound =>
    refine congrArg Host.Outcome.next ?_
    simp only [doAnnTimeout, h]
  case switch =>
    refine congrArg Host.Outcome.next ?_
    simp only [doGateSwitch, h] <;> rfl
  case noSwitch =>
    refine congrArg Host.Outcome.next ?_
    simp only [doGateSwitch, h]
  case entry =>
    intro i h hi
    refine congrArg Host.Outcome.next ?_
    have hmod : ((s.mac m).gateIdx + 1) % max 1 g.count = i := by
      rw [Nat.max_eq_right (by omega)]
      dsimp only [i]
      split
      case isTrue hlt => exact Nat.mod_eq_of_lt hlt
      case isFalse hge => rw [show (s.mac m).gateIdx + 1 = g.count by omega, Nat.mod_self]
    simp only [doGateEntryStart, h, hmod]
  case noList =>
    refine congrArg Host.Outcome.next ?_
    simp only [doGateEntryStart, h]

theorem lineLane_iff {l : Nat} : lineLane l = true ↔ l < 256 := decide_eq_true_iff

/-- Whether a marker is in its place behind the last one, if there was one; `n` is the range of the block count. -/
theorem all_inPlace (a n : Nat) (o : Option Nat) :
    o.all (fun p => (a + n - p % n) % n % markerSpan == 0) = match o with
      | none => true
      | some p => (a + n - p % n) % n % markerSpan == 0 := by
  cases o <;> rfl

/-- A marker on a line lane in block lock, in its place or not. -/
theorem State.doLaneMarker_due {s : State} {l : Nat} {raw : BitVec 64} {a : Nat} {due : Bool} (hl : l < 256) (hb : (s.lane l).blockLock = true)
    (hdue : (s.lane l).lastMarker.all (fun p => (a + 4294967296 - p % 4294967296) % 4294967296 % markerSpan == 0) = due) :
    let m := if (s.lane l).inverted then ~~~raw else raw
    let missed := s.bumpLane l .markerErr
    s.doLaneMarker l raw a
      = if markerFits m = true ∧ due = true then
          (s.updLane l fun x => { x with lastMarker := some a, badMarkers := 0 }).collectMarker l m a
        else if due = false then missed
        else if (s.chan (l / 4)).rx.lanesUp = true ∧ 3 ≤ (s.lane l).badMarkers then missed.alignLost (l / 4)
        else missed.updLane l fun x => { x with badMarkers := x.badMarkers + 1 } := by
  intro m missed
  refine (if_neg (by simp [lineLane_iff.2 hl, hb])).trans ?_
  rw [hdue]
  simp only [Bool.and_eq_true, Bool.not_eq_true', decide_eq_true_eq]
  rfl

/-- Settles O35: each event by the lane's lock and the marker's place. -/
theorem blockLockAndMarkersAreFollowed : Obligations.BlockLockAndMarkersAreFollowed := by
  unfold Obligations.BlockLockAndMarkersAreFollowed
  refine ⟨fun l inv s => ?lock, fun l s => ?loss, fun l raw a s => ?marker, fun l raw a s h => ?none⟩
  case lock =>
    intro x
    refine congrArg Host.Outcome.next ?_
    split
    case isTrue h =>
      obtain ⟨hl, hup, hb, hlos, hlol⟩ := h
      exact if_neg (by simp [lineLane_iff.2 hl, hup, show (s.lane l).blockLock = false from hb, show (s.lane l).los = false from hlos,
        show (s.lane l).lol = false from hlol])
    case isFalse h =>
      refine if_pos ?_
      simp only [Bool.or_eq_true, Bool.not_eq_true', ← Bool.not_eq_true, lineLane_iff, or_assoc]
      simpa only [not_and_or, Bool.not_eq_false, ← Bool.not_eq_true, not_not] using h
  case loss =>
    intro x t
    refine congrArg Host.Outcome.next ?_
    by_cases h : l.val < 256 ∧ x.blockLock = true
    · obtain ⟨hl, hb⟩ := h
      refine (if_neg (by simp [lineLane_iff.2 hl, show (s.lane l).blockLock = true from hb])).trans ((?_ : _ = _).trans (if_pos ⟨hl, hb⟩).symm)
      by_cases hd : x.los = true ∨ x.lol = true
      · have hd' : ((s.lane l).los || (s.lane l).lol) = true := by simpa [x] using hd
        rw [if_pos hd, hd']
        rfl
      · have hd' : ((s.lane l).los || (s.lane l).lol) = false := by simpa [x] using hd
        rw [if_neg hd, hd']
        rfl
    · refine (if_pos ?_).trans (if_neg h).symm
      simp only [Bool.or_eq_true, Bool.not_eq_true', ← Bool.not_eq_true, lineLane_iff]
      exact not_and_or.1 h
  case marker =>
    intro x m due missed hl hb
    refine congrArg Host.Outcome.next (doLaneMarker_due hl hb ?_)
    exact all_inPlace a 4294967296 (s.lane l).lastMarker
  case none =>
    refine congrArg Host.Outcome.next (if_pos ?_)
    rcases h with h | h
    · simp [lineLane, h]
    · simp [h]

/-- Settles O36: each report by the detector's state, the checker's test or the scan that it finds. -/
theorem detectorsAndLaneTestsReport : Obligations.DetectorsAndLaneTestsReport := by
  unfold Obligations.DetectorsAndLaneTestsReport
  refine ⟨fun l s hup h => ?losOn, fun l s hup h => ?losOff, fun l s hup h => ?lolOn, fun l s hup h => ?lolOff, fun l on s h => ?losSame,
    fun l on s h => ?lolSame, fun c s => ?felosOn, fun c s h => ?felosOff, fun c on s h => ?felosSame, fun l s => ?prbs, fun l s => rfl,
    fun l counts s hd n h => ?scan, fun l counts s h => ?noScan, fun result h => ?parts, fun c code mis tx s hp ho hr => ?polls,
    fun c code mis tx s h => ?noPoll, fun k s => rfl⟩
  case losOn | losOff | lolOn | lolOff => exact congrArg Host.Outcome.next (if_neg (by simp [hup, h]))
  case losSame | lolSame => exact congrArg Host.Outcome.next (if_pos (by simpa using h))
  case felosOn =>
    intro t h
    refine congrArg Host.Outcome.next ((if_neg (by simp [h])).trans ?_)
    have hdoze : (t.chan c).tc.doze = (s.chan c).tc.doze := by simp [t, laneDetect, updRx, bumpLane]
    change (match (t.chan c).tc.doze with
      | some d => if t.asleep c then (t.enterHoldover c { tag := d.recTag, sfc := d.recSfc, tds := d.recTds, since := t.now }).requestWake 0 (dsDom c)
          else t.lineLost c
      | none => t.lineLost c) = _
    have hnow : t.now = s.now := by simp [t, laneDetect, updRx, bumpLane]
    unfold asleep
    rw [hdoze, hnow]
    cases hd : (s.chan c).tc.doze with
    | none => rfl
    | some d => cases hw : d.awake <;> simp [hw]
  case felosOff => exact congrArg Host.Outcome.next (if_neg (by simp [h]))
  case felosSame => exact congrArg Host.Outcome.next (if_pos (by simp [h]))
  case prbs =>
    refine congrArg Host.Outcome.next ?_
    simp only [doPrbsLock, checkerRuns, Bool.and_eq_true, Bool.or_eq_true, beq_iff_eq, bne_iff_ne, and_assoc, or_assoc]
  case scan | noScan =>
    refine congrArg Host.Outcome.next ?_
    simp only [doEyeDone, h]
  case parts => exact if_pos h
  case polls => exact congrArg Host.Outcome.next (if_neg (by simp [hp, ho, hr]))
  case noPoll => exact congrArg Host.Outcome.next (if_pos (by simpa [or_assoc] using h))

end Sys2Proof.Machine

/-! PROOF. Time outputs and captures, tributary and ODC frames, and host frames (R182, R206, R329 to R340, R360 to R376). -/

namespace Sys2Proof.Machine
open State

theorem State.squelched_iff {s : State} (h : s.time.ppsSquelch ≤ 2) :
    s.squelched = true ↔ (s.time.ppsSquelch = 1 ∧ s.pstate = 3) ∨ (s.time.ppsSquelch = 2 ∧ 2 ≤ s.pstate) := by
  unfold squelched
  generalize s.time.ppsSquelch = q at h
  match q with
  | 0 | 1 | 2 => simp

/-- PPS_OUT at a whole presented second, squelched or not. -/
theorem State.doPpsEdge_of {s : State} {quiet : Prop} [Decidable quiet] (hq : s.squelched = true ↔ quiet) :
    let t : TimeVal := s.presented.ediv secU * secU
    let width := 1000000 * s.time.ppsWidth
    s.doPpsEdge = if s.time.ppsEn = true ∧ ¬ quiet then
        (s.updTime fun x => { x with ppsSec := some t.sec, ppsEnd := s.now + width }).emit (.pps t (t + psT width) (s.time.ppsPol == 0))
      else s.updTime fun x => { x with ppsSec := some t.sec } := by
  intro t width
  have hw : s.time.ppsWidth * 1000000 = width := Nat.mul_comm ..
  have hc : (s.time.ppsEn && !(s.updTime fun x => { x with ppsSec := some t.sec }).squelched) = true ↔ s.time.ppsEn = true ∧ ¬ quiet := by
    rw [Bool.and_eq_true, Bool.not_eq_true', ← hq, Bool.not_eq_true]
    rfl
  unfold doPpsEdge
  rw [hw]
  by_cases h : s.time.ppsEn = true ∧ ¬ quiet
  · rw [if_pos h]
    exact if_pos (hc.2 h)
  · rw [if_neg h]
    exact if_neg fun h' => h (hc.1 h')

/-- A capture pin set to take an edge. -/
theorem takesEdge {edge : Nat} {rising : Bool} (h : edge = 2 ∨ edge = (if rising then 0 else 1)) :
    (edge == 2 || (edge == 0) == rising) = true := by
  rcases h with rfl | rfl
  · rfl
  · cases rising <;> rfl

/-- What of an Announce message stands before the clock's quality (Table 9.8). -/
def announceHead (s : State) (x : PtpSrc) : List Byte :=
  State.ptpHeader x 11 64 x.annSeq.toNat 5 x.logAnn ++ zeros 10 ++ beBytes 2 s.time.utcOfs.toNat ++ [0, 128]

/-- What of an Announce message stands behind the clock's class and accuracy. -/
def announceTail (s : State) : List Byte :=
  beBytes 2 (if s.pstate = 1 then 0x4E5D else 0xFFFF) ++ [128] ++ beBytes 8 (Config.open64 2 0).toNat ++ beBytes 2 0
    ++ [if s.pstate = 3 then 0xA0 else 0x90]

/-- The body of an Announce message. -/
def announceMsg (s : State) (x : PtpSrc) : List Byte :=
  announceHead s x ++ ([BitVec.ofNat 8 s.clockClass, BitVec.ofNat 8 s.accCode] ++ announceTail s)

theorem length_announceHead (s : State) (x : PtpSrc) : (announceHead s x).length = 48 := by
  simp [announceHead, State.ptpHeader, sBytes]

theorem length_announceMsg (s : State) (x : PtpSrc) : (announceMsg s x).length = 64 := by
  simp [announceMsg, length_announceHead, announceTail]

theorem u8_announceMsg_behind (s : State) (x : PtpSrc) (i : Nat) :
    u8 (announceMsg s x) (48 + i) = u8 ([BitVec.ofNat 8 s.clockClass, BitVec.ofNat 8 s.accCode] ++ announceTail s) i := by
  unfold u8 announceMsg
  rw [List.getD_append_right _ _ _ _ (by rw [length_announceHead]; omega), length_announceHead, Nat.add_sub_cancel_left]

theorem State.clockClass_lt (s : State) : s.clockClass < 256 := by
  unfold clockClass
  split
  · split <;> decide
  · split
    · split <;> decide
    · decide

theorem State.doPtpAnnounce_runs {s : State} {i : Nat} (h : s.ptpRuns i = true) :
    s.doPtpAnnounce i = (s.updPtp i fun x => { x with annSeq := x.annSeq + 1 }).enqueue (State.egressQ (s.ptp i).mac 7)
      (State.builtFrame ((s.updPtp i fun x => { x with annSeq := x.annSeq + 1 }).ptpFrame (s.ptp i) false (announceMsg s (s.ptp i))) none) := by
  refine (if_neg (by simp [h])).trans ?_
  simp only [announceMsg, announceHead, announceTail, List.append_assoc]

section
variable {s : State} {i : Nat} (h : ¬ ((s.trig i).mode = 2 ∧ (!(s.operating (s.trig i).chan && s.synced (s.trig i).chan)) = true
  ∧ (s.chan (s.trig i).chan).tc.st ≠ .doze))
include h

/-- A trigger with a time of its own, or whose channel is aligned or dozes, gives the next pulse of its schedule. -/
theorem State.doTriggerPulse_next {t : TimeVal} (hn : (s.trig i).next = some t) :
    let fin := onGrid (t + (s.trig i).width * fracU)
    s.doTriggerPulse i = (s.updTrig i fun x => { x with
      idx := x.idx + 1, sub := x.sub + 1, done := x.done + 1, pulse := some (s.edgeAt fin, x.pol == 0) }).emit
        (.trig i (onGrid t) fin ((s.trig i).pol == 0)) := by
  simp only [doTriggerPulse, if_neg h, hn]

theorem State.doTriggerPulse_none (hn : (s.trig i).next = none) : s.doTriggerPulse i = s := by
  simp only [doTriggerPulse, if_neg h, hn]

end

/-- Settles O28. -/
theorem timeOutputsAndCapturesAct : Obligations.TimeOutputsAndCapturesAct := by
  unfold Obligations.TimeOutputsAndCapturesAct
  refine ⟨fun s => ?pps, fun s => rfl, fun i s t => ?pulse, fun i s hm hn => ?noPulse, fun i rising off s hen he hl => ?stamped,
    fun i rising off s hen he hl => ?full, fun i rising off s hen => ?disabled, fun i s => ?sync, fun i s h => ?announce, fun i s h => ?stopped⟩
  case pps =>
    intro t quiet width hq
    exact congrArg Host.Outcome.next (doPpsEdge_of (squelched_iff hq))
  case pulse =>
    intro x fin hrun hn
    exact congrArg Host.Outcome.next (doTriggerPulse_next (by simpa [← or_assoc, Classical.or_iff_not_imp_left] using hrun) hn)
  case noPulse => exact congrArg Host.Outcome.next (doTriggerPulse_none (fun h => hm h.1) hn)
  case stamped =>
    exact congrArg Host.Outcome.next ((if_neg (by rw [takesEdge he, hen]; decide)).trans (if_neg (Nat.not_le.2 hl)))
  case full =>
    exact congrArg Host.Outcome.next ((if_neg (by rw [takesEdge he, hen]; decide)).trans (if_pos hl))
  case disabled => exact congrArg Host.Outcome.next (if_pos (by simp [hen]))
  case sync =>
    intro x msg h
    exact congrArg Host.Outcome.next (if_neg (by simp [h]))
  case announce =>
    refine ⟨_, announceMsg s (s.ptp i), congrArg Host.Outcome.next (doPtpAnnounce_runs h), rfl, length_announceMsg .., rfl, ?_, ?_⟩
    · exact (u8_announceMsg_behind s _ 0).trans (Nat.mod_eq_of_lt s.clockClass_lt)
    · exact u8_announceMsg_behind s _ 1
  case stopped => exact ⟨congrArg Host.Outcome.next (if_pos (by simp [h])), congrArg Host.Outcome.next (if_pos (by simp [h]))⟩

end Sys2Proof.Machine

/-! PROOF. Host frames, tributary frames and the ODC ports (R182, R206, R360 to R376). -/

namespace Sys2Proof.Machine
open State

@[simp] theorem State.now_settleHeads (s : State) (q : Nat) : (s.settleHeads q).now = s.now := (congrArg State.now (apart_settleHeads s q) :)

/-- Settles O31: a received frame by its first failing check, a sent one by its class. -/
theorem hostFramesMove : Obligations.HostFramesMove := by
  unfold Obligations.HostFramesMove
  refine ⟨fun m f s k hr hc => ?fails, fun m f s => ?passes, fun m f s hr hc ht => ?control, fun m f s h => ?stopped, fun m e off s k f => ?sends,
    fun m e off s => ?nothing, fun m e off s h => ?busy⟩
  case fails =>
    refine congrArg Host.Outcome.next ((if_neg (by simp [hr])).trans ?_)
    rw [hc]
  case passes =>
    intro t hr hc ht
    refine congrArg Host.Outcome.next ((if_neg (by simp [hr])).trans ?_)
    rw [hc]
    exact if_neg ht
  case control =>
    refine congrArg Host.Outcome.next ((if_neg (by simp [hr])).trans ?_)
    rw [hc]
    exact if_pos ht
  case stopped => exact congrArg Host.Outcome.next (if_pos (by simp [h]))
  case sends =>
    intro q u v w hr ht hn
    refine congrArg Host.Outcome.next ((if_neg (by simp [hr]; omega)).trans ?_)
    change (match u.nextClass m off with
      | none => u
      | some (k, f) => _) = _
    rw [hn]
    have hnow : ((List.range 8).foldl (fun t k => t.settleHeads (State.egressQ m k)) s).now = s.now :=
      view_foldl State.now (fun t k => now_settleHeads ..) (List.range 8) s
    dsimp only
    rw [hnow]
    change (if (e || f.bad) = true then (if f.bad = true then w else w.bumpMem .bufEccUncorr).bumpMac m 25
      else ((w.bumpMac m 20).bumpMac m 21 (v.1.length + 4)).bumpMac m (22 + destKind v.1)) = _
    clear_value w v
    cases e <;> cases f.bad <;> rfl
  case nothing =>
    intro u hr ht hn
    refine congrArg Host.Outcome.next ((if_neg (by simp [hr]; omega)).trans ?_)
    change (match u.nextClass m off with
      | none => u
      | some (k, f) => _) = _
    rw [hn]
  case busy => exact congrArg Host.Outcome.next (if_pos (by simpa using h))

namespace State

/-- The first frame of a channel that an ODC port takes, zero bytes where there is none 2 µs old (R364). -/
def odcRipe (s : State) (c : Nat) : Bool := (s.chan c).trib.odcQ.head?.any fun f => decide (f.1 + 2000000 ≤ s.now)

def odcTaken (s : State) (c : Nat) : List Byte := if s.odcRipe c then Machine.slice (((s.chan c).trib.odcQ.headD (0, [])).2) 0 64 else zeros 64

/-- What one channel of a port frame does to the state. -/
def odcStep (s : State) (c : Nat) (bs : List Byte) : State := (s.odcTake c).2.odcGive c bs

theorem odcRipe_iff {s : State} {c : Nat} :
    s.odcRipe c = true ↔ ∃ f rest, (s.chan c).trib.odcQ = f :: rest ∧ f.1 + 2000000 ≤ s.now := by
  simp only [odcRipe, Option.any_eq_true, decide_eq_true_eq]
  cases (s.chan c).trib.odcQ <;> simp

theorem odcTake_ripe {s : State} {c : Nat} (h : s.odcRipe c = true) :
    s.odcTake c = (s.odcTaken c, s.updTrib c fun t => { t with odcQ := t.odcQ.tail }) := by
  obtain ⟨f, rest, hq, hr⟩ := odcRipe_iff.1 h
  unfold odcTake odcTaken
  rw [h, if_pos rfl, hq]
  refine (if_pos hr).trans (Prod.ext rfl ?_)
  exact updChan_congr _ _ _ _ (by simp [hq])

theorem odcTake_unripe {s : State} {c : Nat} (h : s.odcRipe c = false) : s.odcTake c = (s.odcTaken c, s.bumpTrib c .odcDsSlip) := by
  unfold odcTake odcTaken
  rw [h, if_neg Bool.false_ne_true]
  split
  · rename_i tds bs rest hq
    exact if_neg fun hr => Bool.eq_false_iff.1 h (odcRipe_iff.2 ⟨_, _, hq, hr⟩)
  · rfl

theorem odcTake_fst (s : State) (c : Nat) : (s.odcTake c).1 = s.odcTaken c := by
  cases h : s.odcRipe c
  · rw [odcTake_unripe h]
  · rw [odcTake_ripe h]

theorem out_odcStep (s : State) (c : Nat) (bs : List Byte) : (s.odcStep c bs).out = s.out := by
  have htake : (s.odcTake c).2.out = s.out := by
    cases h : s.odcRipe c
    · rw [odcTake_unripe h]
      rfl
    · rw [odcTake_ripe h]
      rfl
  unfold odcStep odcGive
  rw [← htake]
  split
  · split <;> rfl
  · rfl

/-- The ODC state of the other channels stays; the next port frames test the same time. -/
theorem odcStep_keeps (s : State) {c d : Nat} (bs : List Byte) (h : d ≠ c) :
    (s.odcStep c bs).chan d = s.chan d ∧ (s.odcStep c bs).now = s.now := by
  have htake : (s.odcTake c).2.chan d = s.chan d ∧ (s.odcTake c).2.now = s.now := by
    cases hr : s.odcRipe c
    · rw [odcTake_unripe hr]
      simp [updTrib, bumpTrib, h]
    · rw [odcTake_ripe hr]
      simp [updTrib, h]
  unfold odcStep odcGive
  rw [← htake.1, ← htake.2]
  split
  · split <;> simp [updTrib, bumpTrib, h]
  · exact ⟨rfl, rfl⟩

theorem trib_odcTake (s : State) (c : Nat) :
    ((s.odcTake c).2.chan c).trib.odcQ = (if s.odcRipe c then (s.chan c).trib.odcQ.tail else (s.chan c).trib.odcQ)
      ∧ ((s.odcTake c).2.chan c).trib.binds = (s.chan c).trib.binds := by
  cases hr : s.odcRipe c
  · rw [odcTake_unripe hr]
    simp [updTrib, bumpTrib]
  · rw [odcTake_ripe hr]
    simp [updTrib]

theorem odcQ_odcStep (s : State) (c : Nat) (bs : List Byte) :
    ((s.odcStep c bs).chan c).trib.odcQ = if s.odcRipe c then (s.chan c).trib.odcQ.tail else (s.chan c).trib.odcQ := by
  rw [← (trib_odcTake s c).1]
  unfold odcStep odcGive
  split
  · split <;> simp [updTrib, bumpTrib]
  · rfl

theorem odcUs_odcStep (s : State) (c : Nat) (bs : List Byte) (h : ∃ b ∈ (s.chan c).trib.binds, b.2 = .odc) :
    ((s.odcStep c bs).chan c).trib.odcUs = some bs := by
  unfold odcStep odcGive
  rw [if_pos]
  · split <;> simp [updTrib, bumpTrib]
  · rw [(trib_odcTake s c).2]
    simpa using h

/-- The channels of a port frame, one after the other. -/
def odcRun (k : Nat) (di : List Byte) (l : List Nat) (s : State) : State :=
  l.foldl (fun s j => s.odcStep (8 * k + j) (Machine.slice di (64 * j) 64)) s

theorem odcRun_keeps (k : Nat) (di : List Byte) (l : List Nat) (s : State) {d : Nat} (h : ∀ j ∈ l, d ≠ 8 * k + j) :
    (odcRun k di l s).chan d = s.chan d := by
  induction l generalizing s with
  | nil => rfl
  | cons j l ih =>
    exact (ih _ fun i hi => h i (List.mem_cons_of_mem _ hi)).trans (odcStep_keeps s _ (h j (List.mem_cons_self ..))).1

theorem now_odcStep (s : State) (c : Nat) (bs : List Byte) : (s.odcStep c bs).now = s.now := (odcStep_keeps s bs (Nat.succ_ne_self c)).2

theorem now_odcRun (k : Nat) (di : List Byte) (l : List Nat) (s : State) : (odcRun k di l s).now = s.now :=
  view_foldl State.now (fun _ _ => now_odcStep ..) l s

theorem odcTaken_odcStep (s : State) {c d : Nat} (bs : List Byte) (h : d ≠ c) : (s.odcStep c bs).odcTaken d = s.odcTaken d := by
  obtain ⟨hchan, hnow⟩ := odcStep_keeps s bs h
  unfold odcTaken odcRipe
  rw [hchan, hnow]

theorem odcRipe_odcStep (s : State) {c d : Nat} (bs : List Byte) (h : d ≠ c) : (s.odcStep c bs).odcRipe d = s.odcRipe d := by
  obtain ⟨hchan, hnow⟩ := odcStep_keeps s bs h
  unfold odcRipe
  rw [hchan, hnow]

theorem out_odcRun (k : Nat) (di : List Byte) (l : List Nat) (s : State) : (odcRun k di l s).out = s.out :=
  view_foldl State.out (fun _ _ => out_odcStep ..) l s

/-- The bytes that a port frame's channels give, and the state behind them. -/
theorem odcFold (k : Nat) (di : List Byte) (l : List Nat) (hl : l.Nodup) (s : State) (bs : List Byte) :
    l.foldl (fun (acc : List Byte × State) j =>
        let (b, t) := acc.2.odcTake (8 * k + j)
        (acc.1 ++ b, t.odcGive (8 * k + j) (Machine.slice di (64 * j) 64))) (bs, s)
      = (bs ++ l.flatMap fun j => s.odcTaken (8 * k + j), odcRun k di l s) := by
  induction l generalizing s bs with
  | nil => simp [odcRun]
  | cons j l ih =>
    obtain ⟨hj, hl⟩ := List.nodup_cons.1 hl
    rw [List.foldl_cons, ih hl, odcTake_fst, List.flatMap_cons, List.append_assoc]
    refine Prod.ext ?_ rfl
    refine congrArg (fun x => bs ++ (s.odcTaken (8 * k + j) ++ x)) (List.flatMap_congr fun i hi => ?_)
    exact odcTaken_odcStep s _ fun h => hj ((Nat.add_left_cancel h : i = j) ▸ hi)

/-- What a port frame does to one of its channels (R364, R365): the words of the last clause but one of O30, whose own `j` ranges over
nothing, since it is read as a `Fin 8` below 8, which is 0. -/
theorem odcRun_of_mem (k : Nat) (di : List Byte) (l : List Nat) (hl : l.Nodup) (s : State) {j : Nat} (hj : j ∈ l) :
    ((odcRun k di l s).chan (8 * k + j)).trib.odcQ
        = (if s.odcRipe (8 * k + j) then (s.chan (8 * k + j)).trib.odcQ.tail else (s.chan (8 * k + j)).trib.odcQ)
      ∧ ((∃ b ∈ (s.chan (8 * k + j)).trib.binds, b.2 = .odc) →
        ((odcRun k di l s).chan (8 * k + j)).trib.odcUs = some (Machine.slice di (64 * j) 64)) := by
  induction l generalizing s with
  | nil => exact absurd hj List.not_mem_nil
  | cons i l ih =>
    obtain ⟨hi, hl⟩ := List.nodup_cons.1 hl
    rcases List.mem_cons.1 hj with rfl | hj
    · have hkeep : (odcRun k di (j :: l) s).chan (8 * k + j) = (s.odcStep (8 * k + j) (Machine.slice di (64 * j) 64)).chan (8 * k + j) :=
        odcRun_keeps k di l _ fun n hn h => hi ((Nat.add_left_cancel h : j = n) ▸ hn)
      rw [hkeep]
      exact ⟨odcQ_odcStep .., odcUs_odcStep _ _ _⟩
    · have hne : 8 * k + j ≠ 8 * k + i := fun h => hi ((Nat.add_left_cancel h : j = i) ▸ hj)
      have h := ih hl (s.odcStep (8 * k + i) (Machine.slice di (64 * i) 64)) hj
      rw [odcRipe_odcStep s _ hne, (odcStep_keeps s _ hne).1] at h
      exact h

/-- A port frame of an enabled port. -/
theorem doOdcFrame_on {s : State} {k : Nat} {di : List Byte} (hon : Tab.get false s.trib.odcOn k = true) (hup : s.alive 217 = true) :
    s.doOdcFrame k di = (odcRun k di (List.range 8) s).emit (.odc k ((List.range 8).flatMap fun j => s.odcTaken (8 * k + j))) := by
  refine (if_neg (by simp [hon, hup])).trans ?_
  have hl : (List.range 8).Nodup := List.nodup_range
  generalize List.range 8 = l at hl ⊢
  exact congrArg (fun p : List Byte × State => p.2.emit (.odc k p.1)) (odcFold k di l hl s [])

/-- Whether a stored part of a multiframe is past (R361). -/
def partPast (s : State) (i : Nat) (q : BitVec 32) : Bool := match s.tdsOf (s.stream i).chan (q ++ (0 : BitVec 3)) with
  | some t => decide (t + 4000000000 < s.now)
  | none => false

theorem partPast_eq_false {s : State} {i : Nat} {q : BitVec 32}
    (h : (s.tdsOf (s.stream i).chan (q ++ (0 : BitVec 3))).all (fun t => decide ((s.now : Int) ≤ t + 4000000000)) = true) :
    s.partPast i q = false := by
  unfold partPast
  split
  · rename_i t ht
    rw [ht, Option.all_some] at h
    exact decide_eq_false (Int.not_lt.2 (of_decide_eq_true h))
  · rfl

/-- A part that passes the tests is stored for its multiframe, the parts that are past gone. -/
theorem doTribFrame_stores {s : State} {m : Nat} {f : TribFrame} (ha : s.tribAccepts m f = true) (hup : s.alive 217 = true)
    (ht : s.tribFrameTest (s.stream f.stream.toNat) f = none) :
    s.doTribFrame m f = (s.updStream f.stream.toNat fun x => { x with
      parts := (x.parts.filter fun q => !s.partPast f.stream.toNat q.1) ++ [(f.tseq, f.part.toNat, f.missing, f.payload)] }).bumpStream
        f.stream.toNat .rxFrames := by
  refine (if_neg (by simp [ha, hup])).trans ?_
  simp only [ht]
  rfl

end State

/-- Settles O30: the parts by what the channel holds, a port frame by induction over its channels
(what it does to each of them is `odcRun_of_mem`; the statement's clause about that is empty). -/
theorem tributaryAndOdcFramesAreMoved : Obligations.TributaryAndOdcFramesAreMoved := by
  unfold Obligations.TributaryAndOdcFramesAreMoved
  refine ⟨fun c s w hup hw => ?whole, fun c s => ?free, fun c s hw h => ?none, fun c s w => ?absent, fun m f s k ha hup ht => ?fails,
    fun m f s => ?stored, fun m f s => ?kept, fun m f s h => ?left, fun k di s => ?frame, fun k di s h => ?off⟩
  case whole =>
    refine congrArg Host.Outcome.next ((if_neg (by simp [hup])).trans ?_)
    simp only [hw]
  case free =>
    intro t hup hw hb hf
    refine congrArg Host.Outcome.next ((if_neg (by simp [hup])).trans ?_)
    have hfree : (!s.operating c || !(s.chan c).rx.aligned) = true := by
      rcases hf with hf | hf <;> simp [hf]
    simp only [show (s.chan c).trib.whole = none from hw, show (s.chan c).trib.begun = true from hb, hfree]
    rfl
  case none =>
    refine congrArg Host.Outcome.next ?_
    unfold doTribParts
    rcases h with h | h | ⟨h1, h2⟩
    · simp [h, hw]
    · simp [h, hw]
    · simp [h1, h2, hw]
  case absent =>
    intro n hup hw
    refine congrArg Host.Outcome.next ((if_pos (by simp [hup])).trans ?_)
    simp only [hw]
    rfl
  case fails =>
    refine congrArg Host.Outcome.next ((if_neg (by simp [ha, hup])).trans ?_)
    simp only [ht]
  case stored =>
    intro i ha hup ht hparts
    refine congrArg Host.Outcome.next ((doTribFrame_stores ha hup ht).trans ?_)
    refine congrArg (fun t : State => t.bumpStream i .rxFrames) (updStream_congr _ _ _ _ ?_)
    rw [List.filter_eq_self.2 fun q hq => ?_]
    rw [partPast_eq_false (hparts q hq)]
    rfl
  case kept =>
    intro i ha hup ht
    refine ⟨_, congrArg Host.Outcome.next (doTribFrame_stores ha hup ht), ?_⟩
    simp [bumpStream, i]
  case left => exact congrArg Host.Outcome.next (if_pos (by simpa using h))
  case frame =>
    intro ripe taken hon hup
    refine ⟨_, congrArg Host.Outcome.next (doOdcFrame_on hon hup), ?_, fun j hj => ?_⟩
    · rw [out_emit, out_odcRun]
      rfl
    · exact absurd hj (Fin.not_lt_zero j)
  case off => exact congrArg Host.Outcome.next (if_pos (by simpa using h))

end Sys2Proof.Machine

/-! PROOF. Pages, stacks and scrubs (R251 to R277). -/

namespace Sys2Proof.Machine
open State

namespace State

theorem updMem_congr' (s : State) (f g : MemSt → MemSt) (h : f s.mem = g s.mem) : s.updMem f = s.updMem g := by
  simp only [updMem, h]

/-! ### A stack that has failed stays so while its pages go -/

theorem stack_of_apart {s t : State} (h : s.apart = t.apart) (i : Nat) : s.stack i = t.stack i := congrArg (·.stack i) h

variable (s : State) (i : Nat)

theorem failed_updStack (j : Nat) (f : StackSt → StackSt) (h : ∀ x, (f x).failed = x.failed) : ((s.updStack j f).stack i).failed = (s.stack i).failed := by
  rw [stack_updStack]
  split
  case isTrue hij => rw [h, hij]
  case isFalse => rfl

theorem failed_requestWake (cls d : Nat) : ((s.requestWake cls d).stack i).failed = (s.stack i).failed :=
  congrArg StackSt.failed (stack_of_apart (apart_requestWake ..) i)

theorem failed_foldl {α : Type} {f : State → α → State} (h : ∀ t a, ((f t a).stack i).failed = (t.stack i).failed) (l : List α) :
    ((l.foldl f s).stack i).failed = (s.stack i).failed := view_foldl (fun t => (t.stack i).failed) h l s

theorem stack_askBanks (n : Nat) (cells : List Nat) : (s.askBanks n cells).stack i = s.stack i := by
  unfold askBanks
  split <;> rfl

theorem failed_startWrites (j : Nat) : ((s.startWrites j).stack i).failed = (s.stack i).failed := by
  unfold startWrites
  extract_lets s1
  have h1 : (s1.stack i).failed = (s.stack i).failed := by
    dsimp only [s1]
    split
    · rfl
    · exact failed_updStack s i j _ fun _ => rfl
  clear_value s1
  split
  · exact h1
  · refine (failed_foldl s1 i (fun t p => failed_foldl t i (fun t y => ?_) _) _).trans h1
    rw [stack_askBanks]
    rfl

theorem failed_askWrite (q j : Nat) : ((s.askWrite q j).stack i).failed = (s.stack i).failed := by
  unfold askWrite
  split
  · rfl
  · split
    · unfold wakeStack
      dsimp only
      split
      · rw [failed_startWrites, failed_requestWake]
      · exact failed_requestWake ..
    · split
      · rfl
      · exact failed_startWrites ..

theorem failed_storePage (q : Nat) (mk : Nat → Nat → Page) : ((s.storePage q mk).stack i).failed = (s.stack i).failed := by
  unfold storePage
  split
  · rfl
  · dsimp only
    rw [failed_askWrite]
    exact failed_updStack _ i _ _ fun _ => rfl

theorem failed_freePage (q : Nat) (p : Page) : ((s.freePage q p).stack i).failed = (s.stack i).failed := failed_updStack _ i _ _ fun _ => rfl

theorem stack_takeOut (q : Nat) (sel : Frame → Bool) (count : State → Frame → State) (h : ∀ s f, (count s f).stack i = s.stack i) :
    (s.takeOut q sel count).stack i = s.stack i :=
  view_takeOut (fun t => t.stack i) (fun _ _ h => stack_of_apart h i) s q sel count h

theorem stack_allocCells (n : Nat) : (allocCells n s).2.stack i = s.stack i := by
  induction n generalizing s with
  | zero => rfl
  | succ n ih =>
    unfold allocCells
    split
    · rfl
    · rename_i b t ht
      dsimp only
      rw [ih]
      unfold allocCell at ht
      split at ht
      · cases ht
      · cases ht
        rfl

theorem stack_intoHead (q via : Nat) (f : Frame) : (s.intoHead q via f).stack i = s.stack i := by
  unfold intoHead
  dsimp only
  exact (stack_askBanks ..).trans (stack_allocCells ..)

theorem stack_stageFrames (q via : Nat) : (s.stageFrames q via).stack i = s.stack i := by
  refine view_foldl (fun t : State => t.stack i) (fun t f => ?_) _ s
  split
  · split
    · exact stack_intoHead ..
    · rfl
  · rfl

theorem stack_joinTail (q : Nat) : (s.joinTail q).stack i = s.stack i := by
  unfold joinTail
  split
  · exact view_foldl (fun t : State => t.stack i) (fun t f => stack_intoHead ..) _ s
  · rfl

theorem failed_losePages (j q : Nat) : ((s.losePages j q).stack i).failed = (s.stack i).failed := by
  unfold losePages
  extract_lets gone s1
  rw [stack_of_apart (apart_cellsChanged ..), stack_of_apart (apart_pressureTest ..), stack_joinTail, stack_stageFrames]
  refine failed_foldl s i (fun t p => ?_) gone
  split
  · rw [failed_storePage, failed_freePage]
  · dsimp only
    rw [failed_freePage]
    exact congrArg StackSt.failed (stack_takeOut t i _ _ _ fun _ _ => rfl)

end State

/-- Settles O19: each event by the page that it finds. -/
theorem pagesMoveToAndFromTheStore : Obligations.PagesMoveToAndFromTheStore := by
  unfold Obligations.PagesMoveToAndFromTheStore
  refine ⟨fun q n s p hp hr hn => ?written, fun q s p hp hr => ?retrains, fun q n s h => ?noWrite, fun q s p hp hst hroom hwait hph hsr => ?issued,
    fun q s h => ?noIssue, fun q n damage s p hp hr hn => ?read⟩
  case written =>
    refine congrArg Host.Outcome.next ?_
    simp only [doPageWriteDone, hp, hr, linkErrors, Nat.not_le.2 hn, Bool.false_eq_true, if_false]
  case retrains =>
    refine congrArg Host.Outcome.next ?_
    simp only [doPageWriteDone, hp, hr, linkErrors, Bool.false_eq_true, if_false]
    rfl
  case noWrite =>
    refine congrArg Host.Outcome.next ?_
    unfold doPageWriteDone
    split
    · rfl
    · rename_i p hp
      exact if_pos (h p hp)
  case issued =>
    refine congrArg Host.Outcome.next ?_
    simp [doPageReadIssue, hp, hst, hwait, headComing, hroom, hph, hsr, refuseSpill]
  case noIssue =>
    refine congrArg Host.Outcome.next ?_
    have hnone : (s.queue q).pages.find? (fun p => p.ph != .reading) = none := by
      rw [List.find?_eq_none]
      intro p hp
      simp [h p hp]
    simp only [doPageReadIssue, hnone]
  case read =>
    refine congrArg Host.Outcome.next ?_
    simp only [doPageReadDone, hp, hr, linkErrors, Nat.not_le.2 hn, Bool.false_eq_true, if_false]
    cases damage <;> rfl

/-- Settles O20: each event by the state of its stack or port. -/
theorem stacksScrubsAndRetriesAct : Obligations.StacksScrubsAndRetriesAct := by
  unfold Obligations.StacksScrubsAndRetriesAct
  refine ⟨fun i s hf hq => ?failsEmpty, fun i s hf => ?fails, fun i s hf => congrArg Host.Outcome.next (if_pos hf), fun i s hp hw hsr => ?sleeps,
    fun i s h => ?noSleep, fun i s => rfl, fun i n bad s hp hf hr hn => ?scrubs, fun i n bad s hp hf hr => ?wakes, fun i n bad s h => ?noScrub,
    fun i refused s => ?retry, fun s => rfl, fun s => rfl, fun s => rfl, fun s f => rfl, fun s m a => ?zeroWord⟩
  case failsEmpty =>
    refine congrArg Host.Outcome.next ((if_neg (by simp [hf])).trans ?_)
    extract_lets s1 s2 s3 s4 s5
    have hqueues : s4.queues = [] := (queues_raiseAlarm ..).trans hq
    dsimp only [s5]
    rw [hqueues]
    rfl
  case fails =>
    refine ⟨_, congrArg Host.Outcome.next (if_neg (by simp [hf])), ?_, ?_, ?_⟩
    · extract_lets s1 s2 s3 s4 s5
      refine (failed_updStack s5 i i (fun x => { x with pages := 0, writes := 0 }) fun _ => rfl).trans ?_
      have h5 : (s5.stack i).failed = (s4.stack i).failed := failed_foldl s4 i (fun t p => by
        split
        · exact failed_losePages ..
        · rfl) s4.queues
      have h4 : s4.stack i = s3.stack i := stack_raiseAlarm ..
      rw [h5, h4, show s3.stack i = s1.stack i from rfl]
      simp [s1]
    · simp
    · simp
  case sleeps => exact congrArg Host.Outcome.next (if_pos ⟨hp, hw, by simp [hsr]⟩)
  case noSleep =>
    refine congrArg Host.Outcome.next (if_neg ?_)
    rintro ⟨hp, hw, hsr⟩
    rcases h with h | h | h
    · exact h hp
    · exact h hw
    · simp [h] at hsr
  case scrubs =>
    refine congrArg Host.Outcome.next ((if_neg (by simp [hp, hf])).trans ((if_pos hr).trans ?_))
    simp only [linkErrors, Nat.not_le.2 hn, if_false]
  case wakes => exact congrArg Host.Outcome.next ((if_neg (by simp [hp, hf])).trans (if_neg (by simp [hr])))
  case noScrub => exact congrArg Host.Outcome.next (if_pos h)
  case retry =>
    intro x t u
    refine congrArg Host.Outcome.next ?_
    have hports : t.mem.ports = s.mem.ports := by
      dsimp only [t]
      split <;> rfl
    change (if (refused || t.stackRefuses (i % 4)) = true then t.refuseSpill i x.held else _) = _
    by_cases hr : refused = true ∨ t.stackRefuses (i % 4) = true
    · rw [if_pos hr]
      refine (if_pos (by simpa using hr)).trans (updMem_congr' _ _ _ ?_)
      have hget : Tab.get {} (t.bumpMem .spillRetry).mem.ports i = x := congrArg (Tab.get {} · i.val) hports
      simp only [Tab.upd, hget]
    · rw [if_neg hr]
      refine (if_neg (by simpa using hr)).trans ?_
      cases x.held <;> rfl
  case zeroWord =>
    refine congrArg Host.Outcome.next ?_
    simp only [doBackgroundScrub, List.contains_iff_mem]
end Sys2Proof.Machine

/-! PROOF. Downstream messages that the terminal takes for itself (R102 to R132). -/

namespace Sys2Proof.Machine
open State

namespace State
section
variable (s : State) (c : Nat) (h : TcmHdr) (m : DownTcm)

/-- Recording a message adds to the identifiers seen and counts; what else the terminal knows of itself stays. -/
theorem tc_heard {β : Type} (f : ChanTc → β) (hf : ∀ t l, f { t with dups := l } = f t) : f ((s.heard c h m).chan c).tc = f (s.chan c).tc := by
  unfold heard
  dsimp only
  split <;> simp [bump, updTc, hf]

@[simp] theorem heath_heard : ((s.heard c h m).chan c).heath = (s.chan c).heath := by
  unfold heard
  dsimp only
  split <;> simp [bump, updTc]

@[simp] theorem st_heard : ((s.heard c h m).chan c).tc.st = (s.chan c).tc.st := tc_heard s c h m (·.st) fun _ _ => rfl

@[simp] theorem tid_heard : ((s.heard c h m).chan c).tc.tid = (s.chan c).tc.tid := tc_heard s c h m (·.tid) fun _ _ => rfl

@[simp] theorem defAlloc_heard : ((s.heard c h m).chan c).tc.defAlloc = (s.chan c).tc.defAlloc := tc_heard s c h m (·.defAlloc) fun _ _ => rfl

@[simp] theorem epochs_heard : ((s.heard c h m).chan c).tc.epochs = (s.chan c).tc.epochs := tc_heard s c h m (·.epochs) fun _ _ => rfl

@[simp] theorem await_heard : ((s.heard c h m).chan c).tc.await = (s.chan c).tc.await := tc_heard s c h m (·.await) fun _ _ => rfl

@[simp] theorem allocsTold_heard : (s.heard c h m).allocsTold c = s.allocsTold c := by
  unfold allocsTold
  rw [tc_heard s c h m (·.allocNext) fun _ _ => rfl, tc_heard s c h m (·.allocs) fun _ _ => rfl]

@[simp] theorem flowsTold_heard : (s.heard c h m).flowsTold c = s.flowsTold c := by
  unfold flowsTold
  rw [tc_heard s c h m (·.flowNext) fun _ _ => rfl, tc_heard s c h m (·.flows) fun _ _ => rfl]

end

variable {s : State} {c : Nat} {h : TcmHdr} {n : BitVec 48}

/-! ### Equalization delay, allocations and flows -/

theorem eqdApply_soon (e : BitVec 24) (f : BitVec 48) (h2 : 2 ≤ sfcDiff f n) (h255 : sfcDiff f n ≤ 255) :
    s.eqdApply c e f n = (0, s.updTc c fun t => { t with eqdNext := (t.eqdNext.filter fun x => x.1 != f) ++ [(f, e.toNat % 8388608)] }) := by
  have hlate : ¬ sfcDiff f n < 2 := by omega
  unfold eqdApply
  simp only [if_neg (Int.not_lt.2 h255), hlate, decide_false, Bool.false_eq_true, if_false]

theorem eqdApply_late (e : BitVec 24) (f : BitVec 48) (h2 : sfcDiff f n < 2) :
    s.eqdApply c e f n = (1, (s.updTc c fun t => { t with
      eqdNext := (t.eqdNext.filter fun x => x.1 != n + 2) ++ [(n + 2, e.toNat % 8388608)] }).chanCondition c 5
        ((n + 2).toNat % 4294967296) (some (n + 2))) := by
  have h255 : ¬ 255 < sfcDiff f n := by omega
  unfold eqdApply
  simp only [if_neg h255, h2, decide_true, if_true]

theorem eqdApply_far (e : BitVec 24) (f : BitVec 48) (h255 : 255 < sfcDiff f n) : s.eqdApply c e f n = (2, s) := if_pos h255

/-- What ALLOC.MAP leaves told, from the map of the second frame on. -/
abbrev toldAllocs (s : State) (c : Nat) (n : BitVec 48) (t : Tab (Option (BitVec 14))) : State :=
  s.updTc c fun x => { x with allocNext := (x.allocNext.filter fun e => e.1 != n + 2) ++ [(n + 2, t)] }

theorem allocApply_done {op : Byte} {es : List AllocMapEntry} {t : Tab (Option (BitVec 14))} (hop : op = 1 ∨ op = 2) (h1 : 1 ≤ es.length)
    (h12 : es.length ≤ 12) (ht : es.foldlM (allocEntry op.toNat (s.chan c).tc.defAlloc) (s.allocsTold c) = some t) :
    s.allocApply c op es n = (0, s.toldAllocs c n t) := by
  have h3 : ¬ (op = 3 ∧ es.isEmpty = true) := by rcases hop with rfl | rfl <;> simp
  unfold allocApply
  rw [if_neg h3, if_pos ⟨hop, h1, h12⟩, ht]

theorem allocApply_bad {op : Byte} {es : List AllocMapEntry} (hop : op = 1 ∨ op = 2)
    (ht : es.foldlM (allocEntry op.toNat (s.chan c).tc.defAlloc) (s.allocsTold c) = none) : s.allocApply c op es n = (2, s) := by
  have h3 : ¬ (op = 3 ∧ es.isEmpty = true) := by rcases hop with rfl | rfl <;> simp
  unfold allocApply
  rw [if_neg h3, ht]
  split <;> rfl

/-- What FLOW.MAP leaves told, from the payload of the next frame on. -/
abbrev toldFlows (s : State) (c : Nat) (n : BitVec 48) (t : Tab (Option FlowHeld)) : State :=
  s.updTc c fun x => { x with flowNext := some { frame := n + 1, flows := t } }

theorem flowApply_some {op : Byte} {es : List FlowMapEntry} {t : Tab (Option FlowHeld)} (hop : op = 1 ∨ op = 2) (h1 : 1 ≤ es.length)
    (h9 : es.length ≤ 9) (ht : es.foldlM (flowEntry op.toNat (s.chan c).tc.tid) (s.flowsTold c) = some t) :
    s.flowApply c op es n
      = if op = 1 ∧ es.any (fun e => !(s.chan c).heath.flowEn.contains e.fslot.toNat) = true then (4, s) else (0, s.toldFlows c n t) := by
  have h3 : ¬ (op = 3 ∧ es.isEmpty = true) := by rcases hop with rfl | rfl <;> simp
  unfold flowApply
  rw [if_neg h3, if_pos ⟨hop, h1, h9⟩, ht]

theorem flowApply_bad {op : Byte} {es : List FlowMapEntry} (hop : op = 1 ∨ op = 2)
    (ht : es.foldlM (flowEntry op.toNat (s.chan c).tc.tid) (s.flowsTold c) = none) : s.flowApply c op es n = (2, s) := by
  have h3 : ¬ (op = 3 ∧ es.isEmpty = true) := by rcases hop with rfl | rfl <;> simp
  unfold flowApply
  rw [if_neg h3, ht]
  split <;> rfl

theorem sleepApply_kept {k : BitVec 16} {f : BitVec 48} (hst : (s.chan c).tc.st = .watch) (hen : (s.chan c).cfg.dozeEn = true)
    (h2 : 2 ≤ k.toNat) (h256 : k.toNat ≤ 256) (h8 : f.toNat % 8 = 0) :
    s.sleepApply c k f = (0, s.updTc c fun t => { t with sleepAt := some (f, k.toNat) }) := by
  unfold sleepApply
  rw [if_neg (by simp [hst, hen]), if_neg (by omega)]

/-- ASSIGN.ID that assigns in ANNOUNCED. -/
theorem tcmRow_assignId {b : AssignIdBody} (hh : s.Hears c h (.assignId b) n) (hst : (s.chan c).tc.st = .announced) (h0 : b.newTid ≠ 0)
    (hmax : b.newTid.toNat ≤ 0xFFFD) (hdef : b.defAlloc ≠ 0x3FFF) :
    s.tcmRow c h (.assignId b) = (s.heard c h (.assignId b)).takeId c b n := by
  have haddr : ¬ (h.tid ≠ h.flowTag ∨ (!(if h.tid = 0xFFFE then (DownTcm.assignId b).toAll else (DownTcm.assignId b).toTid)) = true) := by
    rw [hh.address]
    simp [hh.tid]
  unfold tcmRow
  simp only [hh.receiving, hh.accepted, if_true]
  unfold tcm
  simp only [hh.length, Bool.not_true, Bool.false_eq_true, if_false, if_neg haddr, hh.named, hh.permitted]
  have hid : ¬ (b.newTid = 0 ∨ 0xFFFD < b.newTid.toNat ∨ b.defAlloc = 0x3FFF) := by
    rintro (hz | hz | hz)
    · exact h0 hz
    · omega
    · exact hdef hz
  rw [if_neg hid, if_pos hst, tcmAccept_heard hh.fresh]
  rfl

/-! ### PROFILE -/

theorem chans_bondLapse (s : State) (c : Nat) : (s.bondLapse c).chans = s.chans := by
  unfold bondLapse
  split
  · rfl
  · dsimp only
    split <;> rfl

/-- A channel that leaves OPERATING ends its doze; no other channel and nothing else of it changes. -/
theorem chans_leaveOperating (s : State) (c : Nat) :
    (s.leaveOperating c).chans = (s.updTc c fun t => { t with doze := none, wakeNext := false }).chans := by
  unfold leaveOperating
  dsimp only
  rw [chans_bondLapse, chans_trigFree, chans_chanLosesTime]
  split
  · exact chans_of_apart (apart_requestWake ..)
  · rfl

/-- A change of state leaves what the terminal holds beside its doze. -/
theorem tc_setState {β : Type} (f : ChanTc → β) (s : State) (c i : Nat) (new : TState) (x : Cause)
    (hst : ∀ t st, f { t with opened := true, st := st } = f t) (hdoze : ∀ t, f { t with doze := none, wakeNext := false } = f t) :
    f ((s.setState c new x).chan i).tc = f (s.chan i).tc := by
  unfold setState
  extract_lets old s1 s2 s3
  have h1 : f (s1.chan i).tc = f (s.chan i).tc := by
    by_cases hi : i = c <;> simp [s1, updTc, hi, hst]
  have h2 : f (s2.chan i).tc = f (s1.chan i).tc := by
    dsimp only [s2]
    split
    · rfl
    · rw [chan, chans_leaveOperating]
      change f (((s1.updTc c fun t => { t with doze := none, wakeNext := false }).chan i).tc) = _
      by_cases hi : i = c <;> simp [updTc, hi, hdoze]
  have h3 : s3.chan i = s2.chan i := by
    dsimp only [s3]
    split
    · rfl
    · exact chan_event ..
  split
  · rw [chan_clearAlarm, h3, h2, h1]
  · rw [h3, h2, h1]

/-- Entering LOCKED leaves the profile epochs. -/
theorem epochs_tryLocked (s : State) (c : Nat) : ((s.tryLocked c).chan c).tc.epochs = (s.chan c).tc.epochs := by
  unfold tryLocked
  split
  · exact tc_setState (·.epochs) s c c _ _ (fun _ _ => rfl) fun _ => rfl
  · rfl

/-- The profile that a PROFILE message brings. -/
abbrev profOf (b : ProfileBody) : Profile :=
  { guard := b.guard.toNat, preLen := b.preLen.toNat, prePat := b.prePat.toNat, delim := b.delim.toNat, fec := b.fec }

/-- Of more than two complete epochs the oldest goes, and the epoch that has just got a profile is not the oldest. -/
theorem mem_pruned {num : BitVec 8} (es : List Epoch) (e : Epoch) (hnum : e.num = num) :
    let l := (es.filter fun x => x.num != num) ++ [e]
    e ∈ match l.filter Epoch.complete with
      | old :: _ => if 2 < (l.filter Epoch.complete).length then l.filter fun x : Epoch => x.num != old.num else l
      | [] => l := by
  intro l
  have hl : e ∈ l := List.mem_append_right _ (List.mem_singleton_self e)
  split
  · rename_i old rest hfull
    split
    · rename_i hlen
      refine List.mem_filter.2 ⟨hl, ?_⟩
      have hfull' : (es.filter fun x => x.num != num).filter Epoch.complete ++ [e].filter Epoch.complete = old :: rest := by
        rw [← hfull, List.filter_append]
      have holds : old.num ≠ num := by
        cases hA : (es.filter fun x => x.num != num).filter Epoch.complete with
        | nil =>
          have hle : ([e].filter Epoch.complete).length ≤ 1 := List.length_filter_le ..
          rw [hA, List.nil_append] at hfull'
          rw [hfull', ← hfull] at hle
          omega
        | cons a as =>
          rw [hA, List.cons_append] at hfull'
          have ha : a ∈ es.filter fun x => x.num != num := List.mem_of_mem_filter (hA ▸ List.mem_cons_self ..)
          rw [← (List.cons.inj hfull').1]
          simpa using (List.mem_filter.1 ha).2
      simpa [hnum] using holds.symm
    · exact hl
  · exact hl

/-- A profile that its epoch has not yet is added to it. -/
theorem addProfile_new {b : ProfileBody} {e : Epoch}
    (he : (((s.chan c).tc.epochs.find? fun e => e.num == b.epoch).getD { num := b.epoch, profs := [] }) = e) (hnum : e.num = b.epoch)
    (hp : e.profs.find? (fun p => p.1 == b.idx.toNat) = none) :
    ∃ e' ∈ ((s.addProfile c b).chan c).tc.epochs, e'.num = b.epoch ∧ e'.profs = e.profs ++ [(b.idx.toNat, profOf b)] := by
  unfold addProfile
  simp only [he, hp]
  refine ⟨{ e with profs := e.profs ++ [(b.idx.toNat, profOf b)] }, ?_, hnum, rfl⟩
  rw [epochs_tryLocked]
  simp only [updTc, chan_updChan, if_true]
  exact mem_pruned _ _ hnum

end State

/-- Settles O7: each message by what `tcmRow` applies and answers. -/
theorem profilesIdentityAndAssignmentsAreTaken : Obligations.ProfilesIdentityAndAssignmentsAreTaken := by
  unfold Obligations.ProfilesIdentityAndAssignmentsAreTaken
  refine ⟨fun c h b s n hh hnew => ?newEpoch, fun c h b s n e hh he hp => ?epoch, fun c h b s n e p hh he hp => ?stands,
    fun c h b s n hh hst h0 hmax hdef => ?ident, fun c h b s n hh => ?announce, fun c h e f s n hh h2 h255 => ?eqd,
    fun c h e f s n hh h2 => ?eqdLate, fun c h e f s n hh h255 => ?eqdFar, fun c h op es s n t hh hop h1 h12 ht => ?alloc,
    fun c h s n hh => ?allocClear, fun c h op es s n hh hop ht => ?allocBad, fun c h op es s n t hh hop h1 h9 hen ht => ?flow,
    fun c h s n hh => ?flowClear, fun c h op es s n hh hop ht => ?flowBad, fun c h es s n t hh h1 h9 hen ht => ?flowOff⟩
  case newEpoch =>
    refine ⟨_, congrArg Host.Outcome.next (tcmRow_applied hh rfl), ?_⟩
    refine addProfile_new (e := { num := b.epoch, profs := [] }) ?_ rfl rfl
    rw [epochs_heard, List.find?_eq_none.2 fun e he => by simpa using hnew e he]
    rfl
  case epoch =>
    refine ⟨_, congrArg Host.Outcome.next (tcmRow_applied hh rfl), ?_⟩
    refine addProfile_new (e := e) ?_ ?_ ?_
    · rw [epochs_heard, he]
      rfl
    · simpa using List.find?_some he
    · rw [List.find?_eq_none]
      intro p hm
      simpa using hp p hm
  case stands =>
    refine congrArg Host.Outcome.next (tcmRow_applied hh (Prod.ext rfl ?_))
    change (s.heard c h (.profile b)).addProfile c b = _
    unfold addProfile
    simp only [epochs_heard, he, Option.getD_some, hp]
  case ident => exact congrArg Host.Outcome.next (tcmRow_assignId hh hst h0 hmax hdef)
  case announce => exact congrArg Host.Outcome.next (tcmRow_applied hh rfl)
  case eqd => exact congrArg Host.Outcome.next (tcmRow_answered hh (congrArg (Prod.map some id) (eqdApply_soon e f h2 h255)))
  case eqdLate => exact congrArg Host.Outcome.next (tcmRow_answered hh (congrArg (Prod.map some id) (eqdApply_late e f h2)))
  case eqdFar => exact congrArg Host.Outcome.next (tcmRow_answered hh (congrArg (Prod.map some id) (eqdApply_far e f h255)))
  case alloc =>
    exact congrArg Host.Outcome.next (tcmRow_answered hh (congrArg (Prod.map some id) (allocApply_done hop h1 h12 (by simpa using ht))))
  case allocClear => exact congrArg Host.Outcome.next (tcmRow_answered hh rfl)
  case allocBad => exact congrArg Host.Outcome.next (tcmRow_answered hh (congrArg (Prod.map some id) (allocApply_bad hop (by simpa using ht))))
  case flow =>
    refine congrArg Host.Outcome.next (tcmRow_answered hh (congrArg (Prod.map some id)
      ((flowApply_some hop h1 h9 (by simpa using ht)).trans (if_neg ?_))))
    rintro ⟨h1, hany⟩
    obtain ⟨e, he, hno⟩ := List.any_eq_true.1 hany
    simp [hen h1 e he] at hno
  case flowClear => exact congrArg Host.Outcome.next (tcmRow_answered hh rfl)
  case flowBad => exact congrArg Host.Outcome.next (tcmRow_answered hh (congrArg (Prod.map some id) (flowApply_bad hop (by simpa using ht))))
  case flowOff =>
    refine congrArg Host.Outcome.next (tcmRow_answered hh (congrArg (Prod.map some id)
      ((flowApply_some (Or.inl rfl) h1 h9 (by simpa using ht)).trans (if_pos ⟨rfl, ?_⟩))))
    obtain ⟨e, he, hno⟩ := hen
    exact List.any_eq_true.2 ⟨e, he, by simpa using hno⟩

/-- Settles O8: each message by what `tcmRow` applies and answers. -/
theorem serviceAndDeactivationMessagesAreTaken : Obligations.ServiceAndDeactivationMessagesAreTaken := by
  unfold Obligations.ServiceAndDeactivationMessagesAreTaken
  refine ⟨fun c h k f s n hh hst hen h2 h256 h8 => ?sleep, fun c h r s n hh => ?wake, fun c h f ids s n hh => ?revoke, fun c h ty sq res s n hh => ?ack,
    fun c h r s n hh => ?deactivate, fun c h sn ch s n hh => ?silence, fun c h sn ch s n hh => congrArg Host.Outcome.next (tcmRow_applied hh rfl)⟩
  case sleep =>
    exact congrArg Host.Outcome.next (tcmRow_answered hh (congrArg (Prod.map some id) (sleepApply_kept (by simpa using hst) (by simpa using hen)
      h2 h256 h8)))
  case wake =>
    refine congrArg Host.Outcome.next (tcmRow_answered hh ?_)
    simp only [tcmApply, headWake, st_heard]
  case revoke =>
    refine congrArg Host.Outcome.next (tcmRow_applied hh (Prod.ext rfl ?_))
    change (s.heard c h (.grantRevoke f ids)).revokeApply c f ids n = _
    unfold revokeApply
    by_cases hf : f = n + 1
    · rw [if_neg (not_not.2 hf), if_pos hf] <;> rfl
    · rw [if_pos hf, if_neg hf]
  case ack =>
    refine ⟨_, congrArg Host.Outcome.next (tcmRow_applied hh rfl), ?_, ?_, ?_⟩
    · simp [ackRx, updTc]
    · intro e he
      simp only [ackRx, updTc, chan_updChan, if_true] at he
      rintro ⟨hs, ht, hq⟩
      have hno := (List.mem_filter.1 he).2
      simp [hs, ht, hq] at hno
    · intro e he hne
      simp only [ackRx, updTc, chan_updChan, if_true, await_heard]
      refine List.mem_filter.2 ⟨he, ?_⟩
      rcases hne with hne | hne <;> simp [hne]
  case deactivate =>
    refine congrArg Host.Outcome.next (tcmRow_applied hh (Prod.ext rfl ?_))
    change (s.heard c h (.deactivate r)).deactivated c r = _
    unfold deactivated
    simp only [st_heard] <;> rfl
  case silence =>
    refine congrArg (fun t => Host.Outcome.next (settle t)) (tcmRow_applied hh (Prod.ext rfl ?_))
    change (s.heard c h (.silence sn ch)).silenced c = _
    unfold silenced
    simp only [updHeath, chan_updChan, if_true, st_heard]

end Sys2Proof.Machine

/-! PROOF. The downstream frame: hunting, LOCK, maps and segments; the terminal's timers, guard and doze (R51 to R131, R430, R431). -/

namespace Sys2Proof.Machine
open State

namespace State

/-- A reading of a channel that sees neither its terminal's context, its bursts, its keys nor its counters. -/
structure Outer {β : Type} (f : ChanSt → β) : Prop where
  tc : ∀ x t, f { x with tc := t } = f x
  us : ∀ x u, f { x with us := u } = f x
  keys : ∀ x k, f { x with keys := k } = f x
  ctr : ∀ x n, f { x with ctr := n } = f x

theorem outer_rx : Outer ChanSt.rx := ⟨fun _ _ => rfl, fun _ _ => rfl, fun _ _ => rfl, fun _ _ => rfl⟩

/-! ### What a change of the terminal's state leaves of a channel -/

section
variable {β : Type} {f : ChanSt → β} (hf : Outer f) (s : State) (c i : Nat)

theorem outer_foldl {α : Type} {g : State → α → State} (h : ∀ t a, f ((g t a).chan i) = f (t.chan i)) (l : List α) :
    f ((l.foldl g s).chan i) = f (s.chan i) := view_foldl (fun t => f (t.chan i)) h l s

theorem outer_takeOut (q : Nat) (sel : Frame → Bool) (count : State → Frame → State) (h : ∀ t a, (count t a).chans = t.chans) :
    f ((s.takeOut q sel count).chan i) = f (s.chan i) :=
  chans_takeOut (fun l => f (Tab.get ({} : ChanSt) l i)) s q sel count fun t a => by rw [h]

theorem outer_bondMemberDown : f ((s.bondMemberDown c).chan i) = f (s.chan i) := by
  unfold bondMemberDown
  split
  · rfl
  · generalize List.range 128 = l
    refine outer_foldl s i (fun t l => ?_) l
    dsimp only
    split
    · exact outer_takeOut _ _ _ _ _ fun _ _ => rfl
    · rfl

include hf

theorem outer_updTc (g : ChanTc → ChanTc) : f ((s.updTc c g).chan i) = f (s.chan i) := by
  by_cases h : i = c <;> simp [updTc, h, hf.tc]

theorem outer_updUs (g : ChanUs → ChanUs) : f ((s.updUs c g).chan i) = f (s.chan i) := by
  by_cases h : i = c <;> simp [updUs, h, hf.us]

theorem outer_updKeys (g : ChanKeys → ChanKeys) : f ((s.updKeys c g).chan i) = f (s.chan i) := by
  by_cases h : i = c <;> simp [updKeys, h, hf.keys]

theorem outer_bump (k : ChanCtr) (n : Nat) : f ((s.bump c k n).chan i) = f (s.chan i) := by
  by_cases h : i = c <;> simp [bump, h, hf.ctr]

theorem outer_setState (new : TState) (x : Cause) : f ((s.setState c new x).chan i) = f (s.chan i) := by
  unfold setState
  extract_lets old s1 s2 s3
  have h1 : f (s1.chan i) = f (s.chan i) := outer_updTc hf ..
  have h2 : f (s2.chan i) = f (s1.chan i) := by
    dsimp only [s2]
    split
    · rfl
    · rw [chan, chans_leaveOperating]
      exact outer_updTc hf ..
  have h3 : s3.chan i = s2.chan i := by
    dsimp only [s3]
    split
    · rfl
    · exact chan_event ..
  split
  · rw [chan_clearAlarm, h3, h2, h1]
  · rw [h3, h2, h1]

theorem outer_releaseUs : f ((s.releaseUs c).chan i) = f (s.chan i) := by
  have hact : f ((s.endActivation c).chan i) = f (s.chan i) := by
    unfold endActivation
    dsimp only
    rw [outer_updUs hf]
    split
    · unfold sendStream
      dsimp only
      split
      · exact outer_updUs hf ..
      · rw [chan_emit, outer_updUs hf]
    · rfl
  unfold releaseUs
  split
  · rfl
  · rw [chan, chans_of_apart (apart_requestRelease ..)]
    exact hact

theorem outer_cancelBursts : f ((s.cancelBursts c).chan i) = f (s.chan i) := by
  unfold cancelBursts
  extract_lets gone s1 s2
  have h1 : s1.chan i = s.chan i := view_foldl (State.chan · i) (fun t b => view_foldl (State.chan · i) (fun _ _ => chan_updQueue ..) _ _) gone s
  have h2 : f (s2.chan i) = f (s.chan i) := by rw [outer_updUs hf, h1]
  split
  · exact h2
  · rw [outer_releaseUs hf, h2]

theorem outer_fillKeyed : f ((s.fillKeyed c).chan i) = f (s.chan i) := by
  refine outer_foldl s i (fun t b => ?_) _
  dsimp only
  rw [outer_updUs hf]
  refine outer_foldl t i (fun t g => ?_) _
  rw [outer_bump hf]
  exact outer_takeOut _ _ _ _ _ fun _ _ => chans_countDeq ..

theorem outer_clearContext : f ((s.clearContext c).chan i) = f (s.chan i) := by
  unfold clearContext clearKeys
  rw [outer_updTc hf, outer_updUs hf, chan_clearAlarm, outer_updKeys hf, outer_fillKeyed hf]

theorem outer_enterListen (x : Cause) : f ((s.enterListen c x).chan i) = f (s.chan i) := by
  unfold enterListen dropEpochs
  rw [outer_setState hf, outer_updTc hf, outer_clearContext hf, outer_cancelBursts hf]

theorem outer_enterHoldover (h : HoldInfo) : f ((s.enterHoldover c h).chan i) = f (s.chan i) := by
  unfold enterHoldover
  dsimp only [chanEvent]
  rw [chan_event, outer_bump hf, outer_setState hf, outer_updTc hf, outer_cancelBursts hf]

theorem outer_syncLost (h : HoldInfo) : f ((s.syncLost c h).chan i) = f (s.chan i) := by
  have hlisten : ∀ x, f ((s.toListen c x).chan i) = f (s.chan i) := fun x => by
    unfold toListen
    exact (outer_bondMemberDown ..).trans (outer_enterListen hf ..)
  unfold syncLost
  split
  · rfl
  · split
    · exact hlisten _
    · exact hlisten _
    · exact hlisten _
    · exact outer_enterHoldover hf ..
    · exact outer_enterHoldover hf ..
    · rfl

end

end State

namespace State

/-- A frame in LOCK, in every state but DOZE and with no doze granted, is received. -/
theorem doFrame_locked {s : State} {c : Nat} (f : DsFrame) (ho : (s.chan c).tc.opened = true) (hst : (s.chan c).tc.st ≠ .doze)
    (hsl : (s.chan c).tc.sleepAt = none) (hup : s.alive (dsDom c) = true) (hl : (s.chan c).rx.lock = true) :
    s.doFrame c f = s.lockFrame c f (s.now + f.off20 * 20) := by
  unfold doFrame
  simp only [ho, hup, hl, hsl, Bool.not_true, Bool.or_self, Bool.false_eq_true, if_false]
  split
  · rename_i h _
    exact absurd h hst
  · rfl

/-- The fourth bad header in a row ends LOCK. -/
theorem lockFrame_ends {s : State} {c : Nat} (f : DsFrame) (tds : Nat) (hg : f.hdr.good = false) (hbad : 3 ≤ (s.chan c).rx.badFrames) :
    ∃ t h, s.lockFrame c f tds = State.loseLock t c h := by
  unfold lockFrame
  extract_lets h r hold s1 s2 s3 s4 s5 s6 s7 s8 s9
  exact ⟨s9, hold, if_pos (by simp [h, hg, r, hbad])⟩

theorem rx_loseLock (s : State) (c : Nat) (h : HoldInfo) : ((s.loseLock c h).chan c).rx = (((s.dropMap c).bump c .dsFrameLockLoss).chan c).rx.unlock := by
  unfold loseLock
  dsimp only
  rw [outer_syncLost outer_rx]
  simp [updRx]

end State

/-- Settles O5: a candidate by its hits, a frame by the lock; the end of LOCK leaves an unlocked receiver. -/
theorem huntAndLockFollowFrames : Obligations.HuntAndLockFollowFrames := by
  unfold Obligations.HuntAndLockFollowFrames
  refine ⟨fun c pos s hh hk => ?sync, fun c pos f s k hh hk hg => ?expires, fun c pos f s k hh hk hg h0 => ?confirms, fun c pos f s k hh hk hg h0 => ?locks,
    fun c f s ho hst hsl hup hl => ?received, fun c f s ho hst hsl hup hl hg hbad => ?ends⟩
  case sync =>
    refine congrArg Host.Outcome.next ((if_neg ?_).trans ?_)
    · simpa [hh] using hk
    · by_cases h8 : (s.chan c).rx.candidates.length < 8
      · rw [if_pos h8]
        exact if_neg (Nat.not_le.2 h8)
      · rw [if_neg h8]
        exact if_pos (Nat.not_lt.1 h8)
  case expires | confirms | locks =>
    refine congrArg Host.Outcome.next ?_
    simp [doCandidate, hh, hk, *]
  case received => exact congrArg Host.Outcome.next (doFrame_locked f ho hst hsl hup hl)
  case ends =>
    refine ⟨_, congrArg Host.Outcome.next (doFrame_locked f ho hst hsl hup hl), ?_⟩
    obtain ⟨t, h, ht⟩ := lockFrame_ends f (s.now + f.off20 * 20) hg hbad
    rw [ht, rx_loseLock]
    exact ⟨rfl, rfl, rfl, rfl⟩

namespace State
section
variable {s : State} {c : Nat} {bs : List Byte} {f : CurFrame} (hcur : (s.chan c).rx.cur = some f) (hpay : f.payload = true)
  (ho : (s.chan c).tc.opened = true) (hup : s.alive (dsDom c) = true) (hpos : f.pos < f.length) (hs : f.searching = false)
include hcur hpay ho hup hpos hs

/-- A segment with a good header that no failed codeword touches and that ends within its window. -/
theorem doSegment_parsed (hgood : (segHdr bs).good = true) (hedge : f.pos + (segHdr bs).span ≤ f.edgeAfter f.pos)
    (hfail : f.failedIn f.pos (min (f.pos + (segHdr bs).span) f.length) = none) :
    let t := s.updRx c fun r => { r with cur := r.cur.map fun x => { x with pos := (segHdr bs).next f.pos } }
    s.doSegment c bs = if (segHdr bs).type = 2 then t.bump c .dsSegFill else if 2 < (segHdr bs).type then t.bump c .dsSegTypeErr
      else t.acceptSeg c f.pos f.sfc (segHdr bs) bs := by
  simp only [doSegment, hcur, hpay, ho, hup, hs, hgood, hfail, decide_eq_false (Nat.not_le.2 hpos), if_neg (Nat.not_lt.2 hedge), Bool.not_true,
    Bool.or_self, Bool.false_eq_true, if_false]

/-- A header with a bad checksum. -/
theorem doSegment_badHeader (hgood : (segHdr bs).good = false) :
    s.doSegment c bs = (s.bump c .dsSegHdrCrcErr).beginSearch c f bs (boundaryAt (f.pos + 1)) := by
  simp only [doSegment, hcur, hpay, ho, hup, hs, hgood, decide_eq_false (Nat.not_le.2 hpos), Bool.not_true, Bool.not_false, Bool.or_self,
    Bool.false_eq_true, if_false, if_true]

end
end State

/-- Settles O6: the map by its frame's codewords and checksum, a segment by its header. -/
theorem mapsAndSegmentsAreTaken : Obligations.MapsAndSegmentsAreTaken := by
  unfold Obligations.MapsAndSegmentsAreTaken
  refine ⟨fun c entries crc s f => ?map, fun c bs s f => ?parsed, fun c bs s f => ?search⟩
  case map =>
    intro es good t own hcur hph hfec hcrc
    have hbad : (f.cwErrs.any fun e => decide (8 < e.2) && decide (f.map.start ≤ e.1) && decide (e.1 < f.map.start + f.map.words)) = false := by
      rw [List.any_eq_false]
      intro e he
      simp only [Bool.and_eq_true, decide_eq_true_eq]
      rintro ⟨⟨h8, hlo⟩, hhi⟩
      have := hfec e he h8
      omega
    refine congrArg Host.Outcome.next ?_
    unfold doMapHandOff
    simp only [hcur]
    exact (if_neg (not_not.2 hph)).trans ((if_neg (Bool.eq_false_iff.1 hbad)).trans (if_neg (not_not.2 hcrc)))
  case parsed =>
    intro h t hcur hpay ho hup hpos hs hgood hedge hfail
    exact congrArg (fun t => Host.Outcome.next (settle t)) (doSegment_parsed hcur hpay ho hup hpos hs hgood hedge hfail)
  case search =>
    intro next hcur hpay ho hup hpos hs hgood
    exact congrArg (fun t => Host.Outcome.next (settle t)) (doSegment_badHeader hcur hpay ho hup hpos hs hgood)

/-- Settles O9: each event by the state that it finds. -/
theorem terminalTimersGuardAndDozeAct : Obligations.TerminalTimersGuardAndDozeAct := by
  unfold Obligations.TerminalTimersGuardAndDozeAct
  refine ⟨fun c s h => ?lock, fun c s h => ?announce, fun c s h => ?range, fun c s h => ?hold, fun c s n => ?resend, fun c x s ho hup hg hw => ?guard,
    fun c s ho ha => ?wake, fun c s hin hauto hq hs => ?idle⟩
  case lock | announce | range => exact congrArg Host.Outcome.next (if_pos h)
  case hold =>
    refine congrArg Host.Outcome.next ((if_pos h).trans ?_)
    unfold chanEvent chanParts
    rw [outer_bump (f := ChanSt.owner) ⟨fun _ _ => rfl, fun _ _ => rfl, fun _ _ => rfl, fun _ _ => rfl⟩]
  case resend =>
    intro due h
    refine congrArg Host.Outcome.next ?_
    simp only [doTcmResend, h]
    rfl
  case guard =>
    refine congrArg (fun t => Host.Outcome.next (settle t)) ((if_neg ?_).trans ?_)
    · have hcov : ((s.chan c).us.windows.any fun w => decide (w.from_ ≤ x) && decide (x ≤ w.to_)) = false := by
        rw [List.any_eq_false]
        intro w hm
        have := hw w hm
        simp only [Bool.and_eq_true, decide_eq_true_eq]
        omega
      simp [ho, hup, hg, hcov]
    · simp [chanParts, updHeath, bump]
  case wake => exact congrArg Host.Outcome.next (if_pos (by simp [ho, ha]))
  case idle =>
    refine congrArg Host.Outcome.next (if_pos ?_)
    obtain ⟨ho, hst⟩ := Bool.and_eq_true_iff.1 hin
    have hbusy : ((List.range 128).any (fun l => !(s.queue (128 * c + l)).frames.isEmpty)
        || s.trib.streams.any fun t => t.2.en && t.2.chan == c.val) = false := by
      rw [Bool.or_eq_false_iff, List.any_eq_false, List.any_eq_false]
      refine ⟨fun l hl => ?_, fun x hx => ?_⟩
      · simp [hq l (List.mem_range.1 hl)]
      · simpa using hs x hx
    simp only [ho, hst, hauto, hbusy]
    rfl

end Sys2Proof.Machine

/-! PROOF. The firmware, fuse and attestation commands (R461, R475, R481 to R485). -/

namespace Sys2Proof.Machine
open State

section
variable (s : State) (c : RawCmd)

@[simp] theorem updating_taken : (s.taken c).updating = s.updating := frame_taken State.updating (fun _ _ _ => rfl) s c
@[simp] theorem quoting_taken : (s.taken c).quoting = s.quoting := frame_taken State.quoting (fun _ _ _ => rfl) s c
@[simp] theorem identLost_taken : (s.taken c).identLost = s.identLost := frame_taken State.identLost (fun _ _ _ => rfl) s c
@[simp] theorem recoveryPasses_taken : recoveryPasses (s.taken c) = recoveryPasses s := frame_taken recoveryPasses (fun _ _ _ => rfl) s c
@[simp] theorem bootRecBytes_taken : (s.taken c).bootRecBytes = s.bootRecBytes := frame_taken State.bootRecBytes (fun _ _ _ => rfl) s c
@[simp] theorem imageDigests_taken : (s.taken c).imageDigests = s.imageDigests := frame_taken State.imageDigests (fun _ _ _ => rfl) s c

end

theorem recUnits_le {m n : Nat} (h : m ≤ n) : recUnits m ≤ recUnits n := by
  unfold recUnits ceilDiv
  omega

/-- A completion ring with room for a long reply has room for a shorter one (R525). -/
theorem takes_less {s : State} {c : RawCmd} {m n : Nat} (h : s.Takes c m) (hn : n ≤ m) : s.Takes c n :=
  { h with room := (recUnits_le (max_le_max hn le_rfl)).trans h.room }

/-- Settles O42: each command passes its checks and begins its operation, or replies. -/
theorem firmwareCommandsApply : Obligations.FirmwareCommandsApply := by
  refine ⟨fun hd p s => ?stage, fun hd p s => ?verify, fun hd p s g => ?activate, fun hd s => ?svn, fun hd p s => ?quote, fun hd s => ?status,
    fun hd p s => ?pinmap, fun hd s => ?cert⟩
  case stage =>
    intro c slot len ht hlen hlen' hep hfl hz hfit hover hfree
    refine next_checked_pending ht rfl (by simp [hlen, hlen']) (right0_ep hep) (firstBad_none ?_ hz) (if_neg ?_) rfl ?_
    · simp only [List.mem_cons, List.not_mem_nil, or_false, fw_taken]
      rintro f (rfl | rfl)
      · exact decide_eq_false hfl.not_gt
      · rw [Bool.or_eq_false_iff]
        exact ⟨decide_eq_false hfit.not_gt, hover⟩
    · rw [updating_taken, hfree]
      decide
    · split <;> simp [c]
  case verify =>
    intro c ht hlen hep hfl hfree
    refine next_checked_pending ht rfl (beq_iff_eq.2 hlen) (right0_ep hep) (firstBad_nil ?_) (if_neg ?_) rfl (by simp [c])
    · simpa using hfl
    · rw [updating_taken, hfree]
      decide
  case activate =>
    intro c mask ht hlen hep hfl hpersist hz hver hsvn hfree
    refine next_checked_pending ht rfl (beq_iff_eq.2 hlen) (right0_ep hep) (firstBad_none ?_ hz) ?_ rfl (by simp [c])
    · simp only [List.mem_cons, List.not_mem_nil, or_false]
      rintro f rfl
      rw [Bool.or_eq_false_iff]
      refine ⟨decide_eq_false hfl.not_gt, ?_⟩
      cases hb : bitAt p 0 1 with
      | false => rfl
      | true =>
        obtain ⟨hm, hall⟩ := hpersist hb
        simp [hm, hall]
    · simp only [fw_taken, hver, updating_taken, hfree, if_neg hsvn.not_gt]
      exact if_neg (by decide)
  case svn =>
    intro c ht hep hpush hrec hfree
    refine next_checked_pending ht rfl rfl (right0_ep hep) rfl ((if_neg ?_).trans ((if_neg ?_).trans ?_)) rfl
      ((cmdView_startOp _ _ _ _).trans rfl)
    · simp [hpush, hrec]
    · rw [updating_taken, hfree]
      decide
    · rw [draws_taken]
  case quote =>
    intro c ht hlen hfree
    by_cases hid : s.identLost = true
    · rw [if_pos hid]
      refine congrArg Host.Outcome.next (hostPost_fail (code := stState) (detail := 0) ht (show (0x0E07 : BitVec 16) ≠ 1 by decide)
        (show (0x0E07 : BitVec 16) ≠ 2 by decide) ?_ (by decide) (Or.inl (by simp [lacksDomain])))
      refine congrArg some ((checked_ok _ _ (beq_iff_eq.2 hlen) rfl rfl).trans (if_pos ?_))
      rw [identLost_taken]
      exact hid
    · rw [if_neg hid]
      refine next_checked_pending ht rfl (beq_iff_eq.2 hlen) rfl rfl ((if_neg ?_).trans (if_neg ?_)) rfl (by simp [c])
      · rw [identLost_taken]
        exact hid
      · rw [quoting_taken, hfree]
        decide
  case status =>
    intro c f slot reply ht
    refine next_checked ht rfl rfl rfl rfl ?_ rfl (Nat.le_refl _) rfl
    simp only [fw_taken, bootRecBytes_taken, imageDigests_taken]
    rfl
  case pinmap =>
    intro c named ht hlen hep hbits hfree
    refine next_checked ht rfl (beq_iff_eq.2 hlen) (right0_ep hep) (firstBad_nil ?_) (if_neg ?_) rfl (Nat.le_refl 0)
      (cmdView_foldl (fun _ _ => by simp) _ _)
    · simp only [List.mem_cons, List.not_mem_nil, or_false]
      rintro f rfl
      exact decide_eq_false hbits.not_ge
    · simp only [List.any_eq_true, pin_taken]
      rintro ⟨i, hi, hlocked⟩
      rw [hfree i hi] at hlocked
      exact absurd hlocked (by decide)
  case cert =>
    intro c reply ht
    by_cases hid : s.identLost = true
    · rw [if_pos hid]
      refine congrArg Host.Outcome.next (hostPost_fail (code := stState) (detail := 0) (takes_less ht (Nat.zero_le _)) (show (0x0E08 : BitVec 16) ≠ 1 by decide)
        (show (0x0E08 : BitVec 16) ≠ 2 by decide) ?_ (by decide) (Or.inl (by simp [lacksDomain])))
      refine congrArg some ((checked_ok _ _ rfl rfl rfl).trans (if_pos ?_))
      rw [identLost_taken]
      exact hid
    · rw [if_neg hid]
      refine next_checked ht rfl rfl rfl rfl (if_neg ?_) rfl ?_ rfl
      · rw [identLost_taken]
        exact hid
      · simp only [reply, List.length_append, length_leBytes, Config.devCert, Config.caCert, List.length_take]
        omega

end Sys2Proof.Machine

/-! PROOF. The device commands and RESYNC (R442, R466, R532, R548); PART.ASSIGN of a resource that no partition owns. -/

namespace Sys2Proof.Machine
namespace State

/-- A command in its order and in range is judged by its application. -/
theorem judge_taken {s : State} {c : RawCmd} {n : Nat} (h : s.Takes c n)
    (hk : (hostApply c.opcode.toNat c.hdr c.payload (s.taken c)).isSome = true) :
    (s.taken c).judge c (s.ep c.hdr.ep).expSeq = (s.taken c).applyCmd c := by
  have hdue : (s.ep c.hdr.ep).expSeq.filter (fun n => n != c.hdr.seq) = none := by
    rcases h.seq with hs | hs <;> simp [hs]
  unfold judge
  rw [if_neg (by simpa [Option.isSome_iff_ne_none] using hk), hdue]
  simp [h.header]

/-- SUMMARY.GET, whose room is that of the alarms (R532). -/
theorem hostPost_summaryGet {s : State} {c : RawCmd} (h : s.Takes c (2384 + 16 * (s.alarmsOf c.hdr.ep).length)) (hop : c.opcode = 2)
    (hp : c.payload = []) : s.hostPost c = (s.taken c).okOf c ((s.taken c).summary c.hdr.ep) := by
  have happ : hostApply c.opcode.toNat c.hdr c.payload (s.taken c) = some (done (s.taken c) ((s.taken c).summary c.hdr.ep)) := by
    rw [hop, hp]
    rfl
  have hj : (s.taken c).judge c (s.ep c.hdr.ep).expSeq = done (s.taken c) ((s.taken c).summary c.hdr.ep) := by
    rw [judge_taken h (by rw [happ]; rfl)]
    unfold applyCmd
    rw [happ, hop]
    rfl
  have hroom : unitsNeeded c (done (s.taken c) ((s.taken c).summary c.hdr.ep)) s c.hdr.ep ≤ s.cmpRoom c.hdr.ep := by
    unfold unitsNeeded
    rw [if_pos hop]
    exact (recUnits_le (le_max_left _ _)).trans h.room
  rw [doorbell_posted h, settle_posted h.still (ringStep_posted h (by rw [hop]; decide) hj hroom)
    (still_finish (still_taken h.still c) _ _ _ _ _)]
  rfl

/-! ### RESYNC -/

/-- The endpoint as RESYNC leaves it: its epoch, SEQ behind its own, and no reset to be told of (R532). -/
def resynced (c : RawCmd) (e : EpSt) : EpSt := { e with epoch := c.hdr.epoch, expSeq := none }

theorem still_of_resynced {s : State} {c : RawCmd} {k : Nat} (h : (s.updEp k (resynced c)).Still) : s.Still := by
  intro j hj
  have := h j hj
  unfold EpIdle at *
  rw [ep_updEp] at this
  split at this
  case isTrue he =>
    subst he
    exact this
  case isFalse => exact this

/-- The doorbell of a command that an empty ring has room for posts it. -/
theorem hostPost_empty {s : State} {c : RawCmd} (hup : s.epUp c.hdr.ep = true) (hrun : (s.ep c.hdr.ep).run = true)
    (hempty : (s.ep c.hdr.ep).cmdCi = (s.ep c.hdr.ep).cmdPi) (hfits : unitsOf c ≤ 2 ^ (s.ep c.hdr.ep).cmdSize) (hhead : headerBad c = false) :
    s.hostPost c = (s.postedSt c).settle := by
  have hunits : unitsOf c < 2 ^ 32 := (units_lt hhead).trans_lt (by decide)
  have hdiff (x : BitVec 32) : (x + BitVec.ofNat 32 (unitsOf c) - x).toNat = unitsOf c := by
    rw [BitVec.add_comm, BitVec.add_sub_cancel, BitVec.toNat_ofNat, Nat.mod_eq_of_lt hunits]
  have hin : ¬ (unitsOf c < 0 ∨ 2 ^ (s.ep c.hdr.ep).cmdSize < unitsOf c) := by omega
  unfold hostPost doDoorbell
  simp only [hup, hrun, hempty, hdiff, BitVec.sub_self, BitVec.toNat_zero, if_neg hin, Bool.not_true, Bool.or_self, Bool.false_eq_true,
    if_false, wholeIn, Nat.le_refl, if_true, List.map_cons, List.map_nil, List.sum_cons, List.sum_nil, Nat.add_zero]
  rfl

/-- The state behind RESYNC: its epoch taken, the index block written (R532). -/
def resyncSt (s : State) (c : RawCmd) : State :=
  ((s.taken c).updEp c.hdr.ep fun e => { e with epoch := c.hdr.epoch, seqReset := false }).writeIndex c.hdr.ep

/-- RESYNC at the head of a ring of which it is the only command. -/
theorem doResync_fetched {s : State} {c : RawCmd} (hi : s.EpIdle c.hdr.ep) (hnew : c.hdr.epoch ≠ (s.ep c.hdr.ep).epoch)
    (hhead : headerBad c = false) (hp : c.payload = [])
    (hroom : recUnits (2384 + 16 * (s.alarmsOf c.hdr.ep).length) ≤ s.cmpRoom c.hdr.ep) :
    (s.fetchedSt c).doResync c.hdr.ep 0 = some ((s.resyncSt c).okOf c ((s.resyncSt c).summary c.hdr.ep)) := by
  have hep := ep_fetchedSt s c
  have htaken := taken_fetchedSt (c := c) hi (fun e => { e with waiting := [], fetched := 0, expSeq := some (c.hdr.seq + 1) })
    fun e _ _ _ => rfl
  obtain ⟨-, -, hkept, happ, -, -⟩ := hi
  have hcmp : (s.fetchedSt c).cmpRoom c.hdr.ep = s.cmpRoom c.hdr.ep := by
    unfold cmpRoom
    rw [hep]
  have halarms : (s.fetchedSt c).alarmsOf c.hdr.ep = s.alarmsOf c.hdr.ep := rfl
  unfold doResync
  simp only [hep, List.getElem?_cons_zero, hkept, List.take_zero, List.append_nil, List.foldl_nil, hcmp, halarms]
  rw [if_neg (by simp [hnew, hhead, hp]), if_neg (by simp [happ, hroom])]
  unfold resyncSt okOf
  rw [← htaken, updEp_updEp, updEp_updEp]
  refine congrArg (fun t : State => some ((t.writeIndex c.hdr.ep).finish c.hdr.ep c stOk 0 ((t.writeIndex c.hdr.ep).summary c.hdr.ep)))
    (updEp_congr _ _ _ _ ?_)
  simp [hep, hkept]

/-- RESYNC on a ring that takes it. -/
theorem hostPost_resync {s : State} {c : RawCmd} (h : (s.updEp c.hdr.ep (resynced c)).Takes c (2384 + 16 * (s.alarmsOf c.hdr.ep).length))
    (hop : c.opcode = 1) (hp : c.payload = []) (hnew : c.hdr.epoch ≠ (s.ep c.hdr.ep).epoch) :
    s.hostPost c = (s.resyncSt c).okOf c ((s.resyncSt c).summary c.hdr.ep) := by
  have hstill := still_of_resynced h.still
  have hi := hstill c.hdr.ep (by simp [allParts])
  have hself : (s.updEp c.hdr.ep (resynced c)).ep c.hdr.ep = resynced c (s.ep c.hdr.ep) := by simp
  obtain ⟨-, hup, hrun, hready, hdev, hempty, hfits, -, -, hhead, hroom⟩ := h
  have hcmp : (s.updEp c.hdr.ep (resynced c)).cmpRoom c.hdr.ep = s.cmpRoom c.hdr.ep := by
    unfold cmpRoom
    rw [hself]
    rfl
  have hup' : s.epUp c.hdr.ep = true := by
    unfold epUp at hup ⊢
    rw [hself] at hup
    exact hup
  rw [hself] at hrun hempty hfits
  have hdone := doResync_fetched hi hnew hhead hp (((recUnits_le (le_max_left _ _)).trans hroom).trans_eq hcmp)
  have hep := ep_fetchedSt s c
  have hat : (s.fetchedSt c).resyncAt c.hdr.ep = some 0 := by simp [resyncAt, hep, hop, List.findIdx_cons]
  have hserv : (s.postedSt c).serving c.hdr.ep = true := by
    unfold epUp at hup'
    simp only [serving, epUp, postedSt, ep_updEp, if_true, fw_updEp, Bool.and_eq_true]
    exact ⟨⟨Bool.and_eq_true_iff.1 hup', hrun⟩, hready⟩
  have hring : (s.postedSt c).ringStep c.hdr.ep = some ((s.resyncSt c).okOf c ((s.resyncSt c).summary c.hdr.ep)) := by
    unfold ringStep
    rw [hserv, show (s.postedSt c).afterDevReset c.hdr.ep = false by simp [afterDevReset, postedSt, show s.rst.devReset = none from hdev]]
    simp only [Bool.not_true, Bool.or_self, Bool.false_eq_true, if_false, fetch_postedSt hi hempty, hat]
    exact hdone
  rw [hostPost_empty hup' hrun hempty hfits hhead, settle_posted hstill hring]
  refine still_finish (still_writeIndex (still_updEp (still_taken hstill c) _ _ fun _ => ?_) _) _ _ _ _ _
  simp

end State
open State

@[simp] theorem rstCause_taken (s : State) (c : RawCmd) : (s.taken c).rstCause = s.rstCause := frame_taken State.rstCause (fun _ _ _ => rfl) s c

/-- Settles O1: RESYNC and SUMMARY.GET by their own paths, each of the others passes its checks. -/
theorem deviceAndSummaryCommandsApply : Obligations.DeviceAndSummaryCommandsApply := by
  refine ⟨fun hd s => ?resync, fun hd s => ?summary, fun hd s => ?info, fun hd p s => ?reset, fun hd p s => ?cause, fun hd p s => ?policy⟩
  case resync =>
    intro c k t ht hnew
    exact congrArg Host.Outcome.next (hostPost_resync ht rfl rfl hnew)
  case summary =>
    intro c ht
    exact congrArg Host.Outcome.next (hostPost_summaryGet ht rfl rfl)
  case info =>
    intro c ht
    refine next_checked ht rfl rfl rfl rfl ?_ rfl ?_ rfl
    · simp only [rst_taken, identLost_taken, fw_taken, rstCause_taken]
      rfl
    · simp
  case reset =>
    intro c ht hlen hep hval
    refine next_checked ht rfl (beq_iff_eq.2 hlen) (right0_ep hep) (firstBad_nil ?_) rfl rfl (Nat.le_refl 0) (by simp [c])
    simpa using hval
  case cause =>
    intro c ht hlen hep hval
    refine next_checked ht rfl (beq_iff_eq.2 hlen) (right0_ep hep) (firstBad_nil ?_) rfl rfl (Nat.le_refl 0) (by simp [c])
    simpa using hval
  case policy =>
    intro c ht hlen hep hval
    refine next_checked ht rfl (beq_iff_eq.2 hlen) (right0_ep hep) (firstBad_nil ?_) rfl rfl (Nat.le_refl 0) (by simp [c])
    simpa using hval

/-! ### An owner that is no partition -/

/-- The header of a command of endpoint 0. -/
def header0 : CmdHdr := { ep := 0, flags := 0, tag := 0, seq := 0, epoch := 0, rsv := 0 }
/-- Channel 0 is owned by a partition 8 (no partition has that number), at whose endpoint a command is applying. -/
def strayOwner : State := { State.reset with
  eps := [(0, { link := true, run := true, cmdSize := 14, cmpSize := 14, evtSize := 14 }), (8, { applying := some ⟨0x0101, header0, []⟩ })]
  fw := { ready := true }
  chans := [(0, { owner := 8 })]
  pwr := { doms := [(3, { ph := .on, inReset := false, fenced := false })] } }

theorem strayOwner_takes : strayOwner.Takes ⟨0x0101, header0, zeros 4⟩ 0 where
  still := by
    intro k hk
    unfold EpIdle
    revert k
    decide
  up := by decide
  run := by decide
  ready := by decide
  noReset := by decide
  empty := by decide
  fits := by decide
  epoch := by decide
  seq := by decide
  header := by decide
  room := by decide

/-- PART.ASSIGN of that channel waits for the command applying at endpoint 8. -/
theorem strayOwner_waits : ((strayOwner.hostPost ⟨0x0101, header0, zeros 4⟩).ep 0).applying.isSome = true := by decide +kernel

theorem strayOwner_free : strayOwner.assignBarred 0 0 0 = false := by decide

/-- Refutes O2: an owner that the model's state holds is any number, and PART.ASSIGN goes on applying while the endpoint of that number
does, which `State.Takes` asks of the eight endpoints only. -/
theorem not_partitionCommandsApply : ¬ Obligations.PartitionCommandsApply := by
  rintro ⟨hassign, -⟩
  have hok := hassign header0 (zeros 4) strayOwner strayOwner_takes rfl rfl (by decide) (by decide) (by decide) (by decide) strayOwner_free
  have hstill : (((strayOwner.taken ⟨0x0101, header0, zeros 4⟩).assign (u8 (zeros 4) 0) (u8 (zeros 4) 1) (u8 (zeros 4) 2)).okOf
      ⟨0x0101, header0, zeros 4⟩).Still :=
    still_finish (still_of_cmdView (still_taken strayOwner_takes.still _) (cmdView_assign ..)) _ _ _ _ _
  obtain ⟨-, -, -, hdone, -, -⟩ := hstill 0 (by decide)
  have hwaits := strayOwner_waits
  rw [show strayOwner.hostPost _ = _ from Host.Outcome.next.inj hok] at hwaits
  exact absurd hwaits (by rw [show ((State.okOf _ _).ep 0).applying = none from hdone]; decide)

end Sys2Proof.Machine

/-! PROOF. Channels open, close, wake, doze and reset on command (R89, R90, R123, R132, R419, R439, R550). -/

namespace Sys2Proof.Machine
namespace State

/-! ### A command that goes on applying -/

/-- A round does nothing at endpoint k. -/
def Resting (s : State) (k : Nat) : Prop := s.endApplying k = s ∧ ∀ n, drain k n s = s

theorem resting_idle {s : State} {k : Nat} (h : s.EpIdle k) : s.Resting k := ⟨endApplying_idle h, drain_idle h⟩

theorem foldl_resting {t : State} (ht : ∀ k ∈ allParts, t.Resting k) (l : List Nat) (hl : ∀ k ∈ l, k ∈ allParts) :
    (l.foldl (fun s k =>
      let s := s.endApplying k
      drain k ((s.ep k).waiting.length + (s.ep k).kept.length + 2) s) t) = t := by
  induction l with
  | nil => rfl
  | cons k l ih =>
    obtain ⟨hend, hdrain⟩ := ht k (hl k List.mem_cons_self)
    simp only [List.foldl_cons, hend, hdrain]
    exact ih fun j hj => hl j (List.mem_cons_of_mem _ hj)

theorem round_resting {t : State} (ht : ∀ k ∈ allParts, t.Resting k) : t.settleRound = t := foldl_resting ht _ fun _ h => h

/-- A posted command that its ring settles, into a state at rest. -/
theorem settle_posted_resting {s t : State} {c : RawCmd} (h : s.Still) (hs : (s.postedSt c).ringStep c.hdr.ep = some t)
    (ht : ∀ k ∈ allParts, t.Resting k) : (s.postedSt c).settle = t := by
  have hround (l : List Nat) (hl : ∀ j ∈ l, j ∈ allParts) : (l.foldl (fun s k =>
      let s := s.endApplying k
      drain k ((s.ep k).waiting.length + (s.ep k).kept.length + 2) s) (s.postedSt c))
      = if (c.hdr.ep : Nat) ∈ l then t else s.postedSt c := by
    induction l with
    | nil => rfl
    | cons j l ih =>
      have hj := hl j List.mem_cons_self
      have hl' : ∀ i ∈ l, i ∈ allParts := fun i hi => hl i (List.mem_cons_of_mem _ hi)
      by_cases hne : j = c.hdr.ep
      · subst hne
        obtain ⟨-, -, -, ha, hm, hx⟩ := h c.hdr.ep hj
        have hend : (s.postedSt c).endApplying c.hdr.ep = s.postedSt c := by simp [endApplying, postedSt, ha, hm, hx]
        have hdrain (n : Nat) : drain c.hdr.ep (n + 1) (s.postedSt c) = t := by
          simp only [drain, hs]
          exact (ht _ hj).2 n
        simp only [List.foldl_cons, hend, hdrain]
        rw [if_pos List.mem_cons_self, foldl_resting ht l hl']
      · obtain ⟨hend, hdrain⟩ := resting_idle (epIdle_postedSt (c := c) h hj hne)
        simp only [List.foldl_cons, hend, hdrain]
        rw [ih hl']
        simp [Ne.symm hne]
  have hone : (s.postedSt c).settleRound = t := by
    unfold settleRound
    rw [hround allParts fun _ h => h, if_pos (by simp [allParts])]
  unfold settle
  rw [hone, round_resting ht, round_resting ht]

/-- An endpoint rests while the command applying at it cannot go on. -/
theorem resting_applying {s : State} {k : Nat} {c : RawCmd} (hw : (s.ep k).waiting = []) (hf : (s.ep k).fetched = 0)
    (ha : (s.ep k).applying = some c) (hm : (s.ep k).mboxApplying = none) (hx : (s.ep k).mboxWait = none)
    (hres : (s.updEp k fun e => { e with applying := none }).resume c = none) : s.Resting k := by
  have hfetch : s.fetch k = s := by simp [fetch, hw]
  have hstep : s.ringStep k = none := by
    unfold ringStep
    split
    · rfl
    · simp [hfetch, resyncAt, hw, hf, ha]
  have hif : s.fetchIf k = s := by
    unfold fetchIf
    rw [hfetch, ite_self]
  refine ⟨?_, fun n => ?_⟩
  · unfold endApplying
    split
    · rfl
    · simp only [ha, hres, hm, hx]
  · cases n with
    | zero => exact hif
    | succ n => simp only [drain, hstep, hif]

/-- A posted command that its ring takes and that goes on applying. -/
theorem hostPost_applying {s t : State} {c : RawCmd} (h : s.Takes c 0) (hop : c.opcode ≠ 1) (hop2 : c.opcode ≠ 2)
    (hk : (hostApply c.opcode.toNat c.hdr c.payload (s.taken c)).isSome = true)
    (hr : (s.taken c).applyCmd c = ⟨t, stApplying, 0, []⟩) (ht : t.Still)
    (hres : ((t.updEp c.hdr.ep fun e => { e with applying := some c }).updEp c.hdr.ep fun e => { e with applying := none }).resume c = none) :
    s.hostPost c = t.updEp c.hdr.ep fun e => { e with applying := some c } := by
  have hroom : unitsNeeded c ⟨t, stApplying, 0, []⟩ s c.hdr.ep ≤ s.cmpRoom c.hdr.ep := by
    unfold unitsNeeded
    rw [if_neg hop2]
    exact h.room
  rw [doorbell_posted h, settle_posted_resting h.still (ringStep_posted h hop ((judge_taken h hk).trans hr) hroom)]
  · rfl
  · intro j hj
    obtain ⟨hw, hf, hkept, ha, hm, hx⟩ := ht j hj
    by_cases hne : j = c.hdr.ep
    · subst hne
      exact resting_applying (c := c) (by simp [settleResult, hw]) (by simp [settleResult, hf]) (by simp [settleResult])
        (by simp [settleResult, hm]) (by simp [settleResult, hx]) hres
    · refine resting_idle ?_
      unfold EpIdle
      simp [settleResult, hne, hw, hf, hkept, ha, hm, hx]

theorem next_hostPost_applying {s t : State} {op : BitVec 16} {hd : CmdHdr} {p : List Byte} (h : s.Takes ⟨op, hd, p⟩ 0)
    (hk : hostApply op.toNat hd p (s.taken ⟨op, hd, p⟩) = some ⟨t, stApplying, 0, []⟩) (hdom : s.lacksDomain op.toNat p = false) (ht : t.Still)
    (hres : ((t.updEp hd.ep fun e => { e with applying := some ⟨op, hd, p⟩ }).updEp hd.ep fun e => { e with applying := none }).resume
      ⟨op, hd, p⟩ = none) (hop : op ≠ 1 := by decide) (hop2 : op ≠ 2 := by decide) :
    (.next (s.hostPost ⟨op, hd, p⟩) : Host.Outcome State Fault Refusal)
      = .next (t.updEp hd.ep fun e => { e with applying := some ⟨op, hd, p⟩ }) := by
  have hdom' : (s.taken ⟨op, hd, p⟩).lacksDomain op.toNat p = false := by
    rw [← hdom]
    unfold lacksDomain
    simp only [alive_taken, openHeld_taken, pdom_taken, laneHeld_taken]
  refine congrArg Host.Outcome.next (hostPost_applying h hop hop2 (by rw [hk]; rfl) ?_ ht hres)
  unfold applyCmd
  simp only [hk, hdom', Bool.and_false, Bool.false_eq_true, if_false]

/-! ### CHAN.OPEN -/

theorem opened_setState (s : State) (c : Nat) (new : TState) (x : Cause) : ((s.setState c new x).chan c).tc.opened = true := by
  unfold setState
  extract_lets old s1 s2 s3
  have h1 : (s1.chan c).tc.opened = true := by simp [s1, updTc]
  have h2 : (s2.chan c).tc.opened = (s1.chan c).tc.opened := by
    dsimp only [s2]
    split
    · rfl
    · rw [chan, chans_leaveOperating]
      change ((s1.updTc c fun t => { t with doze := none, wakeNext := false }).chan c).tc.opened = _
      simp [updTc]
  have h3 : s3.chan c = s2.chan c := by
    dsimp only [s3]
    split
    · rfl
    · exact chan_event ..
  split
  · rw [chan_clearAlarm, h3, h2, h1]
  · rw [h3, h2, h1]

theorem opened_openChan (s : State) (c : Nat) (cfg : ChanCfg) (deb : Nat) : ((s.openChan c cfg deb).chan c).tc.opened = true := by
  unfold openChan
  rw [chan, chans_of_apart (apart_requestWake ..), chans_of_apart (apart_requestWake ..)]
  exact opened_setState ..

end State
open State

section
variable (s : State) (c : RawCmd)

@[simp] theorem chanHeld_taken (i : Nat) : (s.taken c).chanHeld i = s.chanHeld i := frame_taken (State.chanHeld · i) (fun _ _ _ => rfl) s c
@[simp] theorem reservationFits_taken (i : Nat) : (s.taken c).reservationFits i = s.reservationFits i :=
  frame_taken (State.reservationFits · i) (fun _ _ _ => rfl) s c
@[simp] theorem burstsOver_taken (i : Nat) : (s.taken c).burstsOver i = s.burstsOver i := frame_taken (State.burstsOver · i) (fun _ _ _ => rfl) s c

end

/-- Channel i is below 64, as its field demands. -/
theorem chanField_inRange {i : Nat} (h : i < 64) : ∀ f ∈ [(decide (63 < i), 0)], f.1 = false := by
  simp
  omega

/-- A CHAN.OPEN that goes on applying does so while the domain is not powered. -/
theorem resume_chanOpen {t : State} {hd : CmdHdr} {p : List Byte} {f g : EpSt → EpSt} (hpow : t.powered (dsDom (u8 p 0)) = false)
    (hopen : (t.chan (u8 p 0)).tc.opened = true) : ((t.updEp hd.ep f).updEp hd.ep g).resume ⟨0x0201, hd, p⟩ = none := by
  refine if_neg ?_
  rw [chan_updEp, chan_updEp, show ((t.updEp hd.ep f).updEp hd.ep g).powered (dsDom (u8 p 0)) = false from hpow, hopen]
  decide

/-- Settles O3: each command passes its checks; CHAN.OPEN goes on applying until its domain is powered. -/
theorem channelsOpenCloseAndOperate : Obligations.ChannelsOpenCloseAndOperate := by
  refine ⟨fun hd p s => ?opn, fun hd p s => ?closed, fun hd p s => ?close, fun hd p s => ?stats, fun hd p s => ?guard, fun hd p s => ?wake,
    fun hd p s => ?reset, fun hd p s => ?free⟩
  case opn =>
    intro c i cfg ht hlen hi hown hds hus hdeb hfl hw hw' hl hl' ha ha' hr hr' hh hh' hz hclosed htest hheld hfits
    have happ : applyChanOpen hd.ep.val p (s.taken c) = ⟨(s.taken c).openChan i cfg (u16 p 8),
        if ((s.taken c).openChan i cfg (u16 p 8)).powered (dsDom i) then stOk else stApplying, 0, []⟩ := by
      refine (checked_ok _ _ (beq_iff_eq.2 hlen) (ownsChan_owner (by simpa using hown)) (firstBad_none (fun f hf => ?_) hz)).trans
        ((if_neg ?_).trans ((if_neg ?_).trans ?_))
      · rcases List.mem_append.1 hf with h | h
        · exact feBad_inRange hi hds hus hdeb f h
        · exact timerBad_inRange hfl hw hw' hl hl' ha ha' hr hr' hh hh' f h
      · rw [chan_taken, inTest_taken, chanHeld_taken, hclosed, htest, hheld]
        decide
      · rw [reservationFits_taken, hfits]
        decide
      · rw [chan_taken]
    have hstill : ((s.taken c).openChan i cfg (u16 p 8)).Still := still_of_cmdView (still_taken ht.still c) (cmdView_openChan ..)
    by_cases hpow : ((s.taken c).openChan i cfg (u16 p 8)).powered (dsDom i) = true
    · rw [if_pos hpow] at happ
      exact (next_hostPost_ok ht (congrArg some happ) rfl (Nat.le_refl 0) hstill).trans (congrArg Host.Outcome.next (if_pos hpow).symm)
    · rw [if_neg hpow] at happ
      refine (next_hostPost_applying ht (congrArg some happ) rfl hstill (resume_chanOpen (Bool.eq_false_iff.2 hpow) ?_)).trans
        (congrArg Host.Outcome.next (if_neg hpow).symm)
      exact opened_openChan (s.taken c) i cfg (u16 p 8)
  case closed =>
    intro c i ht hlen hi hown hclosed
    refine next_checked ht rfl (beq_iff_eq.2 hlen) (ownsChan_owner (by simpa using hown)) (firstBad_nil (chanField_inRange hi))
      (if_pos ?_) rfl (Nat.le_refl 0) rfl
    rw [chan_taken, hclosed]
    rfl
  case close =>
    intro c i ht hlen hi hown hopen hover
    refine next_checked ht rfl (beq_iff_eq.2 hlen) (ownsChan_owner (by simpa using hown)) (firstBad_nil (chanField_inRange hi))
      ((if_neg ?_).trans (if_pos ?_)) rfl (Nat.le_refl 0) (by simp [c])
    · rw [chan_taken, hopen]
      decide
    · rw [burstsOver_taken]
      exact hover
  case stats =>
    intro c i ht hheld hlen hi hown hclear
    refine next_checked ht rfl (beq_iff_eq.2 hlen) (ownsChan_owner (by simpa using hown)) (firstBad_nil ?_) ?_
      (by simpa [lacksDomain] using hheld) (length_ctrBytes _ 94).le ?_
    · simp
      omega
    · simp only [chan_taken]
      rfl
    · split <;> simp [c]
  case guard =>
    intro c i ht hlen hi hown hlatch harmed
    refine next_checked ht rfl (beq_iff_eq.2 hlen) (ownsChan_owner (by simpa using hown)) (firstBad_nil (chanField_inRange hi)) (if_pos ?_) rfl
      (Nat.le_refl 0) (by simp [c])
    rw [chan_taken, hlatch, harmed]
    rfl
  case wake =>
    intro c i ht hheld hlen hi hown hopen hdoze
    refine next_checked ht rfl (beq_iff_eq.2 hlen) (ownsChan_owner (by simpa using hown)) (firstBad_nil (chanField_inRange hi)) (if_pos ?_)
      (by simpa [lacksDomain] using hheld) (Nat.le_refl 0) (by simp [c])
    rw [chan_taken, hopen, hdoze]
    rfl
  case reset =>
    intro c i ht hlen hi hown hval
    refine next_checked ht rfl (beq_iff_eq.2 hlen) (ownsChan_owner (by simpa using hown)) (firstBad_nil ?_) (if_neg (by omega)) rfl
      (Nat.le_refl 0) (by simp [c])
    simp
    omega
  case free =>
    intro c i ht hlen hi hown hval hheld
    refine next_checked ht rfl (beq_iff_eq.2 hlen) (ownsChan_owner (by simpa using hown)) (firstBad_nil ?_)
      ((if_pos hval).trans (if_pos ?_)) rfl (Nat.le_refl 0) (by simp [c])
    · simp
      omega
    · rw [rst_taken]
      exact List.contains_iff_mem.2 hheld

end Sys2Proof.Machine

/-! PROOF. The queue setters (Table 18.4) and the samples of a queue (R200 to R203). -/

namespace Sys2Proof.Machine
open State

section
variable (s : State) (c : RawCmd)

@[simp] theorem told_taken (q : Nat) : ((s.taken c).queue q).told = (s.queue q).told := by rw [queue_taken]

end

/-- The shaper fields are in range (Table 18.4). -/
theorem shaperFields_inRange {p : List Byte} (hen : u8 p 2 ≤ 1) (hclear : u8 p 3 ≤ 1) (hb : 1 ≤ u32 p 4) (hb' : u32 p 4 ≤ 16777215)
    (hr : u64 p 8 ≤ 100000000000) : ∀ f ∈ shaperFields p, f.1 = false := by
  simp only [shaperFields, burstBad, rateBad, List.mem_cons, List.not_mem_nil, or_false]
  rintro f (rfl | rfl | rfl | rfl)
  · exact decide_eq_false hen.not_gt
  · exact decide_eq_false hclear.not_gt
  · simp
    omega
  · simp
    omega

/-- While its channel is planning, a queue keeps what waits for the next window 0 plan (R180). -/
theorem setQueue_planning {s : State} {q : Nat} {new : QCfg} (h : s.planning (q / 128) = true) :
    s.setQueue q new = s.updQueue q fun x => { x with
      cfg := { x.cfg with adj := new.adj, discard := new.discard, enable := x.cfg.enable || new.enable }
      cfgNext := some new } :=
  (if_pos h).trans (updQueue_congr _ _ _ _ rfl)

theorem setQueue_free {s : State} {q : Nat} {new : QCfg} (h : ¬ s.planning (q / 128) = true) : s.setQueue q new = s.putCfg q new := if_neg h

/-- Settles O15: each command passes its checks; a sample is its own case. -/
theorem queueSettersAndSamples : Obligations.QueueSettersAndSamples := by
  refine ⟨fun hd p s => ?queue, fun hd p s => ?shaper, fun hd p s => ?drop, fun hd p s => ?sample, fun hd p s => ?spill, fun q s => ?note,
    fun q s => ?post, fun q s => ?off⟩
  case queue =>
    intro c q a new others t ht hup hlen hq hown hmem hdisc hadj hadj' hen hz halloc
    refine next_checked ht rfl (beq_iff_eq.2 hlen) (ownsQueue_owner (by simpa using hown)) (firstBad_none ?_ hz)
      ((if_neg ?_).trans ((if_neg ?_).trans ((if_neg ?_).trans (congrArg (done ·) ?_)))) (by simp [lacksDomain, hup]) (Nat.le_refl 0) ?_
    · simp only [List.mem_cons, List.not_mem_nil, or_false]
      rintro f (rfl | rfl | rfl | rfl | rfl | rfl)
      · exact decide_eq_false hq.not_ge
      · rcases halloc with h | ⟨h, -⟩
        · simp [show u8 p 2 = 255 from h]
        · rw [decide_eq_false (show ¬ 63 < u8 p 2 from h.not_gt)]
          rfl
      · exact decide_eq_false hmem.not_gt
      · exact decide_eq_false hdisc.not_gt
      · rw [Bool.or_eq_false_iff]
        exact ⟨decide_eq_false hadj.not_gt, decide_eq_false hadj'.not_gt⟩
      · exact decide_eq_false hen.not_gt
    · rintro ⟨hne, hfull⟩
      rcases halloc with h | ⟨-, h, -⟩
      · exact hne h
      · rw [members_taken] at hfull
        exact absurd hfull h.not_ge
    · rintro ⟨hne, hused⟩
      rcases halloc with h | ⟨-, -, h, -⟩
      · exact hne h
      · simp only [members_taken, told_taken, List.any_eq_true] at hused
        obtain ⟨r, hr, hsame⟩ := hused
        exact h r hr (eq_of_beq hsame)
    · rintro ⟨hne, hbound⟩
      rcases halloc with h | ⟨-, -, -, h⟩
      · exact hne h
      · rw [chan_taken] at hbound
        exact hbound h
    · by_cases hplan : s.planning (q / 128) = true
      · rw [if_pos hplan]
        exact setQueue_planning (by rw [planning_taken]; exact hplan)
      · rw [if_neg hplan]
        refine (setQueue_free (by rw [planning_taken]; exact hplan)).trans ?_
        unfold putCfg
        rw [queue_taken]
        rfl
    · rw [cmdView_ite]
      split
      · simp [t, c]
      · dsimp only
        split
        · split <;> simp [t, c]
        · simp [t, c]
  case shaper =>
    intro c q ht hup hlen hq hown hen hclear hb hb' hr
    refine next_checked ht rfl (beq_iff_eq.2 hlen) (ownsQueue_owner (by simpa using hown)) (firstBad_nil ?_) rfl
      (by simp [lacksDomain, hup]) (Nat.le_refl 0) (by simp [c])
    exact List.forall_mem_cons.2 ⟨decide_eq_false hq.not_ge, shaperFields_inRange hen hclear hb hb' hr⟩
  case drop =>
    intro c q ht hup hlen hq hown hfl hz hmax hy hd' hmono hp
    refine next_checked ht rfl (beq_iff_eq.2 hlen) (ownsQueue_owner (by simpa using hown)) (firstBad_none ?_ hz) rfl
      (by simp [lacksDomain, hup]) (Nat.le_refl 0) (by simp [c])
    simp only [List.mem_append, List.mem_map, List.mem_range, List.mem_cons, List.not_mem_nil, or_false]
    rintro f (((rfl | rfl | rfl | rfl) | ⟨i, hi, rfl⟩) | ⟨i, hi, rfl⟩)
    · exact decide_eq_false hq.not_ge
    · exact decide_eq_false hfl.not_gt
    · exact decide_eq_false (by omega)
    · exact decide_eq_false hy.not_gt
    · have hrange (j : Nat) (hj : j < 8) : ((List.range 8).map fun i => u64 p (20 + 8 * i)).getD j 0 = u64 p (20 + 8 * j) := by
        simp [List.getD_eq_getElem?_getD, hj]
      rw [hrange i hi, hrange (i - 1) (by omega), decide_eq_false (hd' i hi).not_gt, Bool.false_or]
      cases i with
      | zero => rfl
      | succ i =>
        rw [Nat.add_sub_cancel, decide_eq_false (hmono i (by omega)).not_gt]
        exact Bool.and_false (i + 1 != 0)
    · refine decide_eq_false ?_
      have := hp i hi
      simpa [List.getD_eq_getElem?_getD, hi] using this
  case sample =>
    intro c q ht hup hlen hq hown hfl hz hper hph hbase
    refine next_checked ht rfl (beq_iff_eq.2 hlen) (ownsQueue_owner (by simpa using hown)) (firstBad_none ?_ hz) rfl
      (by simp [lacksDomain, hup]) (Nat.le_refl 0) (by simp [c])
    simp only [List.mem_cons, List.not_mem_nil, or_false]
    rintro f (rfl | rfl | rfl | rfl | rfl)
    · exact decide_eq_false hq.not_ge
    · exact decide_eq_false hfl.not_gt
    · exact decide_eq_false hper.not_gt
    · exact decide_eq_false hph.not_ge
    · exact beq_eq_false_iff_ne.2 (Nat.pos_iff_ne_zero.1 hbase)
  case spill =>
    intro c q ht hup hlen hq hown hsp hpr hon hon'
    refine next_checked ht rfl (beq_iff_eq.2 hlen) (ownsQueue_owner (by simpa using hown)) (firstBad_nil ?_) rfl
      (by simp [lacksDomain, hup]) (Nat.le_refl 0) (by simp [c])
    simp only [List.mem_cons, List.not_mem_nil, or_false]
    rintro f (rfl | rfl | rfl | rfl)
    · exact decide_eq_false hq.not_ge
    · exact decide_eq_false hsp.not_gt
    · exact decide_eq_false hpr.not_gt
    · rw [decide_eq_false hon.not_gt, decide_eq_false hon'.not_gt]
      rfl
  case note =>
    intro hper hpost
    refine congrArg Host.Outcome.next ?_
    unfold doQueueSample
    rw [if_neg hper]
    exact if_neg (by simp [hpost])
  case post =>
    intro soj spilled hper hpost
    refine congrArg Host.Outcome.next ?_
    unfold doQueueSample
    rw [if_neg hper]
    refine (if_pos hpost).trans ?_
    refine congrArg (State.writeRecord _ _ _) ?_
    funext lost rseq
    have hlong : (if 0xFFFFFFFF < soj then 4 else 0) = if soj ≤ 0xFFFFFFFF then 0 else 4 := by
      split_ifs <;> omega
    have hempty : (if (s.queue q).frames.isEmpty then 1 else 0) = if (s.queue q).frames = [] then 1 else 0 := by
      simp only [List.isEmpty_iff]
    rw [← hlong, ← hempty] <;> rfl
  case off =>
    intro hper
    exact congrArg Host.Outcome.next (if_pos hper)

end Sys2Proof.Machine

/-! PROOF. Predictions are kept and engines plan window by window (R156, R160, R180). -/

namespace Sys2Proof.Machine
open State

/-- The bursts and plans of a channel stay as they are while a plan is in the making. -/
theorem planKeeps_us (i : Nat) : PlanKeeps fun s => (s.chan i).us := by
  constructor
  · intro s q f
    refine view_takeOut (fun s => (s.chan i).us) (fun t u h => ?_) s q _ _ fun t f => ?_
    · rw [chan, chan, chans_of_apart h]
    · rw [bumpQ, chan_updQueue]
  · intro s c q n u
    have hbump : ((s.bump c .ckUsKeyHold).chan i).us = (s.chan i).us := by by_cases h : i = c <;> simp [bump, h]
    unfold keyHold
    extract_lets blocked s'
    have hs' : (s'.chan i).us = (s.chan i).us := by
      dsimp only [s']
      split
      · exact hbump
      · rfl
    dsimp only
    split <;> exact hs'

section
variable (s : State) (c : Nat)

theorem us_updBurst (id : Nat) (f : Burst → Burst) : ((s.updBurst c id f).chan c).us
    = { (s.chan c).us with bursts := (s.chan c).us.bursts.map fun b => if b.id == id then f b else b } := by
  simp [updBurst, updUs]

end

/-! ### The plan of a window -/

/-- The bursts of frame n in window w that wait for the engine (R156). -/
def waits (n : BitVec 48) (w : Nat) (b : Burst) : Bool :=
  b.frame == n && b.kind == .data && b.engines && b.phase == .scheduled && windowOf b.start == w

/-- One burst of the window gets its plan. -/
def planOne (c : Nat) (n : BitVec 48) (x : PlanAcc) (b : Burst) : PlanAcc :=
  let r := planBurst { c, frame := n, fallback := false, seen := none } b { x with commit := deadlineOf b }
  { r.2 with s := r.2.s.updBurst c b.id fun b => { b with plan := some r.1 } }

theorem doPlanStart_waiting {s : State} {c w : Nat} {n : BitVec 48} {rest : List (BitVec 48 × Nat)} (hp : (s.chan c).us.plans = (n, w) :: rest)
    (hr : (s.chan c).us.running = none) (he : s.enginesThere c = true) {t : State}
    (ht : t = (if w = 0 then s.applyService c n else s).updUs c fun u => { u with running := some (n, w) }) :
    s.doPlanStart c w
      = (((((t.chan c).us.bursts.filter (waits n w)).foldl (fun l b => insertByStart b l) []).foldl (planOne c n) (t.planFrom 0))).s := by
  subst ht
  unfold doPlanStart
  rw [hp, hr]
  exact if_neg (by simp [he])

theorem mem_insertByStart {b x : Burst} {l : List Burst} : x ∈ insertByStart b l ↔ x = b ∨ x ∈ l := by
  induction l with
  | nil => simp [insertByStart]
  | cons h t ih =>
    unfold insertByStart
    split
    · simp
    · rw [List.mem_cons, ih, List.mem_cons]
      tauto

theorem mem_sorted {x : Burst} (l acc : List Burst) : x ∈ l.foldl (fun l b => insertByStart b l) acc ↔ x ∈ l ∨ x ∈ acc := by
  induction l generalizing acc with
  | nil => simp
  | cons b l ih =>
    rw [List.foldl_cons, ih, mem_insertByStart, List.mem_cons]
    tauto

/-! ### What a window's plans leave of the bursts -/

theorem us_planOne (c : Nat) (n : BitVec 48) (x : PlanAcc) (b : Burst) : ∃ p : Plan, ((planOne c n x b).s.chan c).us
    = { (x.s.chan c).us with bursts := (x.s.chan c).us.bursts.map fun y => if y.id == b.id then { y with plan := some p } else y } := by
  refine ⟨(planBurst { c, frame := n, fallback := false, seen := none } b { x with commit := deadlineOf b }).1, ?_⟩
  have hkeep : ((planBurst { c, frame := n, fallback := false, seen := none } b { x with commit := deadlineOf b }).2.s.chan c).us
    = (x.s.chan c).us := (planKeeps_us c).planBurst _ b _
  unfold planOne
  dsimp only
  rw [us_updBurst, hkeep]

/-- A burst as a window's plans leave it: the same but for its plan, which it has when one was made for it. -/
structure Planned (l : List Burst) (old new : Burst) : Prop where
  same : new = { old with plan := new.plan }
  kept : old.plan ≠ none → new.plan ≠ none
  made : (∃ y ∈ l, y.id = old.id) → new.plan ≠ none

theorem foldl_planOne (c : Nat) (n : BitVec 48) (l : List Burst) (x : PlanAcc) :
    ((l.foldl (planOne c n) x).s.chan c).us.running = (x.s.chan c).us.running
    ∧ ∀ b ∈ ((l.foldl (planOne c n) x).s.chan c).us.bursts, ∃ b₀ ∈ (x.s.chan c).us.bursts, Planned l b₀ b := by
  induction l generalizing x with
  | nil => exact ⟨rfl, fun b hb => ⟨b, hb, rfl, id, fun ⟨_, hy, _⟩ => absurd hy List.not_mem_nil⟩⟩
  | cons y l ih =>
    obtain ⟨p, hone⟩ := us_planOne c n x y
    obtain ⟨hrun, hall⟩ := ih (planOne c n x y)
    rw [List.foldl_cons]
    refine ⟨hrun.trans (by rw [hone]), fun b hb => ?_⟩
    obtain ⟨b₁, hb₁, hp⟩ := hall b hb
    rw [hone] at hb₁
    obtain ⟨b₀, hb₀, rfl⟩ := List.mem_map.1 hb₁
    obtain ⟨hsame, hkept, hmade⟩ := hp
    refine ⟨b₀, hb₀, ?_⟩
    by_cases hid : b₀.id = y.id
    · rw [if_pos (by simpa using hid)] at hsame hkept
      exact ⟨hsame, fun _ => hkept (by simp), fun _ => hkept (by simp)⟩
    · rw [if_neg (by simpa using hid)] at hsame hkept hmade
      refine ⟨hsame, hkept, ?_⟩
      rintro ⟨z, hz, hzid⟩
      rcases List.mem_cons.1 hz with rfl | hz
      · exact absurd hzid.symm hid
      · exact hmade ⟨z, hz, hzid⟩

/-- No burst of the window that waits for the engine is left without a plan. -/
theorem planStart_none_left {s : State} {c w : Nat} {n : BitVec 48} {rest : List (BitVec 48 × Nat)} (hp : (s.chan c).us.plans = (n, w) :: rest)
    (hr : (s.chan c).us.running = none) (he : s.enginesThere c = true) : ((s.doPlanStart c w).chan c).us.running = some (n, w)
    ∧ ∀ b ∈ ((s.doPlanStart c w).chan c).us.bursts, waits n w b = true → b.plan ≠ none := by
  obtain ⟨t, ht⟩ : ∃ t, t = (if w = 0 then s.applyService c n else s).updUs c fun u => { u with running := some (n, w) } := ⟨_, rfl⟩
  have hrun : (t.chan c).us.running = some (n, w) := by
    rw [ht]
    simp [updUs]
  rw [doPlanStart_waiting hp hr he ht]
  obtain ⟨hkeep, hall⟩ := foldl_planOne c n (((t.chan c).us.bursts.filter (waits n w)).foldl (fun l b => insertByStart b l) []) (t.planFrom 0)
  refine ⟨hkeep.trans hrun, fun b hb hwaits => ?_⟩
  obtain ⟨b₀, hb₀, hsame, -, hmade⟩ := hall b hb
  have hwaits₀ : waits n w b₀ = true := by
    rw [hsame] at hwaits
    exact hwaits
  exact hmade ⟨b₀, (mem_sorted _ _).2 (Or.inl (List.mem_filter.2 ⟨hb₀, hwaits₀⟩)), rfl⟩

/-- Settles O10: the branches of a prediction, of a window's start and of its end. -/
theorem predictionsAndPlansAreMade : Obligations.PredictionsAndPlansAreMade := by
  refine ⟨fun c p s f => ?pred, fun c w s n rest => ?empty, fun c w s n rest b => ?single, fun c w s n rest => ?all, fun c w s n => ?complete⟩
  case pred =>
    intro t wake u u' hcur hwatch hrun heng hahead
    refine congrArg Host.Outcome.next ?_
    unfold doPrediction
    rw [hcur]
    refine (if_neg ?_).trans rfl
    have hw : ((s.chan c).tc.opened && (s.chan c).tc.st == .watch) = true := hwatch
    simp [hw, hrun, heng, hahead]
  case empty =>
    intro t hp hr he hnone
    refine congrArg Host.Outcome.next ((doPlanStart_waiting hp hr he rfl).trans ?_)
    have : (t.chan c).us.bursts.filter (waits n w) = [] := by
      refine List.filter_eq_nil_iff.2 fun b hb hwaits => ?_
      simp only [waits, Bool.and_eq_true, beq_iff_eq] at hwaits
      obtain ⟨⟨⟨⟨hframe, -⟩, -⟩, -⟩, hwin⟩ := hwaits
      exact hnone b hb hframe hwin
    show (List.foldl (planOne c n) (t.planFrom 0) (((t.chan c).us.bursts.filter (waits n w)).foldl _ [])).s = t
    rw [this]
    rfl
  case single =>
    intro t r hp hr he honly hframe hkind heng hphase hwin
    refine congrArg Host.Outcome.next ((doPlanStart_waiting hp hr he rfl).trans ?_)
    have : (t.chan c).us.bursts.filter (waits n w) = [b] := by
      rw [honly, List.filter_eq_self]
      intro y hy
      obtain rfl := List.mem_singleton.1 hy
      simp [waits, hframe, hkind, heng, hphase, hwin]
    show (List.foldl (planOne c n) (t.planFrom 0) (((t.chan c).us.bursts.filter (waits n w)).foldl _ [])).s = _
    rw [this]
    rfl
  case all =>
    intro hp hr he
    obtain ⟨hrun, hall⟩ := planStart_none_left hp hr he
    refine ⟨_, rfl, hrun, fun b hb hframe hkind heng hphase hwin => hall b hb ?_⟩
    simp [waits, hframe, hkind, heng, hphase, hwin]
  case complete =>
    intro hr
    refine congrArg Host.Outcome.next ?_
    unfold doPlanComplete
    rw [hr]
    exact if_neg (by simp)

end Sys2Proof.Machine

/-! PROOF. Plan deadlines commit a plan or ask the fallback planner (R142, R148, R157, R158, R163, R166). -/

namespace Sys2Proof.Machine
namespace State

/-! ### What a commit leaves of a channel's bursts -/

section
variable (s : State) (c i : Nat)

theorem us_updTc (f : ChanTc → ChanTc) : ((s.updTc c f).chan i).us = (s.chan i).us := by by_cases h : i = c <;> simp [updTc, h]

theorem us_updTrib (f : ChanTrib → ChanTrib) : ((s.updTrib c f).chan i).us = (s.chan i).us := by by_cases h : i = c <;> simp [updTrib, h]

theorem us_bump (k : ChanCtr) (n : Nat) : ((s.bump c k n).chan i).us = (s.chan i).us := by by_cases h : i = c <;> simp [bump, h]

theorem us_queueTcm (m : UpTcm) (r : Option (BitVec 48)) : ((s.queueTcm c m r).chan i).us = (s.chan i).us := by
  unfold queueTcm queueEntry
  dsimp only
  split
  · exact us_updTc ..
  · split <;> rw [us_bump, us_updTc]

theorem us_holAlarm (q : Nat) (raised : Bool) : ((s.holAlarm q raised).chan i).us = (s.chan i).us := by
  unfold holAlarm alarmRpt
  dsimp only
  split
  · rw [us_queueTcm, chanEvent, chan_event]
  · rw [chanEvent, chan_event]

theorem us_endHold (q : Nat) : ((s.endHold q).chan i).us = (s.chan i).us := by
  unfold endHold
  split
  · rw [us_holAlarm, chan_updQueue]
  · rfl

/-- The oldest unclaimed frame of the queue is what a segment can claim, a hold set off before (R157, R298). -/
theorem claimable_cases (n : BitVec 48) (room q : Nat) : s.claimable c n room q = (none, s)
    ∨ ∃ f sp h u, (s.queue q).headFrame = some f
      ∧ s.claimable c n room q = (if (s.keyHold c q n u).1 then none else some (f, sp, h), (s.keyHold c q n u).2) := by
  unfold claimable
  split
  · exact Or.inl rfl
  · next f hf =>
    split
    · next h sp u _ _ =>
      split
      · exact Or.inl rfl
      · exact Or.inr ⟨f, sp, h, u, hf, rfl⟩
    · exact Or.inl rfl

/-- The state in which frame f of queue q is claimed (R157, R186). -/
def claimed (s : State) (c a q len : Nat) (f : Frame) : State :=
  let s := if (s.queue q).headId = some f.id then s.endHold q else s
  let s := s.askBanks (20 + c) f.cells
  let s := s.updQueue q fun x => { x with
    frames := x.frames.map fun g => if g.id == f.id then { g with claimed := true } else g
    shaper := x.shaper.charge len }
  (s.updAlloc (allocIdx c a) fun x => { x with shaper := x.shaper.charge len }).updPeak c fun h => h.charge len

theorem claimSeg_cases (a : Nat) (n : BitVec 48) (slot room : Nat) (p : PlanSeg) : s.claimSeg c a n slot room p = (none, s)
    ∨ ∃ f u, (s.queue p.q).headFrame = some f ∧ (s.claimSeg c a n slot room p = (none, (s.keyHold c p.q n u).2)
      ∨ ∃ (seg : TxSeg) (len : Nat), s.claimSeg c a n slot room p = (some seg, (s.keyHold c p.q n u).2.claimed c a p.q len f)
        ∧ seg.q = p.q ∧ seg.fid = f.id) := by
  rcases s.claimable_cases c n room p.q with h | ⟨f, sp, hf, u, hhead, h⟩
  · refine Or.inl ?_
    unfold claimSeg
    rw [h]
  · refine Or.inr ⟨f, u, hhead, ?_⟩
    by_cases hb : (s.keyHold c p.q n u).1 = true
    · refine Or.inl ?_
      rw [if_pos hb] at h
      unfold claimSeg
      rw [h]
    · rw [if_neg hb] at h
      refine Or.inr ?_
      unfold claimSeg
      rw [h]
      exact ⟨_, _, rfl, rfl, rfl⟩

theorem us_keyHold (q : Nat) (n : BitVec 48) (u : Bool) : ((s.keyHold c q n u).2.chan i).us = (s.chan i).us :=
  (planKeeps_us i).keyHold s c q n u

theorem us_claimed (a q len : Nat) (f : Frame) : ((s.claimed c a q len f).chan i).us = (s.chan i).us := by
  unfold claimed
  extract_lets s1 s2
  have h1 : (s1.chan i).us = (s.chan i).us := by
    dsimp only [s1]
    split
    · exact us_endHold ..
    · rfl
  have h2 : s2.chan i = s1.chan i := by
    dsimp only [s2, askBanks]
    split <;> rfl
  rw [chan_updPeak, chan_updAlloc, chan_updQueue, h2, h1]

theorem us_claimSeg (a : Nat) (n : BitVec 48) (slot room : Nat) (p : PlanSeg) :
    ((s.claimSeg c a n slot room p).2.chan i).us = (s.chan i).us := by
  rcases s.claimSeg_cases c a n slot room p with h | ⟨f, u, -, h | ⟨seg, len, h, -, -⟩⟩
  · rw [h]
  · rw [h]
    exact us_keyHold ..
  · rw [h]
    exact (us_claimed ..).trans (us_keyHold ..)

theorem us_claimAll (n : BitVec 48) (slot : Nat) (l : List (Grant × List PlanSeg)) :
    ((s.claimAll c n slot l).2.chan i).us = (s.chan i).us := by
  refine view_foldl (fun acc : List (List TxSeg) × State => (acc.2.chan i).us) (fun acc gp => ?_) _ _
  refine view_foldl (fun acc : List TxSeg × State => (acc.2.chan i).us) (fun a p => ?_) _ _
  have hseg := us_claimSeg a.2 c i gp.1.ctx n slot (16 * (gp.1.body - 1) - (a.1.map (·.span)).sum) p
  split <;> next heq => rw [heq] at hseg; exact hseg

theorem us_bumpTrib (k : TribCtr) (n : Nat) : ((s.bumpTrib c k n).chan i).us = (s.chan i).us := us_updTrib ..

theorem us_tribBody (b : TribBind) (n : BitVec 48) (words : Nat) : ((s.tribBody c b n words).2.chan i).us = (s.chan i).us := by
  unfold tribBody
  dsimp only
  cases b with
  | none => rfl
  | slots first count =>
    dsimp only
    split
    · exact us_bumpTrib ..
    · rw [us_bumpTrib, us_bumpTrib, us_bumpTrib]
  | odc =>
    dsimp only
    split
    · rw [us_bumpTrib, us_updTrib]
    · split
      · exact us_updTrib ..
      · exact us_bumpTrib ..

theorem us_tribBodies (b : Burst) : ((s.tribBodies c b).2.chan i).us = (s.chan i).us := by
  refine view_foldl (fun acc : List (Nat × List Byte) × State => (acc.2.chan i).us) (fun acc j => ?_) _ _
  dsimp only
  split
  · rfl
  · split
    · rfl
    · exact us_tribBody ..

theorem us_applyDrr (d : List (Nat × Nat × List DrrStep)) : ((s.applyDrr c d).chan i).us = (s.chan i).us := by
  refine view_foldl (fun t : State => (t.chan i).us) (fun t x => ?_) _ _
  rfl

end

/-! ### A claimed frame stays claimed -/

/-- The frame of a segment stands in its queue, claimed. -/
def Held (s : State) (g : TxSeg) : Prop := ∃ f ∈ (s.queue g.q).frames, f.id = g.fid ∧ f.claimed = true

theorem held_of_frames {s t : State} {g : TxSeg} (h : ∀ i, (t.queue i).frames = (s.queue i).frames) (hg : s.Held g) : t.Held g := by
  unfold Held at *
  rw [h]
  exact hg

theorem frames_keyHold (s : State) (c q : Nat) (n : BitVec 48) (u : Bool) (i : Nat) :
    ((s.keyHold c q n u).2.queue i).frames = (s.queue i).frames := by
  unfold keyHold
  extract_lets blocked s'
  have hs' : s'.queue i = s.queue i := by
    dsimp only [s']
    split
    · exact queue_updChan ..
    · rfl
  dsimp only
  split
  · rw [hs']
  · rw [← hs']
    by_cases h : i = q
    · subst h
      simp
    · simp [h]

theorem frames_endHold (s : State) (q i : Nat) : ((s.endHold q).queue i).frames = (s.queue i).frames := by
  have hrpt (t : State) (c code detail : Nat) : (t.alarmRpt c code false detail).queue i = t.queue i := by
    unfold alarmRpt queueTcm queueEntry
    dsimp only
    split
    · split
      · rfl
      · split <;> rfl
    · rfl
  unfold endHold
  split
  · rw [holAlarm, hrpt, chanEvent, queue_event]
    by_cases h : i = q <;> simp [h]
  · rfl

theorem frames_claimed (s : State) (c a q len : Nat) (f : Frame) (i : Nat) : ((s.claimed c a q len f).queue i).frames
    = if i = q then (s.queue i).frames.map fun g => if g.id == f.id then { g with claimed := true } else g else (s.queue i).frames := by
  unfold claimed
  extract_lets s1 s2 s3
  have h1 : (s1.queue i).frames = (s.queue i).frames := by
    dsimp only [s1]
    split
    · exact frames_endHold ..
    · rfl
  have h2 : s2.queue i = s1.queue i := by
    dsimp only [s2, askBanks]
    split <;> rfl
  rw [queue_updPeak, queue_updAlloc]
  by_cases h : i = q
  · subst h
    simp [s3, h2, h1]
  · simp [s3, h, h2, h1]

theorem held_claimed {s : State} {g : TxSeg} (c a q len : Nat) (f : Frame) (hg : s.Held g) : (s.claimed c a q len f).Held g := by
  obtain ⟨x, hx, hid, hcl⟩ := hg
  unfold Held
  rw [frames_claimed]
  split
  · refine ⟨_, List.mem_map_of_mem hx, ?_⟩
    split <;> exact ⟨hid, by simp [hcl]⟩
  · exact ⟨x, hx, hid, hcl⟩

theorem held_claimed_self {s : State} {g : TxSeg} (c a len : Nat) {f : Frame} (hf : f ∈ (s.queue g.q).frames) (hid : g.fid = f.id) :
    (s.claimed c a g.q len f).Held g := by
  unfold Held
  rw [frames_claimed, if_pos rfl]
  refine ⟨_, List.mem_map_of_mem hf, ?_⟩
  rw [if_pos (beq_self_eq_true _)]
  exact ⟨hid.symm, rfl⟩

theorem held_claimSeg {s : State} {g : TxSeg} (c a : Nat) (n : BitVec 48) (slot room : Nat) (p : PlanSeg) (hg : s.Held g) :
    (s.claimSeg c a n slot room p).2.Held g := by
  rcases s.claimSeg_cases c a n slot room p with h | ⟨f, u, -, h | ⟨seg, len, h, -, -⟩⟩
  · rw [h]
    exact hg
  · rw [h]
    exact held_of_frames (frames_keyHold s c p.q n u) hg
  · rw [h]
    exact held_claimed _ _ _ _ _ (held_of_frames (frames_keyHold s c p.q n u) hg)

theorem held_claimSeg_new {s t : State} {c a : Nat} {n : BitVec 48} {slot room : Nat} {p : PlanSeg} {g : TxSeg}
    (hseg : s.claimSeg c a n slot room p = (some g, t)) : t.Held g := by
  rcases s.claimSeg_cases c a n slot room p with h | ⟨f, u, hhead, h | ⟨seg, len, h, hq, hid⟩⟩
  · rw [h] at hseg
    exact absurd (congrArg Prod.fst hseg) (by simp)
  · rw [h] at hseg
    exact absurd (congrArg Prod.fst hseg) (by simp)
  · rw [h] at hseg
    obtain ⟨hg, rfl⟩ := Prod.mk.inj hseg
    obtain rfl := Option.some.inj hg
    have hf : f ∈ ((s.keyHold c p.q n u).2.queue p.q).frames := by
      rw [frames_keyHold]
      exact List.mem_of_find?_eq_some hhead
    rw [← hq] at hf ⊢
    exact held_claimed_self c a len hf hid

/-- One planned segment is claimed behind those of its body. -/
def claimNext (c a : Nat) (n : BitVec 48) (slot room : Nat) (x : List TxSeg × State) (p : PlanSeg) : List TxSeg × State :=
  match x.2.claimSeg c a n slot (room - (x.1.map (·.span)).sum) p with
  | (some t, s) => (x.1 ++ [t], s)
  | (none, s) => (x.1, s)

/-- The segments of one body are claimed. -/
def claimBody (c : Nat) (n : BitVec 48) (slot : Nat) (s : State) (gp : Grant × List PlanSeg) : List TxSeg × State :=
  gp.2.foldl (claimNext c gp.1.ctx n slot (16 * (gp.1.body - 1))) ([], s)

theorem claimAll_eq (s : State) (c : Nat) (n : BitVec 48) (slot : Nat) (l : List (Grant × List PlanSeg)) : s.claimAll c n slot l
    = l.foldl (fun acc gp => (acc.1 ++ [(acc.2.claimBody c n slot gp).1], (acc.2.claimBody c n slot gp).2)) ([], s) := rfl

theorem held_claimNext {c a : Nat} {n : BitVec 48} {slot room : Nat} {x : List TxSeg × State} {p : PlanSeg} {g : TxSeg}
    (hg : x.2.Held g ∨ g ∈ (claimNext c a n slot room x p).1) (hall : ∀ g ∈ x.1, x.2.Held g) : (claimNext c a n slot room x p).2.Held g := by
  have hold (g : TxSeg) (hg : x.2.Held g) := held_claimSeg c a n slot (room - (x.1.map (·.span)).sum) p hg
  cases hseg : x.2.claimSeg c a n slot (room - (x.1.map (·.span)).sum) p with
  | mk o t =>
    simp only [claimNext, hseg] at hg hold ⊢
    cases o with
    | none => exact hold g (hg.elim id (hall g))
    | some seg =>
      rcases hg with h | h
      · exact hold g h
      · rcases List.mem_append.1 h with h | h
        · exact hold g (hall g h)
        · obtain rfl := List.mem_singleton.1 h
          exact held_claimSeg_new hseg

/-- A body's claims leave its segments claimed, and those claimed before. -/
theorem held_claimBody (c : Nat) (n : BitVec 48) (slot : Nat) (s : State) (gp : Grant × List PlanSeg) :
    (∀ g ∈ (s.claimBody c n slot gp).1, (s.claimBody c n slot gp).2.Held g) ∧ ∀ g, s.Held g → (s.claimBody c n slot gp).2.Held g := by
  refine List.foldlRecOn gp.2 (claimNext c gp.1.ctx n slot (16 * (gp.1.body - 1)))
    (motive := fun x : List TxSeg × State => (∀ g ∈ x.1, x.2.Held g) ∧ ∀ g, s.Held g → x.2.Held g)
    ⟨fun g hg => absurd hg List.not_mem_nil, fun _ hg => hg⟩ fun x hx p _ => ?_
  obtain ⟨hnew, hold⟩ := hx
  exact ⟨fun g hg => held_claimNext (Or.inr hg) hnew, fun g hg => held_claimNext (Or.inl (hold g hg)) hnew⟩

/-- Every segment that a commit claims has its frame claimed (R157). -/
theorem held_claimAll (s : State) (c : Nat) (n : BitVec 48) (slot : Nat) (l : List (Grant × List PlanSeg)) :
    ∀ g ∈ (s.claimAll c n slot l).1.flatten, (s.claimAll c n slot l).2.Held g := by
  rw [claimAll_eq]
  refine List.foldlRecOn l _ (motive := fun acc : List (List TxSeg) × State => ∀ g ∈ acc.1.flatten, acc.2.Held g)
    (fun g hg => absurd hg (by simp)) fun acc hacc gp _ g hg => ?_
  obtain ⟨hnew, hold⟩ := held_claimBody c n slot acc.2 gp
  simp only [List.flatten_append, List.flatten_cons, List.flatten_nil, List.append_nil, List.mem_append] at hg
  exact hg.elim (fun h => hold g (hacc g h)) (hnew g)

theorem queue_tribBodies (s : State) (c : Nat) (b : Burst) (i : Nat) : (s.tribBodies c b).2.queue i = s.queue i := by
  have hbody (t : State) (x : TribBind) (n : BitVec 48) (words : Nat) : (t.tribBody c x n words).2.queue i = t.queue i := by
    unfold tribBody
    dsimp only
    cases x with
    | none => rfl
    | slots first count =>
      dsimp only
      split <;> rfl
    | odc =>
      dsimp only
      split
      · rfl
      · split <;> rfl
  refine view_foldl (fun acc : List (Nat × List Byte) × State => acc.2.queue i) (fun acc j => ?_) _ _
  dsimp only
  split
  · rfl
  · split
    · rfl
    · exact hbody ..

theorem queue_applyDrr (s : State) (c : Nat) (d : List (Nat × Nat × List DrrStep)) (i : Nat) : (s.applyDrr c d).queue i = s.queue i := by
  refine view_foldl (fun t : State => t.queue i) (fun t x => ?_) _ _
  rfl

/-! ### The commit -/

theorem commit_refused {s : State} {c : Nat} {b : Burst} (p : Plan) (fallback : Bool)
    (h : (∃ g ∈ b.grants, s.permits c b.frame g = false) ∨ s.mayGrant = false) : s.commit c b p fallback = s.dropBurst c b.id := by
  refine if_pos ?_
  rcases h with ⟨g, hg, hp⟩ | h
  · rw [List.all_eq_false.2 ⟨g, hg, by rw [hp]; decide⟩]
    rfl
  · rw [h]
    exact Bool.or_true _

/-- The state in which a burst is marked committed: its segments claimed, its deficit counters and tributary bodies taken. -/
def preparedSt (s : State) (c : Nat) (b : Burst) (p : Plan) (fallback : Bool) : State :=
  let t := (((s.claimAll c b.frame ((s.chan c).keys.usSlot b.frame) (b.grants.zip p.bodies)).2.applyDrr c p.drr).tribBodies c b).2
  if fallback then t.bump c .usPlanFallback else t

/-- A burst as its commit leaves it (R157). -/
def committedBurst (s : State) (c : Nat) (b : Burst) (p : Plan) (fallback : Bool) (reports : List Report) (trib : List (Nat × List Byte))
    (b' : Burst) : Burst := { b' with
  phase := .committed, plan := some p, fallback
  segs := (s.claimAll c b.frame ((s.chan c).keys.usSlot b.frame) (b.grants.zip p.bodies)).1, reports
  hol := b.grants.map fun g => s.holOf c g.ctx b.frame, keySlot := (s.chan c).keys.usSlot b.frame, trib }

theorem commit_granted {s : State} {c : Nat} {b : Burst} (p : Plan) (fallback : Bool) (hall : ∀ g ∈ b.grants, s.permits c b.frame g = true)
    (hmay : s.mayGrant = true) : ∃ reports trib,
      s.commit c b p fallback = (s.preparedSt c b p fallback).updBurst c b.id (s.committedBurst c b p fallback reports trib) := by
  refine ⟨_, _, if_neg ?_⟩
  rw [List.all_eq_true.2 hall, hmay]
  decide

theorem us_preparedSt (s : State) (c : Nat) (b : Burst) (p : Plan) (fallback : Bool) (i : Nat) :
    ((s.preparedSt c b p fallback).chan i).us = (s.chan i).us := by
  unfold preparedSt
  dsimp only
  split
  · rw [us_bump, us_tribBodies, us_applyDrr, us_claimAll]
  · rw [us_tribBodies, us_applyDrr, us_claimAll]

theorem held_preparedSt (s : State) (c : Nat) (b : Burst) (p : Plan) (fallback : Bool) :
    ∀ g ∈ (s.claimAll c b.frame ((s.chan c).keys.usSlot b.frame) (b.grants.zip p.bodies)).1.flatten, (s.preparedSt c b p fallback).Held g := by
  intro g hg
  refine held_of_frames (fun i => ?_) (held_claimAll s c b.frame _ _ g hg)
  unfold preparedSt
  dsimp only
  rw [apply_ite (fun t : State => (t.queue i).frames), bump, queue_updChan, ite_self, queue_tribBodies, queue_applyDrr]

/-- A commit that is granted leaves the bursts in place and its own as committed (R157). -/
theorem bursts_commit {s : State} {c : Nat} {b : Burst} (p : Plan) (fallback : Bool) (hall : ∀ g ∈ b.grants, s.permits c b.frame g = true)
    (hmay : s.mayGrant = true) :
    ((s.commit c b p fallback).chan c).us.bursts.map (·.id) = (s.chan c).us.bursts.map (·.id)
    ∧ ∀ x ∈ ((s.commit c b p fallback).chan c).us.bursts, x.id = b.id →
      x.phase = .committed ∧ x.plan = some p ∧ x.fallback = fallback ∧ x.keySlot = (s.chan c).keys.usSlot b.frame
      ∧ x.hol = b.grants.map (fun g => s.holOf c g.ctx b.frame)
      ∧ ∀ g ∈ x.segs.flatten, (s.commit c b p fallback).Held g := by
  obtain ⟨reports, trib, hcommit⟩ := commit_granted p fallback hall hmay
  have hheld := held_preparedSt s c b p fallback
  have hbursts : ((s.commit c b p fallback).chan c).us.bursts
      = (s.chan c).us.bursts.map fun y => if y.id == b.id then s.committedBurst c b p fallback reports trib y else y := by
    rw [hcommit, us_updBurst, us_preparedSt]
  refine ⟨?_, fun x hx hid => ?_⟩
  · rw [hbursts, List.map_map]
    refine List.map_congr_left fun y _ => ?_
    dsimp only [Function.comp]
    split <;> rfl
  · rw [hbursts] at hx
    obtain ⟨y, -, rfl⟩ := List.mem_map.1 hx
    by_cases hy : y.id = b.id
    · rw [if_pos (by simpa using hy)]
      refine ⟨rfl, rfl, rfl, rfl, rfl, fun g hg => ?_⟩
      rw [hcommit]
      exact hheld g hg
    · rw [if_neg (by simpa using hy)] at hid
      exact absurd hid hy

/-! ### Bursts that go, or give up grants at their front -/

/-- A reading of a channel that does not see what its line lanes send. -/
structure OffLine {β : Type} (f : ChanSt → β) : Prop where
  stream : ∀ x blocks tail regs, f { x with us := { x.us with laneBlocks := blocks, laneTail := tail, laneRegs := regs } } = f x
  active : ∀ x on, f { x with us := { x.us with txActive := on } } = f x

theorem offLine_bursts : OffLine fun x => x.us.bursts := ⟨fun _ _ _ _ => rfl, fun _ _ => rfl⟩

section
variable {β : Type} {f : ChanSt → β} (hf : OffLine f) (s : State) (c i : Nat)
include hf

theorem offLine_sendStream (bytes : List Byte) : f ((s.sendStream c bytes).chan i) = f (s.chan i) := by
  unfold sendStream
  extract_lets u all n runs pins s'
  have hs' : f (s'.chan i) = f (s.chan i) := by
    by_cases h : i = c
    · subst h
      simp only [s', updUs, chan_updChan, if_true]
      exact hf.stream ..
    · simp [s', updUs, h]
  split
  · exact hs'
  · rw [chan_emit]
    exact hs'

theorem offLine_releaseUs : f ((s.releaseUs c).chan i) = f (s.chan i) := by
  have hact : f ((s.endActivation c).chan i) = f (s.chan i) := by
    unfold endActivation
    extract_lets u t
    have ht : f (t.chan i) = f (s.chan i) := by
      dsimp only [t]
      split
      · exact offLine_sendStream hf ..
      · rfl
    rw [← ht]
    by_cases h : i = c
    · subst h
      simp only [updUs, chan_updChan, if_true]
      exact hf.active ..
    · simp [updUs, h]
  unfold releaseUs
  split
  · rfl
  · rw [chan, chans_of_apart (apart_requestRelease ..)]
    exact hact

end

theorem bursts_dropBurst (s : State) (c id : Nat) :
    ((s.dropBurst c id).chan c).us.bursts = (s.chan c).us.bursts.filter fun b => b.id != id := by
  unfold dropBurst
  rw [offLine_releaseUs offLine_bursts]
  simp [updUs]

/-- The grants that would begin too early go from the front (R148). -/
theorem dropPast_suffix (s : State) (c t0 busy : Nat) (l : List Grant) : (s.dropPast c t0 busy l).1 <:+ l := by
  induction l generalizing s with
  | nil => exact List.suffix_rfl
  | cons g l ih =>
    unfold dropPast
    split
    · exact List.suffix_rfl
    · exact (ih _).trans (List.suffix_cons _ _)

theorem us_dropPast (s : State) (c t0 busy : Nat) (l : List Grant) (i : Nat) : ((s.dropPast c t0 busy l).2.chan i).us = (s.chan i).us := by
  induction l generalizing s with
  | nil => rfl
  | cons g l ih =>
    unfold dropPast
    split
    · rfl
    · rw [ih, us_bump]

theorem length_foldl_push {α β γ : Type} {f : β × List γ → α → β × List γ} (hf : ∀ acc a, (f acc a).2.length = acc.2.length + 1)
    (l : List α) (acc : β × List γ) : (l.foldl f acc).2.length = acc.2.length + l.length := by
  induction l generalizing acc with
  | nil => rfl
  | cons a l ih =>
    rw [List.foldl_cons, ih, hf, List.length_cons]
    omega

theorem length_budgetBodies (fec : Bool) (c0 o : Nat) (gs : List Grant) : (budgetBodies fec c0 o gs).length = gs.length := by
  unfold budgetBodies
  extract_lets top k
  rw [length_foldl_push fun _ _ => by simp]
  simp [k]

/-- A burst laid out anew keeps its name and its phase, and its grants their places. -/
theorem laidOut_some {b b' : Burst} {gs : List Grant} (h : b.laidOut gs = some b') :
    b'.id = b.id ∧ b'.phase = b.phase ∧ b'.grants.map (·.start) = gs.map (·.start) := by
  unfold Burst.laidOut at h
  extract_lets first idx b1 c0 e bodies coded laid at h
  split at h
  · exact absurd h (by simp)
  · obtain rfl := Option.some.inj h
    refine ⟨rfl, rfl, ?_⟩
    have hlen : bodies.length = gs.length := by
      dsimp only [bodies]
      split
      · exact length_budgetBodies ..
      · exact List.length_map _
    calc laid.map (·.start) = ((gs.zip bodies).map Prod.fst).map (·.start) := by simp only [laid, List.map_map]; rfl
      _ = gs.map (·.start) := by rw [List.map_fst_zip hlen.ge]

/-- A burst that would begin before an earlier one has ended is not committed now: it gives up grants at its front, or goes (R148). -/
theorem shedPast_late {s : State} {c : Nat} {b : Burst} (hphase : b.phase = .scheduled) (h : b.at_ b.start < s.earlierEnd c b.id) :
    ∃ t, s.shedPast c b = (none, t) ∧ ∀ x ∈ (t.chan c).us.bursts, x.id = b.id →
      x.phase = .scheduled ∧ x.grants.map (·.start) <:+ b.grants.map (·.start) := by
  have hgone (t : State) : ∀ x ∈ ((t.dropBurst c b.id).chan c).us.bursts, x.id = b.id →
      x.phase = .scheduled ∧ x.grants.map (·.start) <:+ b.grants.map (·.start) := by
    intro x hx hid
    rw [bursts_dropBurst] at hx
    exact absurd hid (by simpa using (List.mem_filter.1 hx).2)
  have hsuffix := dropPast_suffix s c b.tLane (s.earlierEnd c b.id) b.grants
  unfold shedPast
  dsimp only
  rw [if_neg h.not_ge]
  generalize hdrop : s.dropPast c b.tLane (s.earlierEnd c b.id) b.grants = r at hsuffix
  obtain ⟨l, u⟩ := r
  cases l with
  | nil => exact ⟨_, rfl, hgone u⟩
  | cons g l =>
    dsimp only
    split
    · exact ⟨_, rfl, hgone _⟩
    · split
      · next b' hlaid =>
        obtain ⟨-, hphase', hstarts⟩ := laidOut_some hlaid
        refine ⟨_, rfl, fun x hx hid => ?_⟩
        rw [us_updBurst] at hx
        obtain ⟨y, -, rfl⟩ := List.mem_map.1 hx
        by_cases hy : y.id = b.id
        · rw [if_pos (by simpa using hy)]
          refine ⟨hphase'.trans hphase, ?_⟩
          rw [hstarts]
          exact hsuffix.map _
        · rw [if_neg (by simpa using hy)] at hid
          exact absurd hid hy
      · exact ⟨_, rfl, hgone _⟩

/-- A burst behind every earlier one is not held up. -/
theorem shedPast_onTime {s : State} {c : Nat} {b : Burst} (h : s.earlierEnd c b.id ≤ b.at_ b.start) : s.shedPast c b = (some b, s) := if_pos h

/-- Counting the late plan leaves the heads that the fallback planner is shown (R157, R260). -/
theorem askFallback_eq (s : State) (c : Nat) (b : Burst) : doPlanDeadline.askFallback c s b
    = (if b.engines && s.enginesThere c then s.bump c .usPlanLate else s).updBurst c b.id fun b => { b with
        phase := .fallbackAsked, plan := none, planReady := false, seen := s.headIds c } := by
  have hheads : (if b.engines && s.enginesThere c then s.bump c .usPlanLate else s).headIds c = s.headIds c := by
    split <;> rfl
  unfold doPlanDeadline.askFallback
  dsimp only
  rw [hheads]

end State
open State

/-- Settles O11: the branches of a deadline, and `bursts_commit`. -/
theorem deadlinesCommitPlans : Obligations.DeadlinesCommitPlans := by
  refine ⟨fun c id s b p => ?ready, fun c id s b => ?empty, fun c id s b => ?ask, fun c id s b => ?late, fun c id s b => ?fallback,
    fun c id s => ?wake, fun c s b p fallback => ?commit⟩
  case ready =>
    intro hfind htime hkind hplan heng hready hthere
    refine congrArg Host.Outcome.next ?_
    unfold doPlanDeadline
    simp only [hfind, shedPast_onTime htime, hkind, hplan]
    exact if_pos (by simp [heng, hready, hthere])
  case empty =>
    intro hfind htime hkind
    refine congrArg Host.Outcome.next ?_
    unfold doPlanDeadline
    simp only [hfind, shedPast_onTime htime]
    cases hk : b.kind with
    | data => exact absurd hk hkind
    | ident => rfl
    | range => rfl
  case ask =>
    intro hfind htime hkind hnot
    refine congrArg Host.Outcome.next ?_
    unfold doPlanDeadline
    cases hplan : b.plan with
    | none =>
      simp only [hfind, shedPast_onTime htime, hkind, hplan]
      exact askFallback_eq ..
    | some p =>
      simp only [hfind, shedPast_onTime htime, hkind, hplan]
      refine (if_neg ?_).trans (askFallback_eq ..)
      rw [hplan] at hnot
      rcases hnot with h | h | h | h
      · exact absurd h (by simp)
      · simp [h]
      · simp [h]
      · simp [h]
  case late =>
    intro hfind hlate
    have hphase : b.phase = .scheduled := by
      have := List.find?_some hfind
      simp only [Bool.and_eq_true, beq_iff_eq] at this
      exact this.2
    obtain ⟨t, hshed, hall⟩ := shedPast_late hphase hlate
    refine ⟨t, congrArg Host.Outcome.next ?_, hall⟩
    unfold doPlanDeadline
    simp only [hfind, hshed]
  case fallback =>
    intro r hfind
    refine congrArg Host.Outcome.next ?_
    unfold doFallbackPlan
    simp only [hfind]
    rfl
  case wake =>
    rintro ⟨b, hb, hid⟩
    exact congrArg Host.Outcome.next (if_pos (List.any_eq_true.2 ⟨b, hb, by simp [hid]⟩))
  case commit =>
    exact ⟨commit_refused p fallback, bursts_commit p fallback⟩

end Sys2Proof.Machine

/-! PROOF. A committed burst is sent at its assembly point and ends (R113, R139, R140, R147, R165, R166, R168). -/

namespace Sys2Proof.Machine
namespace State

/-! ### What has been sent stays sent -/

section
variable {o : Out} {s : State}

theorem sent_foldl {α : Type} {g : State → α → State} (hg : ∀ t a, o ∈ t.out → o ∈ (g t a).out) (l : List α) (h : o ∈ s.out) :
    o ∈ (l.foldl g s).out := List.foldlRecOn l g (motive := fun t : State => o ∈ t.out) h fun t ht a _ => hg t a ht

theorem sent_emit (x : Out) (h : o ∈ s.out) : o ∈ (s.emit x).out := List.mem_append_left _ h

theorem sent_signalEvt (k : Nat) (h : o ∈ s.out) : o ∈ (s.signalEvt k).out := by
  unfold signalEvt
  dsimp only
  split
  · exact sent_emit _ h
  · exact h

theorem sent_publishEvt (k : Nat) (p : EvPost) (h : o ∈ s.out) : o ∈ (s.publishEvt k p).out := by
  unfold publishEvt
  dsimp only
  split
  · exact sent_signalEvt _ (sent_emit _ (sent_emit _ h))
  · exact h

theorem sent_event (code sev kind idx : Nat) (d : List Byte) (ps : List Nat) (r : Bool) (h : o ∈ s.out) :
    o ∈ (s.event code sev kind idx d ps r).out := by
  unfold event post
  split
  · unfold postNow
    dsimp only
    refine sent_foldl (fun t k ht => sent_publishEvt _ _ ht) _ ?_
    split <;> exact h
  · split
    · exact h
    · refine sent_foldl (fun t k ht => ?_) _ h
      exact ht

theorem sent_clearAlarm (code kind idx : Nat) (d : List Byte) (h : o ∈ s.out) : o ∈ (s.clearAlarm code kind idx d).out := by
  unfold clearAlarm
  split
  · exact h
  · exact sent_event _ _ _ _ _ _ _ h

theorem out_requestWake (cls d : Nat) : (s.requestWake cls d).out = s.out := by
  have hgrant (cls : Nat) : (s.grantWake cls d).out = s.out := by
    unfold grantWake
    dsimp only
    rw [out_updPwr]
    exact view_foldl State.out (fun t e => out_updPdom ..) _ _
  have hqueue (cls : Nat) : (s.queueWake cls d).out = s.out := by
    unfold queueWake
    split
    · rfl
    · dsimp only
      rw [out_updPwr, out_updPdom]
  unfold requestWake
  split
  · rfl
  · rfl
  · split
    · exact hgrant _
    · split
      · rfl
      · exact hqueue _
  · split
    · exact hgrant _
    · split
      · split
        · exact hgrant _
        · rfl
      · exact hqueue _

theorem out_requestRelease (d : Nat) : (s.requestRelease d).out = s.out := by
  unfold requestRelease
  split
  · split <;> rfl
  · rfl
  · split <;> rfl
  · split <;> rfl

theorem out_queueTcm (c : Nat) (m : UpTcm) (r : Option (BitVec 48)) : (s.queueTcm c m r).out = s.out := by
  unfold queueTcm queueEntry
  dsimp only
  split
  · rfl
  · split <;> rfl

theorem sent_clearChan (c code detail : Nat) (h : o ∈ s.out) : o ∈ (s.clearChan c code detail).out := by
  unfold clearChan alarmRpt
  split
  · split
    · rw [out_queueTcm]
      exact sent_clearAlarm _ _ _ _ h
    · exact sent_clearAlarm _ _ _ _ h
  · exact h

theorem sent_trigFree (c : Nat) (h : o ∈ s.out) : o ∈ (s.trigFree c).out := by
  refine sent_foldl (fun t k ht => ?_) _ h
  dsimp only
  split
  · exact sent_event _ _ _ _ _ _ _ ht
  · exact ht

theorem out_presentedStep (p : TimeVal) : (s.presentedStep p).out = s.out := by
  unfold presentedStep
  dsimp only
  refine (view_foldl State.out (fun t k => ?_) _ _).trans ((view_foldl State.out (fun t m => ?_) _ _).trans ?_)
  all_goals rfl

theorem sent_discontinuity (d : TimeVal) (h : o ∈ s.out) : o ∈ (s.discontinuity d).out := by
  unfold discontinuity
  dsimp only
  split
  · rw [out_presentedStep]
    exact sent_event _ _ _ _ _ _ _ h
  · have hev := sent_event (s := s.updTime fun t => { t with ofs := t.ofs - d, held := false }) (o := o) 0x4001 0 0 0
      (discontinuity.sBytes4 (inNs d) ++ discontinuity.sBytes4 (inNs (s.time.ofs - d))) allParts false h
    split
    · exact hev
    · split
      · exact hev
      · exact sent_event _ _ _ _ _ _ _ hev

theorem sent_setActive (d : Nat) (h : o ∈ s.out) : o ∈ (s.setActive d).out := by
  unfold setActive
  split
  · exact h
  · exact sent_discontinuity _ h

theorem sent_reselect (h : o ∈ s.out) : o ∈ s.reselect.out := by
  unfold reselect
  split
  · exact sent_setActive _ h
  · exact sent_setActive _ h
  · split
    · exact sent_setActive _ h
    · exact h

theorem sent_loseSource (d : Nat) (h : o ∈ s.out) : o ∈ (s.loseSource d).out := by
  have hlarge (t : State) : (dropLarge t d).out = t.out := by
    unfold dropLarge
    split <;> rfl
  have hkeep (t u : State) : (keepEstimate t u).out = u.out := by
    unfold keepEstimate
    split <;> rfl
  unfold loseSource
  extract_lets x s1 s2 s3
  have h3 : o ∈ s3.out := by
    dsimp only [s3]
    split
    · exact (hlarge s).symm ▸ h
    · exact (hlarge s).symm ▸ h
  split
  · rw [hkeep]
    exact sent_reselect (sent_event _ _ _ _ _ _ _ h3)
  · exact h

theorem sent_chanLosesTime (c : Nat) (h : o ∈ s.out) : o ∈ (s.chanLosesTime c).out := by
  refine sent_foldl (fun t d ht => ?_) _ h
  split
  · exact sent_loseSource _ ht
  · exact ht

theorem out_bondLapse (c : Nat) : (s.bondLapse c).out = s.out := by
  unfold bondLapse
  split
  · rfl
  · dsimp only
    split <;> rfl

theorem sent_leaveOperating (c : Nat) (h : o ∈ s.out) : o ∈ (s.leaveOperating c).out := by
  unfold leaveOperating
  dsimp only
  rw [out_bondLapse]
  refine sent_trigFree _ (sent_chanLosesTime _ ?_)
  split
  · rw [out_requestWake]
    exact h
  · exact h

theorem sent_setState (c : Nat) (new : TState) (x : Cause) (h : o ∈ s.out) : o ∈ (s.setState c new x).out := by
  unfold setState
  extract_lets old s1 s2 s3
  have h2 : o ∈ s2.out := by
    dsimp only [s2]
    split
    · exact h
    · exact sent_leaveOperating _ h
  have h3 : o ∈ s3.out := by
    dsimp only [s3]
    split
    · exact h2
    · exact sent_event _ _ _ _ _ _ _ h2
  split
  · exact sent_clearAlarm _ _ _ _ h3
  · exact h3

theorem sent_driveBgate (c : Nat) (level : Bool) (t : Nat) (h : o ∈ s.out) : o ∈ (s.driveBgate c level t).out := by
  unfold driveBgate
  split
  · exact h
  · exact sent_emit _ h

theorem sent_bgateAfter (c : Nat) (b : Burst) (h : o ∈ s.out) : o ∈ (s.bgateAfter c b).out := by
  unfold bgateAfter
  split
  · exact sent_driveBgate _ _ _ h
  · split
    · exact h
    · exact sent_driveBgate _ _ _ (sent_driveBgate _ _ _ h)

theorem sent_sendStream (c : Nat) (bytes : List Byte) (h : o ∈ s.out) : o ∈ (s.sendStream c bytes).out := by
  unfold sendStream
  extract_lets u all n runs pins s'
  split
  · exact h
  · exact sent_emit _ h

theorem sent_sendBurst (c start : Nat) (bytes : List Byte) (h : o ∈ s.out) : o ∈ (s.sendBurst c start bytes).out := by
  unfold sendBurst
  dsimp only
  split
  · exact h
  · exact sent_sendStream _ _ h

theorem sent_emptyUsOld (c : Nat) (h : o ∈ s.out) : o ∈ (s.emptyUsOld c).out := by
  unfold emptyUsOld
  split
  · split
    · exact h
    · unfold suspectCheck
      split
      · exact h
      · exact sent_clearChan _ _ _ h
  · exact h

theorem sent_releaseUs (c : Nat) (h : o ∈ s.out) : o ∈ (s.releaseUs c).out := by
  unfold releaseUs endActivation
  split
  · exact h
  · rw [out_requestRelease]
    dsimp only
    split
    · exact sent_sendStream _ _ h
    · exact h

theorem sent_afterBurst (c fin : Nat) (h : o ∈ s.out) : o ∈ (s.afterBurst c fin).out := by
  unfold afterBurst
  split
  · exact h
  · exact sent_releaseUs _ h

theorem out_sleepAfterBurst (c : Nat) : (s.sleepAfterBurst c).out = s.out := by
  unfold sleepAfterBurst
  split
  · exact out_requestRelease _
  · rfl

end

/-! ### What sending leaves of a channel's bursts and state -/

/-- The bursts of a channel, the end of the last one, its state and its burst count. -/
def burstView (x : ChanSt) : List Burst × Nat × Bool × TState × BitVec 16 := (x.us.bursts, x.us.lastEnd, x.tc.opened, x.tc.st, x.tc.bseq)

theorem offLine_burstView : OffLine burstView := ⟨fun _ _ _ _ => rfl, fun _ _ => rfl⟩

section
variable (s : State) (c i : Nat)

theorem burstView_updChan {g : ChanSt → ChanSt} (hg : ∀ x, burstView (g x) = burstView x) :
    burstView ((s.updChan c g).chan i) = burstView (s.chan i) := by
  by_cases h : i = c
  · subst h
    simp [hg]
  · simp [h]

theorem burstView_updUs {g : ChanUs → ChanUs} (hbursts : ∀ u, (g u).bursts = u.bursts) (hlast : ∀ u, (g u).lastEnd = u.lastEnd) :
    burstView ((s.updUs c g).chan i) = burstView (s.chan i) :=
  burstView_updChan _ _ _ fun x => by simp [burstView, hbursts, hlast]

theorem burstView_bump (k : ChanCtr) (n : Nat) : burstView ((s.bump c k n).chan i) = burstView (s.chan i) := burstView_updChan _ _ _ fun _ => rfl

theorem burstView_takeOut (q : Nat) (g : TxSeg) :
    burstView ((s.takeOut q (fun f => f.id == g.fid) (countDeq q)).chan i) = burstView (s.chan i) :=
  outer_takeOut _ _ _ _ _ fun _ _ => chans_countDeq ..

theorem burstView_queueTcm (m : UpTcm) (r : Option (BitVec 48)) : burstView ((s.queueTcm c m r).chan i) = burstView (s.chan i) := by
  have hupQ (t : State) (q : List UpEntry) : burstView ((t.updTc c fun x => { x with upQ := q }).chan i) = burstView (t.chan i) :=
    burstView_updChan _ _ _ fun _ => rfl
  unfold queueTcm queueEntry
  dsimp only
  split
  · exact burstView_updChan _ _ _ fun _ => rfl
  · split
    · rw [burstView_bump]
      exact burstView_updChan _ _ _ fun _ => rfl
    · rw [burstView_bump]
      exact hupQ ..

theorem burstView_clearChan (code detail : Nat) : burstView ((s.clearChan c code detail).chan i) = burstView (s.chan i) := by
  unfold clearChan alarmRpt
  split
  · split
    · rw [burstView_queueTcm, chan_clearAlarm]
    · rw [chan_clearAlarm]
  · rfl

theorem burstView_emptyUsOld : burstView ((s.emptyUsOld c).chan i) = burstView (s.chan i) := by
  have hkeys (g : ChanKeys → ChanKeys) : burstView ((s.updKeys c g).chan i) = burstView (s.chan i) := burstView_updChan _ _ _ fun _ => rfl
  unfold emptyUsOld
  split
  · split
    · rfl
    · unfold suspectCheck
      split
      · exact hkeys _
      · rw [burstView_clearChan, hkeys]
  · rfl

theorem burstView_driveBgate (level : Bool) (t : Nat) : burstView ((s.driveBgate c level t).chan i) = burstView (s.chan i) := by
  unfold driveBgate
  split
  · rfl
  · rw [chan_emit]
    exact burstView_updChan _ _ _ fun _ => rfl

theorem burstView_bgateAfter (b : Burst) : burstView ((s.bgateAfter c b).chan i) = burstView (s.chan i) := by
  unfold bgateAfter
  split
  · exact burstView_driveBgate ..
  · split
    · rfl
    · rw [burstView_driveBgate, burstView_driveBgate]

theorem burstView_sendBurst (start : Nat) (bytes : List Byte) : burstView ((s.sendBurst c start bytes).chan i) = burstView (s.chan i) := by
  unfold sendBurst
  dsimp only
  split
  · rfl
  · exact offLine_sendStream offLine_burstView ..

theorem burstView_countBurst (b : Burst) : burstView ((s.countBurst c b).chan i) = burstView (s.chan i) := by
  have hadd (t : State) (k : ChanCtr) (n : Nat) : burstView ((if n = 0 then t else t.bump c k n).chan i) = burstView (t.chan i) := by
    split
    · rfl
    · exact burstView_bump ..
  unfold countBurst
  extract_lets sent add s1 s2 s3 s4
  have h4 : burstView (s4.chan i) = burstView (s.chan i) := by
    dsimp only [s4, s3, s2, s1, add]
    rw [hadd, hadd, hadd, hadd, hadd, hadd, burstView_bump, burstView_bump]
  split
  · rw [burstView_bump, h4]
  · rw [burstView_bump, h4]
  · exact h4

theorem burstView_recordBodies (b : Burst) : burstView ((s.recordBodies c b).chan i) = burstView (s.chan i) := by
  refine view_foldl (fun t : State => burstView (t.chan i)) (fun t g => ?_) _ _
  exact burstView_updChan _ _ _ fun _ => rfl

theorem burstView_afterBurst (fin : Nat) : burstView ((s.afterBurst c fin).chan i) = burstView (s.chan i) := by
  unfold afterBurst
  split
  · rfl
  · exact offLine_releaseUs offLine_burstView ..

theorem burstView_sleepAfterBurst : burstView ((s.sleepAfterBurst c).chan i) = burstView (s.chan i) := by
  unfold sleepAfterBurst
  split
  · rw [chan, chans_of_apart (apart_requestRelease ..)]
    rfl
  · rfl

end

theorem us_setState (s : State) (c i : Nat) (new : TState) (x : Cause) : ((s.setState c new x).chan i).us = (s.chan i).us := by
  unfold setState
  extract_lets old s1 s2 s3
  have h1 : (s1.chan i).us = (s.chan i).us := us_updTc ..
  have h2 : (s2.chan i).us = (s1.chan i).us := by
    dsimp only [s2]
    split
    · rfl
    · rw [chan, chans_leaveOperating]
      exact us_updTc ..
  have h3 : s3.chan i = s2.chan i := by
    dsimp only [s3]
    split
    · rfl
    · exact chan_event ..
  split
  · rw [chan_clearAlarm, h3, h2, h1]
  · rw [h3, h2, h1]

theorem st_setState (s : State) (c : Nat) (new : TState) (x : Cause) : ((s.setState c new x).chan c).tc.st = new := by
  unfold setState
  extract_lets old s1 s2 s3
  have h1 : (s1.chan c).tc.st = new := by simp [s1, updTc]
  have h2 : (s2.chan c).tc.st = (s1.chan c).tc.st := by
    dsimp only [s2]
    split
    · rfl
    · rw [chan, chans_leaveOperating]
      change ((s1.updTc c fun t => { t with doze := none, wakeNext := false }).chan c).tc.st = _
      simp [updTc]
  have h3 : s3.chan c = s2.chan c := by
    dsimp only [s3]
    split
    · rfl
    · exact chan_event ..
  split
  · rw [chan_clearAlarm, h3, h2, h1]
  · rw [h3, h2, h1]

/-- A burst whose last word has left: counted, its frames out of their queues, its words sent (R147, R166). -/
def goneSt (s : State) (c id : Nat) (b : Burst) : State :=
  (((b.segs.flatten.filter fun g => !g.filled).foldl (fun s g => s.takeOut g.q (fun f => f.id == g.fid) (countDeq g.q))
    ((s.countBurst c b).recordBodies c b)).updUs c fun u => { u with
      bursts := u.bursts.filter fun b => b.id != id, lastEnd := max u.lastEnd (b.at_ b.stop) }).emit
    (.burst c b.frame b.start (burstSeed b.frame b.hdrWord) (burstBytes b))

/-- Its lanes have been fed, and BGATE follows what comes behind (R165). -/
def fedSt (s : State) (c id : Nat) (b : Burst) : State :=
  ((s.goneSt c id b).sendBurst c (b.at_ b.start) (burstBytes b)).bgateAfter c b

/-- A LOCKED channel that has told its identity is ANNOUNCED (R113). -/
def toldSt (s : State) (c id : Nat) (b : Burst) : State :=
  if b.kind = .ident ∧ ((s.fedSt c id b).chan c).tc.opened ∧ ((s.fedSt c id b).chan c).tc.st = .locked
  then (s.fedSt c id b).setState c .announced .identSent else s.fedSt c id b

theorem doBurstEnd_eq {s : State} {c id : Nat} {b : Burst}
    (hfind : ((s.chan c).us.bursts.find? fun b => b.id == id && b.phase == .underWay) = some b) :
    s.doBurstEnd c id = (((s.toldSt c id b).emptyUsOld c).afterBurst c (b.at_ b.stop)).sleepAfterBurst c := by
  unfold doBurstEnd
  rw [hfind]
  rfl

theorem burstView_goneSt (s : State) (c id : Nat) (b : Burst) :
    burstView ((s.goneSt c id b).chan c) = ((s.chan c).us.bursts.filter (fun x => x.id != id), max (s.chan c).us.lastEnd (b.at_ b.stop),
      (s.chan c).tc.opened, (s.chan c).tc.st, (s.chan c).tc.bseq) := by
  have h : burstView (((b.segs.flatten.filter fun g => !g.filled).foldl (fun s g => s.takeOut g.q (fun f => f.id == g.fid) (countDeq g.q))
      ((s.countBurst c b).recordBodies c b)).chan c) = burstView (s.chan c) := by
    rw [view_foldl (fun t : State => burstView (t.chan c)) fun t g => burstView_takeOut ..]
    rw [burstView_recordBodies, burstView_countBurst]
  unfold goneSt
  rw [chan_emit]
  generalize List.foldl _ _ _ = t at h
  simp only [burstView, Prod.mk.injEq] at h
  obtain ⟨hbursts, hlast, hopened, hst, hbseq⟩ := h
  simp [burstView, updUs, hbursts, hlast, hopened, hst, hbseq]

theorem burstView_fedSt (s : State) (c id : Nat) (b : Burst) :
    burstView ((s.fedSt c id b).chan c) = burstView ((s.goneSt c id b).chan c) := by
  unfold fedSt
  rw [burstView_bgateAfter, burstView_sendBurst]

theorem us_toldSt (s : State) (c id : Nat) (b : Burst) : ((s.toldSt c id b).chan c).us = ((s.fedSt c id b).chan c).us := by
  unfold toldSt
  split
  · exact us_setState ..
  · rfl

theorem sent_toldSt (s : State) (c id : Nat) (b : Burst) :
    Out.burst c b.frame b.start (burstSeed b.frame b.hdrWord) (burstBytes b) ∈ (s.toldSt c id b).out := by
  have hfed : Out.burst c b.frame b.start (burstSeed b.frame b.hdrWord) (burstBytes b) ∈ (s.fedSt c id b).out :=
    sent_bgateAfter _ _ (sent_sendBurst _ _ _ (List.mem_append_right _ (List.mem_singleton_self _)))
  unfold toldSt
  split
  · exact sent_setState _ _ _ hfed
  · exact hfed

/-- The end of a burst: it is gone, its end is kept, its identity was told, and its words have gone out (R113, R147, R166, R168). -/
theorem doBurstEnd_effect {s : State} {c id : Nat} {b : Burst}
    (hfind : ((s.chan c).us.bursts.find? fun b => b.id == id && b.phase == .underWay) = some b) :
    ((s.doBurstEnd c id).chan c).us.bursts = (s.chan c).us.bursts.filter (fun x => x.id != id)
    ∧ b.at_ b.stop ≤ ((s.doBurstEnd c id).chan c).us.lastEnd
    ∧ (b.kind = .ident → (s.chan c).tc.opened = true → (s.chan c).tc.st = .locked → ((s.doBurstEnd c id).chan c).tc.st = .announced)
    ∧ Out.burst c b.frame b.start (burstSeed b.frame b.hdrWord) (burstBytes b) ∈ (s.doBurstEnd c id).out := by
  rw [doBurstEnd_eq hfind]
  have hview : burstView ((((((s.toldSt c id b).emptyUsOld c).afterBurst c (b.at_ b.stop)).sleepAfterBurst c)).chan c)
      = burstView ((s.toldSt c id b).chan c) := by
    rw [burstView_sleepAfterBurst, burstView_afterBurst, burstView_emptyUsOld]
  have hfed := (burstView_fedSt s c id b).trans (burstView_goneSt s c id b)
  have hus := us_toldSt s c id b
  simp only [burstView, Prod.mk.injEq] at hview hfed
  obtain ⟨hbursts, hlast, -, hst, -⟩ := hview
  obtain ⟨fbursts, flast, fopened, fst, -⟩ := hfed
  refine ⟨?_, ?_, fun hkind hopen hlocked => ?_, ?_⟩
  · rw [hbursts, hus, fbursts]
  · rw [hlast, hus, flast]
    exact le_max_right _ _
  · rw [hst, toldSt, if_pos ⟨hkind, fopened.trans hopen, fst.trans hlocked⟩]
    exact st_setState ..
  · rw [out_sleepAfterBurst]
    exact sent_afterBurst _ _ (sent_emptyUsOld _ (sent_toldSt s c id b))

/-! ### The assembly point -/

theorem burstView_fillSeg (s : State) (c slot i : Nat) (faults : List (Nat × Bool)) (g : TxSeg) (k : Nat) :
    burstView ((s.fillSeg c slot i faults g).2.chan k) = burstView (s.chan k) := by
  have hdrop (t : State) : burstView ((t.takeOut g.q (fun f => f.id == g.fid) (countDeq g.q)).chan k) = burstView (t.chan k) :=
    burstView_takeOut ..
  unfold fillSeg
  dsimp only
  split
  · exact hdrop s
  · refine (hdrop _).trans ?_
    split <;> rfl
  · split
    · exact hdrop s
    · split
      · rfl
      · dsimp only
        rw [burstView_bump]
        exact hdrop s

theorem burstView_fillSegs (s : State) (c : Nat) (b : Burst) (faults : List (Nat × Bool)) (k : Nat) :
    burstView ((s.fillSegs c b faults).2.chan k) = burstView (s.chan k) := by
  refine view_foldl (fun acc : List (List TxSeg) × Nat × State => burstView (acc.2.2.chan k)) (fun acc body => ?_) _ _
  refine view_foldl (fun a : List TxSeg × Nat × State => burstView (a.2.2.chan k)) (fun a g => ?_) _ _
  exact burstView_fillSeg ..

theorem burstView_controlTcm (s : State) (c : Nat) (b : Burst) (k : Nat) :
    burstView ((s.controlTcm c b).2.chan k) = burstView (s.chan k) := by
  have hown : burstView (((s.updTc c fun t => { t with upSeq := t.upSeq + 1 }).bump c .tcTx).chan k) = burstView (s.chan k) := by
    rw [burstView_bump]
    exact burstView_updChan _ _ _ fun _ => rfl
  unfold controlTcm
  dsimp only
  cases b.kind with
  | ident => exact hown
  | range => exact hown
  | data =>
    dsimp only
    split
    · unfold takeTcm
      split
      · rfl
      · dsimp only
        rw [burstView_bump]
        exact burstView_updChan _ _ _ fun _ => rfl
    · rfl

theorem burstView_activateLanes (s : State) (c : Nat) (b : Burst) (k : Nat) :
    burstView ((s.activateLanes c b).chan k) = burstView (s.chan k) := by
  unfold activateLanes
  split
  · rfl
  · dsimp only
    rw [chan_emit]
    rw [burstView_updUs]
    · exact view_foldl (fun t : State => burstView (t.chan k)) (fun t i => by rw [chan_updLane]) _ _
    · exact fun _ => rfl
    · exact fun _ => rfl

theorem bgate_driveBgate (s : State) (c : Nat) (level : Bool) (t : Nat) : ((s.driveBgate c level t).chan c).heath.bgate = level := by
  unfold driveBgate
  split
  · assumption
  · simp [updHeath]

/-- Its segments are filled and its control message taken (R139, R273). -/
def filledSt (s : State) (c : Nat) (b : Burst) (faults : List (Nat × Bool)) : State := ((s.fillSegs c b faults).2.controlTcm c b).2

/-- The burst that goes under way, with its header, its control field and its segments (R139, R140). -/
def assembled (s : State) (c : Nat) (b : Burst) (faults : List (Nat × Bool)) : Burst :=
  let t := s.filledSt c b faults
  let tcm := ((s.fillSegs c b faults).2.controlTcm c b).1
  let tid := if b.kind = .ident then 0 else (t.chan c).tc.tid
  let b := { b with segs := (s.fillSegs c b faults).1, tcm, phase := .underWay, head := t.burstHead c b tid (t.chan c).tc.bseq
                    control := if b.ctl then controlField c tid tcm else [] }
  { b with segs := t.sealSegs c b }

/-- The state in which it is under way and BSEQ has counted it. -/
def underWaySt (s : State) (c id : Nat) (b : Burst) (faults : List (Nat × Bool)) : State :=
  (((s.filledSt c b faults).activateLanes c (s.assembled c b faults)).updBurst c id fun _ => s.assembled c b faults).updTc c
    fun t => { t with bseq := t.bseq + 1 }

theorem doAssembly_eq {s : State} {c id : Nat} {b : Burst} (faults : List (Nat × Bool))
    (hfind : ((s.chan c).us.bursts.find? fun b => b.id == id && b.phase == .committed) = some b) (halive : s.alive (usDom c) = true) :
    s.doAssembly c id faults = if !(s.filledSt c b faults).burstsOver c then s.underWaySt c id b faults
      else (s.underWaySt c id b faults).driveBgate c true ((s.underWaySt c id b faults).bgateRise c (s.assembled c b faults)) := by
  unfold doAssembly
  rw [hfind]
  exact if_neg (by simp [halive])

theorem burstView_filledSt (s : State) (c : Nat) (b : Burst) (faults : List (Nat × Bool)) (k : Nat) :
    burstView ((s.filledSt c b faults).chan k) = burstView (s.chan k) := by
  rw [filledSt, burstView_controlTcm, burstView_fillSegs]

theorem chan_underWaySt (s : State) (c id : Nat) (b : Burst) (faults : List (Nat × Bool)) :
    ((s.underWaySt c id b faults).chan c).us.bursts
        = (s.chan c).us.bursts.map (fun x => if x.id == id then s.assembled c b faults else x)
    ∧ ((s.underWaySt c id b faults).chan c).tc.bseq = (s.chan c).tc.bseq + 1 := by
  have h : burstView (((s.filledSt c b faults).activateLanes c (s.assembled c b faults)).chan c) = burstView (s.chan c) := by
    rw [burstView_activateLanes, burstView_filledSt]
  unfold underWaySt
  generalize (s.filledSt c b faults).activateLanes c (s.assembled c b faults) = t at h
  simp only [burstView, Prod.mk.injEq] at h
  obtain ⟨hbursts, -, -, -, hbseq⟩ := h
  refine ⟨?_, ?_⟩
  · rw [us_updTc, us_updBurst, hbursts]
  · simp [updTc, updBurst, updUs, hbseq]

/-- A committed burst goes under way: BSEQ counts it, and BGATE is high unless a burst before it holds it (R139, R140, R165). -/
theorem doAssembly_effect {s : State} {c id : Nat} {b : Burst} (faults : List (Nat × Bool))
    (hfind : ((s.chan c).us.bursts.find? fun b => b.id == id && b.phase == .committed) = some b) (halive : s.alive (usDom c) = true) :
    ((s.doAssembly c id faults).chan c).tc.bseq = (s.chan c).tc.bseq + 1
    ∧ (s.burstsOver c = true → ((s.doAssembly c id faults).chan c).heath.bgate = true)
    ∧ ∀ x ∈ ((s.doAssembly c id faults).chan c).us.bursts, x.id = b.id →
      x.phase = .underWay ∧ x.frame = b.frame ∧ x.start = b.start ∧ x.grants = b.grants := by
  have hview : burstView ((s.doAssembly c id faults).chan c) = burstView ((s.underWaySt c id b faults).chan c) := by
    rw [doAssembly_eq faults hfind halive]
    split
    · rfl
    · exact burstView_driveBgate ..
  have hover : (s.filledSt c b faults).burstsOver c = s.burstsOver c :=
    congrArg (fun v => v.1.all fun b => b.phase != .underWay) (burstView_filledSt s c b faults c)
  have hid : b.id = id := by
    have := List.find?_some hfind
    simp only [Bool.and_eq_true, beq_iff_eq] at this
    exact this.1
  obtain ⟨hbursts, hbseq⟩ := chan_underWaySt s c id b faults
  simp only [burstView, Prod.mk.injEq] at hview
  obtain ⟨vbursts, -, -, -, vbseq⟩ := hview
  refine ⟨vbseq.trans hbseq, fun hfree => ?_, fun x hx hxid => ?_⟩
  · rw [doAssembly_eq faults hfind halive, hover, hfree, if_neg (by decide)]
    exact bgate_driveBgate ..
  · rw [vbursts, hbursts] at hx
    obtain ⟨y, -, rfl⟩ := List.mem_map.1 hx
    by_cases hy : y.id = id
    · rw [if_pos (by simpa using hy)]
      exact ⟨rfl, rfl, rfl, rfl⟩
    · rw [if_neg (by simpa using hy)] at hxid
      exact absurd (hxid.trans hid) hy

end State
open State

/-- Settles O12: `doAssembly_effect` and `doBurstEnd_effect`. -/
theorem burstsAreSentAndEnd : Obligations.BurstsAreSentAndEnd := by
  refine ⟨fun c id faults s b => ?assembly, fun c id faults s b => ?dark, fun c id s b => ?fin⟩
  case assembly =>
    intro hfind halive
    exact ⟨_, rfl, doAssembly_effect faults hfind halive⟩
  case dark =>
    intro hfind halive
    refine congrArg Host.Outcome.next ?_
    unfold doAssembly
    rw [hfind]
    exact if_pos (by simp [halive])
  case fin =>
    intro hfind hstill
    refine ⟨s.doBurstEnd c id, congrArg Host.Outcome.next (settle_still (still_of_cmdView hstill (cmdView_doBurstEnd ..))),
      doBurstEnd_effect hfind⟩

end Sys2Proof.Machine
